-- ==== Sys2Proof/Word.lean ====
section
/-!
DEFINITION. The words of the block: a register is 32 bits (R15), memory is counted in bytes (R36).
-/

namespace Sys2Proof

/-- A register word (R15). -/
abbrev Word := BitVec 32

/-- A byte of the shared buffers, of a frame or of a record. -/
abbrev Byte := BitVec 8

/-- Ticks of 390.625 ps in a microsecond (R8): the timebase runs at 2.56 GHz. -/
abbrev ticksPerUs : Nat := 2560

/-- Ticks in a millisecond. -/
abbrev ticksPerMs : Nat := 2560000

/-- Ticks in a second. -/
abbrev ticksPerS : Nat := 2560000000

end Sys2Proof
end

