-- ==== Sys2Proof/Machine/RegMap.lean ====
section
/-!
DEFINITION. The register map: block tags, pages and access codes (R12, R413 to R416), and how an address of BAR0 is
resolved to a page and an offset.
-/

namespace Sys2Proof.Machine

/-- The block tags, in the Code order of Table MAP-2 (R415). -/
inductive Tag where
  | sys | pwr | clk | rst | hif | evt | aon | rtc | dtm | ope | jnl | alc | cle | str | aux | out | ctm
  | skn | ply | thm | cbl | lsw | vcm | ses | plc | saf | sfc | key | cry | frc | lgl | mtr | trf | tmp
  deriving DecidableEq, Repr

/-- The code of a tag (Table MAP-2). -/
def Tag.code : Tag → Nat
  | .sys => 1 | .pwr => 2 | .clk => 3 | .rst => 4 | .hif => 5 | .evt => 6 | .aon => 7 | .rtc => 8 | .dtm => 9
  | .ope => 10 | .jnl => 11 | .alc => 12 | .cle => 13 | .str => 14 | .aux => 15 | .out => 16 | .ctm => 17
  | .skn => 18 | .ply => 19 | .thm => 20 | .cbl => 21 | .lsw => 22 | .vcm => 23 | .ses => 24 | .plc => 25
  | .saf => 26 | .sfc => 27 | .key => 28 | .cry => 29 | .frc => 30 | .lgl => 31 | .mtr => 32 | .trf => 33
  | .tmp => 34

/-- The page index of instance 0 (Table MAP-2). -/
def Tag.page0 : Tag → Nat
  | .sys => 0x000 | .pwr => 0x001 | .clk => 0x002 | .rst => 0x003 | .hif => 0x004 | .evt => 0x005 | .aon => 0x006
  | .rtc => 0x007 | .dtm => 0x008 | .ope => 0x100 | .jnl => 0x101 | .alc => 0x102 | .cle => 0x200 | .str => 0x210
  | .aux => 0x240 | .out => 0x250 | .ctm => 0x270 | .skn => 0x400 | .ply => 0x410 | .thm => 0x500 | .cbl => 0x540
  | .lsw => 0x560 | .vcm => 0x600 | .ses => 0x601 | .plc => 0x602 | .saf => 0x700 | .sfc => 0x701 | .key => 0x800
  | .cry => 0x801 | .frc => 0x900 | .lgl => 0xA00 | .mtr => 0xA01 | .trf => 0xA02 | .tmp => 0xA03

/-- The number of instances (Table MAP-2). -/
def Tag.count : Tag → Nat
  | .str => 48 | .aux => 16 | .out => 32 | .skn => 12 | .ply => 2 | .thm => 64 | .cbl => 32 | .lsw => 24
  | _ => 1

/-- Every tag, in Code order. -/
def Tag.all : List Tag :=
  [.sys, .pwr, .clk, .rst, .hif, .evt, .aon, .rtc, .dtm, .ope, .jnl, .alc, .cle, .str, .aux, .out, .ctm, .skn, .ply,
   .thm, .cbl, .lsw, .vcm, .ses, .plc, .saf, .sfc, .key, .cry, .frc, .lgl, .mtr, .trf, .tmp]

/-- The page index of instance `n` of a block (Table MAP-2). -/
def pageIx (t : Tag) (n : Nat) : Nat := t.page0 + n

/-- The block and instance of a page index; none is a NOPAGE fault (R413). -/
def pageOf (p : Nat) : Option (Tag × Nat) :=
  (Tag.all.find? fun t => t.page0 ≤ p && p < t.page0 + t.count).map fun t => (t, p - t.page0)

/-- The power domains in the order of Table PWR-1 (their index d is their place here). -/
inductive Dom where
  | aon | lgl | safe | mem | core | cle | alc | ope | skn0 | skn1 | skn2 | skn3 | ply | plc | vcm | cry | frc | hif
  deriving DecidableEq, Repr

/-- Every domain, by index. -/
def Dom.all : List Dom :=
  [.aon, .lgl, .safe, .mem, .core, .cle, .alc, .ope, .skn0, .skn1, .skn2, .skn3, .ply, .plc, .vcm, .cry, .frc, .hif]

/-- The index d of a domain ("PWR page"). -/
def Dom.ix : Dom → Nat
  | .aon => 0 | .lgl => 1 | .safe => 2 | .mem => 3 | .core => 4 | .cle => 5 | .alc => 6 | .ope => 7 | .skn0 => 8
  | .skn1 => 9 | .skn2 => 10 | .skn3 => 11 | .ply => 12 | .plc => 13 | .vcm => 14 | .cry => 15 | .frc => 16
  | .hif => 17

/-- The Skein domain of a port (Table MAP-2: SKN(n ÷ 3)). -/
def sknDom (n : Nat) : Dom :=
  match n / 3 with
  | 0 => .skn0 | 1 => .skn1 | 2 => .skn2 | _ => .skn3

/-- The domain that serves a page (Table MAP-2, R416). -/
def domOf : Tag → Nat → Dom
  | .sys, _ | .clk, _ | .evt, _ | .dtm, _ | .ctm, _ | .lsw, _ | .key, _ => .core
  | .pwr, _ | .rst, _ | .aon, _ | .rtc, _ => .aon
  | .hif, _ => .hif
  | .ope, _ | .jnl, _ => .ope
  | .alc, _ | .cbl, _ => .alc
  | .cle, _ | .str, _ | .aux, _ | .out, _ => .cle
  | .skn, n => sknDom n
  | .ply, _ => .ply
  | .thm, _ | .saf, _ | .sfc, _ => .safe
  | .vcm, _ | .ses, _ => .vcm
  | .plc, _ => .plc
  | .cry, _ => .cry
  | .frc, _ => .frc
  | .lgl, _ | .mtr, _ | .trf, _ | .tmp, _ => .lgl

/-- The four pages of the legal window (Table MAP-1, R259). -/
def legalTag : Tag → Bool
  | .lgl | .mtr | .trf | .tmp => true
  | _ => false

/-- Access codes of Table DOC-3; bits no field names are RSV. -/
inductive Acc where
  | rw | ro | roh | w1c | wo | rws
  deriving DecidableEq, Repr

/-- A field's own range (R52): any value of the field, `u lo hi` unsigned, `s lo hi` two's complement, `al n` a
multiple of n, `mul lo hi n` in range and a multiple of n, `z lo hi` zero or in range, `or lo hi v` in range or v,
`vec` a vector that EVT_VECMAP accepts (R38). -/
inductive Rng where
  | any
  | u (lo hi : Nat)
  | s (lo hi : Int)
  | al (n : Nat)
  | mul (lo hi n : Nat)
  | z (lo hi : Nat)
  | or (lo hi v : Nat)
  | vec
  deriving DecidableEq, Repr

/-- One row of a field table: bits, access code, reset value, own range. -/
structure FieldSpec where
  hi : Nat
  lo : Nat
  acc : Acc
  reset : Nat
  rng : Rng
  deriving DecidableEq, Repr

/-- A register family: first offset, two strides with their counts (one register: both counts 1), its fields. -/
structure RegFam where
  base : Nat
  s1 : Nat
  n1 : Nat
  s2 : Nat
  n2 : Nat
  fields : List FieldSpec
  deriving DecidableEq, Repr

/-- A named field: the block it belongs to, the page offset of its register, its bits. -/
structure Field where
  tag : Tag
  off : Nat
  hi : Nat
  lo : Nat
  deriving DecidableEq, Repr

/-- The staged copy of a field (R49: block offset X is staged at 0x800 + X). -/
def Field.staged (f : Field) : Field := { f with off := f.off + 0x800 }

/-- The width of a field. -/
def Field.width (f : Field) : Nat := f.hi + 1 - f.lo

/-- Whether a page offset is a register of this family. -/
def RegFam.covers (r : RegFam) (off : Nat) : Bool :=
  r.base ≤ off &&
    (let rel := off - r.base
     let i := rel / r.s1
     let rest := rel % r.s1
     (i < r.n1 && rest % r.s2 = 0 && rest / r.s2 < r.n2))

/-- A field's value of a word. -/
def fget (hi lo : Nat) (w : Word) : Nat := (w.toNat / 2 ^ lo) % 2 ^ (hi + 1 - lo)

/-- A word with a field replaced (the value taken modulo the field's width). -/
def fset (hi lo : Nat) (w : Word) (v : Nat) : Word :=
  BitVec.ofNat 32
    (w.toNat % 2 ^ lo + (v % 2 ^ (hi + 1 - lo)) * 2 ^ lo + w.toNat / 2 ^ (hi + 1) * 2 ^ (hi + 1))

/-- Two's complement reading of an n-bit value (R9). -/
def toSigned (n v : Nat) : Int := if v < 2 ^ (n - 1) then (v : Int) else (v : Int) - (2 ^ n : Nat)

/-- The n-bit two's complement pattern of an integer. -/
def ofSigned (n : Nat) (v : Int) : Nat := (v % (2 ^ n : Nat)).toNat

/-- The check of a field's own range (R52). -/
def Rng.ok (r : Rng) (width v : Nat) : Bool :=
  match r with
  | .any => true
  | .u lo hi => lo ≤ v && v ≤ hi
  | .s lo hi => decide (lo ≤ toSigned width v) && decide (toSigned width v ≤ hi)
  | .al n => v % n = 0
  | .mul lo hi n => lo ≤ v && v ≤ hi && v % n = 0
  | .z lo hi => v = 0 || (lo ≤ v && v ≤ hi)
  | .or lo hi x => (lo ≤ v && v ≤ hi) || v = x
  | .vec => v = 1 || (4 ≤ v && v ≤ 63)

end Sys2Proof.Machine
end

