-- ==== Sys2Proof/Machine/AlcTypes.lean ====
section
/-!
DEFINITION. The data of Tension: the inputs of Table ALC-1 as a snapshot takes them, and an allocation (R62). Plain
data, because a snapshot also travels between the units of a pair (Table PLY-1).
-/

namespace Sys2Proof.Machine

/-- A strand's reported limits and its cabinet's derate, per mille (R62, R67). -/
structure StrIn where
  num : Nat
  imax : Nat
  pmax : Nat
  derate : Nat
  deriving DecidableEq, Repr

/-- Vehicle targets: maximum current, maximum power, present voltage, class (R204, R206). -/
structure VehIn where
  imax : Nat := 0
  pmax : Nat := 0
  vpres : Nat := 0
  cls : Nat := 0
  deriving DecidableEq, Repr

/-- The inputs of one point. -/
structure PtIn where
  /-- Its session is allocatable (R64). -/
  alloc : Bool := false
  veh : VehIn := {}
  /-- Mean output voltage of the previous row while energised, mV (R63). -/
  vRow : Option Int := none
  h10 : Nat := 0
  h60 : Nat := 0
  /-- Strands that count in cap: ASSIGNED or HAND_IN. -/
  strs : List StrIn := []
  imax : Nat := 0
  pmax : Nat := 0
  prev : Int := 0
  ramp : Nat := 0
  /-- The measured current, where the reclaim of R62 applies. -/
  cv : Option Int := none
  /-- No setpoint above its active one (R335 step 2). -/
  noRise : Bool := false
  deriving DecidableEq, Repr

/-- A class's parameters (Table ALC-2). -/
structure ClassPar where
  guarKw : Nat
  weight : Nat
  ceil : Nat
  deriving DecidableEq, Repr

/-- The inputs that hold for the site. -/
structure SiteIn where
  /-- min(ALC_BUDGET, grid limit), and the reserve, both after the share of R336. -/
  grid : Nat := 0
  reserve : Nat := 0
  eff : Nat := 0
  price : Nat := 0
  rowUs : Nat := 0
  cvMargin : Nat := 0
  cls : List ClassPar := []
  deriving DecidableEq, Repr

/-- A candidate premise (Table ALC-11) with the change its scenario makes. -/
inductive Premise where
  | sesEnd (point : Nat)
  | vehReq (point : Nat) (veh : VehIn)
  | strRet (point strand : Nat) (lim : StrIn)
  | shed (point strand : Nat) (lim : StrIn)
  deriving DecidableEq, Repr

/-- A snapshot of a unit. -/
structure AlcSnap where
  row : Nat := 0
  site : SiteIn := {}
  pts : List PtIn := []
  prems : List Premise := []
  deriving DecidableEq, Repr

/-- The allocation of one point (R62, R65). -/
structure PtRes where
  set : Int := 0
  slope : Int := 0
  w : Nat := 0
  limit : Nat := 0
  shortG : Bool := false
  deriving DecidableEq, Repr

/-- An allocation. -/
structure AlcRes where
  dc : Nat := 0
  total : Nat := 0
  level : Nat := 0
  short : Bool := false
  price : Nat := 0
  pts : List PtRes := []
  deriving DecidableEq, Repr

end Sys2Proof.Machine
end

