-- ==== Sys2Proof/Machine/AMap.lean ====
section
/-!
DEFINITION. Sparse tables keyed by a number, in one canonical form: keys strictly rising, and no entry equal to what
an unlisted key reads as. Registers, memories and the per-instance structures are all held this way, so that equal
tables are equal data and the state after reset lists nothing.
-/

namespace Sys2Proof.Machine

/-- A sparse table: the listed entries. -/
abbrev AMap (α : Type) := List (Nat × α)

/-- The value at a key; `d k` where the key is not listed. -/
def AMap.get {α : Type} (d : Nat → α) : AMap α → Nat → α
  | [], k => d k
  | (k', v) :: m, k => if k' = k then v else AMap.get d m k

/-- The table without a key. -/
def AMap.erase {α : Type} (m : AMap α) (k : Nat) : AMap α := m.filter fun e => e.1 ≠ k

/-- Insert an entry before the first larger key. -/
def AMap.insert {α : Type} (k : Nat) (v : α) : AMap α → AMap α
  | [] => [(k, v)]
  | (k', v') :: m => if k < k' then (k, v) :: (k', v') :: m else (k', v') :: AMap.insert k v m

/-- The table with the value at a key replaced; a value equal to the default unlists the key. -/
def AMap.set {α : Type} [DecidableEq α] (d : Nat → α) (m : AMap α) (k : Nat) (v : α) : AMap α :=
  if v = d k then m.erase k else AMap.insert k v (m.erase k)

/-- The canonical form: keys strictly rising, no entry equal to the default. -/
def AMap.wf {α : Type} [DecidableEq α] (d : Nat → α) : AMap α → Bool
  | [] => true
  | [(k, v)] => decide (v ≠ d k)
  | (k, v) :: (k', v') :: m => decide (v ≠ d k) && decide (k < k') && AMap.wf d ((k', v') :: m)

/-- Write consecutive bytes of a memory from an address up. -/
def AMap.setBytes (m : AMap Byte) (a : Nat) : List Byte → AMap Byte
  | [] => m
  | b :: bs => AMap.setBytes (AMap.set (fun _ => 0#8) m a b) (a + 1) bs

/-- Read consecutive bytes of a memory (an unlisted byte reads 0: R390). -/
def AMap.getBytes (m : AMap Byte) (a : Nat) : Nat → List Byte
  | 0 => []
  | n + 1 => AMap.get (fun _ => 0#8) m a :: AMap.getBytes m (a + 1) n

/-- Little-endian number of a byte string. -/
def leNat : List Byte → Nat
  | [] => 0
  | b :: bs => b.toNat + 256 * leNat bs

/-- Little-endian bytes of a number. -/
def leBytes : Nat → Nat → List Byte
  | 0, _ => []
  | n + 1, v => BitVec.ofNat 8 v :: leBytes n (v / 256)

/-- Bytes a to a + n − 1 of a byte string, as a little-endian number; bytes beyond the end read 0. -/
def leAt (bs : List Byte) (a n : Nat) : Nat := leNat ((bs.drop a).take n)

/-- Clear every byte of a range of a memory. -/
def AMap.clearRange {α : Type} (m : AMap α) (a n : Nat) : AMap α := m.filter fun e => e.1 < a || a + n ≤ e.1

end Sys2Proof.Machine
end

