-- ==== Sys2Proof/Machine/Num.lean ====
section
/-!
DEFINITION. The conversions of R10 and R17: rounding to nearest with ties away from zero, truncation towards zero,
clamping; and the CRC-32C of R130.
-/

namespace Sys2Proof.Machine

/-- n / d rounded to the nearest integer, ties away from zero (R10); 0 where d is 0. -/
def rdiv (n : Int) (d : Nat) : Int :=
  if n < 0 then -(((-n).toNat * 2 + d) / (2 * d) : Nat) else ((n.toNat * 2 + d) / (2 * d) : Nat)

/-- Clamp into [lo, hi]. -/
def clampI (lo hi x : Int) : Int := if x < lo then lo else if hi < x then hi else x

/-- A rational rounded to the nearest integer, ties away from zero (R10). -/
def rround (q : Rat) : Int := rdiv q.num q.den

/-- One bit of the reflected CRC-32C division (polynomial 0x1EDC_6F41, R130). -/
def crcBit (c : Nat) : Nat := if c % 2 = 1 then Nat.xor (c / 2) 0x82F63B78 else c / 2

/-- One byte of the CRC-32C. -/
def crcByte (c : Nat) (b : Byte) : Nat :=
  crcBit (crcBit (crcBit (crcBit (crcBit (crcBit (crcBit (crcBit (Nat.xor c b.toNat))))))))

/-- CRC-32C of a byte string: initial value and final XOR all ones (R130). -/
def crc32c (bs : List Byte) : Nat := Nat.xor (bs.foldl crcByte 0xFFFFFFFF) 0xFFFFFFFF

/-- One bit of the reflected division by the Ethernet polynomial (IEEE 802.3). -/
def fcsBit (c : Nat) : Nat := if c % 2 = 1 then Nat.xor (c / 2) 0xEDB88320 else c / 2

/-- The frame check sequence of an Ethernet frame, least significant byte first (IEEE 802.3; PRESUMED, log entry 321). -/
def ethFcs (bs : List Byte) : List Byte :=
  leBytes 4 (Nat.xor (bs.foldl (fun c b => fcsBit^[8] (Nat.xor c b.toNat)) 0xFFFFFFFF) 0xFFFFFFFF)

/-- A frame body with its CRC appended, least significant byte first (R130). -/
def withCrc (bs : List Byte) : List Byte := bs ++ leBytes 4 (crc32c bs)

/-- Whether the last four bytes of a string are the CRC of the rest. -/
def crcOk (bs : List Byte) : Bool := 4 ≤ bs.length && leAt bs (bs.length - 4) 4 = crc32c (bs.take (bs.length - 4))

/-- Remove the first element that satisfies a predicate. -/
def removeFirst {α : Type} (p : α → Bool) : List α → List α
  | [] => []
  | x :: xs => if p x then xs else x :: removeFirst p xs

/-- Apply a function to the elements that satisfy a predicate. -/
def mapIf {α : Type} (p : α → Bool) (f : α → α) (l : List α) : List α := l.map fun x => if p x then f x else x

end Sys2Proof.Machine
end

