-- ==== Sys2Proof/Machine/B64.lean ====
section
/-!
DEFINITION. IEEE 754 binary64 arithmetic as R169 and R183 name it: rounding to nearest even, infinities and
not-a-number; signed zeros are one zero, which no rule tells apart (log entry 30). And the natural logarithm of a
positive rational to 2^-90, for R163 and R164.
-/

namespace Sys2Proof.Machine

/-- A binary64 value. -/
inductive B64 where
  | nan
  | inf (neg : Bool)
  | fin (q : Rat)
  deriving DecidableEq, Repr

/-- The floor of the binary logarithm of n/d, both positive. -/
def ratLog2 (n d : Nat) : Int :=
  let e : Int := (Nat.log2 n : Int) - (Nat.log2 d : Int)
  let le : Bool := if 0 ≤ e then d * 2 ^ e.toNat ≤ n else d ≤ n * 2 ^ (-e).toNat
  if le then e else e - 1

/-- n/d rounded to the nearest integer, ties to even. -/
def divEven (n d : Nat) : Nat :=
  let q := n / d
  let r := n % d
  if 2 * r < d then q else if d < 2 * r then q + 1 else if q % 2 = 0 then q else q + 1

/-- The binary64 value nearest to a rational. -/
def B64.ofRat (q : Rat) : B64 :=
  if q.num = 0 then .fin 0
  else
    let n := q.num.natAbs
    let d := q.den
    let sh : Int := max (ratLog2 n d - 52) (-1074)
    let m := if 0 ≤ sh then divEven n (d * 2 ^ sh.toNat) else divEven (n * 2 ^ (-sh).toNat) d
    let v : Rat := if 0 ≤ sh then (m * 2 ^ sh.toNat : Nat) else mkRat m (2 ^ (-sh).toNat)
    let neg := decide (q.num < 0)
    if (2 : Rat) ^ 1024 ≤ v then .inf neg else .fin (if neg then -v else v)

/-- The binary64 value of an integer. -/
def B64.ofInt (n : Int) : B64 := .ofRat n

/-- Addition. -/
def B64.add : B64 → B64 → B64
  | .nan, _ | _, .nan => .nan
  | .inf a, .inf b => if a = b then .inf a else .nan
  | .inf a, _ => .inf a
  | _, .inf b => .inf b
  | .fin a, .fin b => .ofRat (a + b)

/-- Negation. -/
def B64.neg : B64 → B64
  | .nan => .nan
  | .inf a => .inf (!a)
  | .fin a => .fin (-a)

/-- Subtraction. -/
def B64.sub (a b : B64) : B64 := a.add b.neg

/-- Multiplication. -/
def B64.mul : B64 → B64 → B64
  | .nan, _ | _, .nan => .nan
  | .inf a, .inf b => .inf (a != b)
  | .inf a, .fin b => if b.num = 0 then .nan else .inf (a != decide (b.num < 0))
  | .fin a, .inf b => if a.num = 0 then .nan else .inf (b != decide (a.num < 0))
  | .fin a, .fin b => .ofRat (a * b)

/-- Division. -/
def B64.div : B64 → B64 → B64
  | .nan, _ | _, .nan => .nan
  | .inf _, .inf _ => .nan
  | .inf a, .fin b => .inf (a != decide (b.num < 0))
  | .fin _, .inf _ => .fin 0
  | .fin a, .fin b =>
    if b.num = 0 then (if a.num = 0 then .nan else .inf (decide (a.num < 0))) else .ofRat (a / b)

/-- Whether a value is a number and not infinite. -/
def B64.isFin : B64 → Bool
  | .fin _ => true
  | _ => false

/-- The rational of a finite value, 0 of another. -/
def B64.toRat : B64 → Rat
  | .fin q => q
  | _ => 0

/-- A value times k converted to an integer: nearest, ties away from zero (R10); an infinity beyond any register. -/
def B64.toInt (k : Nat) : B64 → Int
  | .fin q => rround (q * k)
  | .inf neg => if neg then -(2 ^ 80) else 2 ^ 80
  | .nan => 0

/-! ### Fixed point with 96 fraction bits -/

/-- A rational in units of 2^-96, truncated. -/
def toFx (q : Rat) : Int := (q.num * 2 ^ 96).tdiv q.den

/-- The product of two fixed-point numbers. -/
def fxMul (a b : Int) : Int := (a * b) / 2 ^ 96

/-- The sum z + z³/3 + z⁵/5 + … to so many terms. -/
def atanhFx (z z2 : Int) : Nat → Nat → Int → Int
  | 0, _, _ => 0
  | k + 1, i, p => p / (2 * i + 1 : Nat) + atanhFx z z2 k (i + 1) (fxMul p z2)

/-- ln of y in [1, 2), as n/d. -/
def lnUnitFx (n d : Nat) : Int :=
  let z := toFx (mkRat ((n : Int) - d) (n + d))
  2 * atanhFx z (fxMul z z) 32 0 z

/-- ln(n/d) in units of 2^-96, for positive n and d. -/
def lnFx (n d : Nat) : Int :=
  let e := ratLog2 n d
  let m := if 0 ≤ e then lnUnitFx n (d * 2 ^ e.toNat) else lnUnitFx (n * 2 ^ (-e).toNat) d
  e * lnUnitFx 2 1 + m

end Sys2Proof.Machine
end

