-- ==== Sys2Proof/Syntax.lean ====
section
/-!
DEFINITION. The commands the block takes from outside, and the events of its own it is told of: one constructor per
row of spec/opcode_table.json, with the operands the rule of the row gives it.
-/

namespace Sys2Proof

open Sys2Proof.Machine (Tag AlcSnap AlcRes B64)

/-- The interface a host write arrives on (R34, R42). -/
inductive Port where
  | pcie
  | mgmt
  deriving DecidableEq, Repr

/-- Registers of the function's configuration space that carry the options of R34; their fields are those of the PCI
Express specification. -/
inductive CfgReg where
  /-- Vendor and Device ID, revision and class code, subsystem IDs. -/
  | ids
  | classRev
  | subsys
  /-- Command: bit 2 bus master enable. -/
  | command
  /-- MSI-X message control: bit 14 function mask, bit 15 enable. -/
  | msixCtl
  /-- Device control: [7:5] max payload size, [14:12] max read request size. -/
  | devCtl
  /-- Link control: bit 1 ASPM L1. -/
  | linkCtl
  /-- Power management control: [1:0] 0 D0, 3 D3hot. -/
  | pmCtl
  /-- AER uncorrectable and correctable error status. -/
  | aerUnc
  | aerCor
  deriving DecidableEq, Repr

/-- The instructions of the JTAG port as R355 tells them apart: the three it always accepts, the other boundary-scan
instructions, and debug access. -/
inductive JtagIr where
  | bypass
  | idcode
  | samplePreload
  | boundaryScan
  | debugAccess
  deriving DecidableEq, Repr

/-- Where a host access goes (R34, R36): an address in BAR0 or BAR2 with a 32-bit value, an address in BAR2 with the bytes
of an access of another width or of a burst, or configuration space; or the instruction register of the JTAG port, which
an instruction is shifted into (R355). -/
inductive HostAddr where
  | bar0 (a : Nat)
  | bar2 (a : Nat)
  | bar2Bytes (a : Nat) (bytes : List Byte)
  | cfg (r : CfgReg)
  | jtag (ir : JtagIr)
  deriving DecidableEq, Repr

/-- What resets the HIF page and the MSI-X table (R35). -/
inductive LinkReset where
  | linkDown
  | hotReset
  | flr
  | d3hot
  deriving DecidableEq, Repr

/-- The three PLLs (Table CLK-1). -/
inductive PllId where
  | f
  | t
  | m
  deriving DecidableEq, Repr

/-- A Green PHY management message other than those of SLAC, as far as Table PLC-1 tells them apart. -/
inductive GpMsg where
  | join
  | keyExchange
  | leave
  | other
  deriving DecidableEq, Repr

/-- A transaction at the management port: when it comes, and the 7-bit address it names (R42). -/
structure MgmtBus where
  t : Nat
  dst : Fin 128
  deriving DecidableEq, Repr

/-- The quiet line that held frames wait for: the instant, and the end of the last symbol that the device's own detector
has seen erased, where it has seen one (R225). -/
structure YarnQuiet where
  t : Nat
  own : Option Nat
  deriving DecidableEq, Repr

/-- The frame control of a Yarn-line frame (Table PLC-3), its CRC checked. -/
structure YarnFc where
  dst : Nat
  src : Nat
  odst : Nat
  osrc : Nat
  cls : Nat
  mode : Nat
  tmi : Nat
  nsym : Nat
  seq : Nat
  hop : Nat
  deriving DecidableEq, Repr

/-- The supply rails of Table RST-1. -/
inductive Rail where
  | vddC
  | vddL
  | vddM
  | vdda
  | vio
  | vaon
  deriving DecidableEq, Repr

/-- The two dies with a power-on reset of their own (R402). -/
inductive Die where
  | c
  | l
  deriving DecidableEq, Repr

/-- What MIRROR carries (Table PLY-2), registers as BAR0 addresses with their words: the data of a row, the safety
states of an evaluation, a commit with its staged area, a full load of staged areas. Sessions: slot and the numbers
behind its window. Cables: number, Tc, Tp, Tw; release timers: channel and start. A safety word at 0x100000 + m is the
last SEQ sent by connection m. -/
inductive PlyMirror where
  | row (k : Nat) (words : List (Nat × Word)) (ses : List (Nat × List Nat)) (cbl : List (Nat × B64 × B64 × B64))
    (rel : List (Nat × Option Nat)) (snap : AlcSnap) (act : AlcRes) (jnl : List (List Byte))
  | safety (words : List (Nat × Word))
  | commit (page : Nat) (words : List (Nat × Word))
  | load (pages : List (Nat × List (Nat × Word)))
  deriving DecidableEq, Repr

/-- The frames between the units of a pair (Table PLY-1), their CRC checked. TIME: the sender's count at departure, the
departure of the last TIME it received and its own count at that arrival, its row count and that row's boundary. -/
inductive PlyFrame where
  | hello (pairid serial mode role pref cfgcrc : Nat)
  | heartbeat (state rowcnt : Nat) (check : Option Bool)
  | time (sent echo echoAt row rowAt : Nat)
  | snap (row : Nat) (x : AlcSnap)
  | alloc (row : Nat) (res : AlcRes) (rejoin : Option Nat)
  | mirror (m : PlyMirror)
  | publish (row : Nat) (sets : List Int) (asg : List Nat) (coils : List Nat) (saf : List Nat)
  | sknfwd (port : Nat) (bytes : List Byte)
  | check (result : Option Bool)
  | take (at_ cause : Nat)
  | mark (start : Bool) (loop gen point : Nat)
  | mtrsec (p : List Int)
  | trig (kind src time capid : Nat)
  deriving DecidableEq, Repr
/-- The commands, one constructor per row of spec/opcode_table.json. Every command carries the timebase count `t` at
which it comes (R440; log entry 2). -/
inductive Instr where
  /-- REG_WRITE (R52): A write to a register that has no step of its own is checked for role, lock, access code and
    range, and is applied or rejected and recorded in ERRINFO. -/
  | regWrite (t : Nat) (p : Port) (a : HostAddr) (v : Word)
  /-- STAGE_COMMIT_REQUEST (R50): A write of the commit key to STAGE sets the staged area pending, or is rejected
    with BAD_KEY or STAGE_BUSY. -/
  | stageCommitRequest (t : Nat) (p : Port) (b : Tag) (n : Nat) (v : Word)
  /-- STAGE_COMMIT_APPLY (R50): At the block's commit boundary the whole staged area is checked, and either becomes
    active together or is refused with a reason. -/
  | stageCommitApply (t : Nat) (b : Tag) (n : Nat)
  /-- ERRINFO_CLEAR (R46): A write of any value to ERRINFO clears it and is never rejected. -/
  | errinfoClear (t : Nat) (p : Port) (b : Tag) (n : Nat) (v : Word)
  /-- ABORT_INFO_CLEAR (R44): A write of any value to HIF_ABORT_INFO clears both HIF_ABORT registers. -/
  | abortInfoClear (t : Nat) (p : Port) (v : Word)
  /-- EVT_PEND_CLEAR (R47): A write of 1 to an EVT_PEND bit clears that pending event. -/
  | evtPendClear (t : Nat) (p : Port) (b : Tag) (n : Nat) (v : Word)
  /-- EVT_SET_INJECT (R47): A write of 1 to an EVT_SET bit sets the pending bit and writes an event entry with
    INJECTED set, without touching EVT_RAW. -/
  | evtSetInject (t : Nat) (p : Port) (b : Tag) (n : Nat) (v : Word)
  /-- PAGE_LOCK (R48): A write of PCTRL.LOCK = 1 locks the page against writes to RW and RWS fields until the page
    is reset. -/
  | pageLock (t : Nat) (p : Port) (b : Tag) (n : Nat) (v : Word)
  /-- BLOCK_SOFT_RESET (R48): A write of PCTRL.SRST returns the page to its reset values, or is rejected with
    ENERGISED or ROLE. -/
  | blockSoftReset (t : Nat) (p : Port) (b : Tag) (n : Nat) (v : Word)
  /-- EVENT_OVERFLOW_MARKER (R41): When space returns in the event ring after a loss, the device writes one overflow
    marker before any new entry. -/
  | eventOverflowMarker (t : Nat)
  /-- COMPLETION_DELIVER (R40): A completion entry that was held is written into its reserved ring slot once the
    host advances the head or the link returns. -/
  | completionDeliver (t : Nat)
  /-- CQ_VECTOR_PAUSE (R40): A pause of 10 µs with no further completion entry raises vector 0. -/
  | cqVectorPause (t : Nat)
  /-- CQ_HEAD_WRITE (R45): A host write of HIF_CQ_HEAD consumes the completion entries it passes, or is rejected
    with RANGE. -/
  | cqHeadWrite (t : Nat) (p : Port) (v : Word)
  /-- EQ_HEAD_WRITE (R45): A host write of HIF_EQ_HEAD consumes the event entries it passes, or is rejected with
    RANGE. -/
  | eqHeadWrite (t : Nat) (p : Port) (v : Word)
  /-- MSIX_UNMASK (R38): Unmasking an MSI-X vector whose pending bit is set signals the pending event. -/
  | msixUnmask (t : Nat) (vec : Fin 64)
  /-- HIF_LINK_RESET (R35): A link-down, hot reset, FLR or D3hot entry resets only the HIF page and the MSI-X table,
    and holds completions until the host re-enables the rings. -/
  | hifLinkReset (t : Nat) (k : LinkReset)
  /-- HIF_ACCESS_FAULT (R37): An unaligned, unmapped, read-only or power-gated access completes normally and is
    recorded in HIF_ABORT_ADDR and HIF_ABORT_INFO. -/
  | hifAccessFault (t : Nat) (p : Port) (w : Bool) (a : HostAddr) (size : Nat)
  /-- MGMT_SET_POINTER (R42): Management-port command 0x01 sets the 32-bit BAR0 address pointer. -/
  | mgmtSetPointer (m : MgmtBus) (v : Word) (pecOk : Bool)
  /-- MGMT_READ (R42): Management-port command 0x02 reads the register at the pointer and advances the pointer by 4.
    -/
  | mgmtRead (m : MgmtBus)
  /-- MGMT_WRITE (R42): Management-port command 0x03 writes the register at the pointer, subject to PEC and to the
    pages the port may write, and advances the pointer by 4. -/
  | mgmtWrite (m : MgmtBus) (v : Word) (pecOk : Bool)
  /-- MGMT_SCL_TIMEOUT (R42): SCL held low for more than 35 ms makes the port release the bus and abandon the
    transaction. -/
  | mgmtSclTimeout (t : Nat) (lowUs : Nat)
  /-- MGMT_WAKE_MATCH (R43): A clockless match of the port address while the C-die clocks are stopped wakes the
    device when WAKE_EN is 1, and the address byte is NACKed. -/
  | mgmtWakeMatch (t : Nat) (addr : Nat)
  /-- ROW_BOUNDARY (R26): At each row boundary the previous allocation becomes active, ALC commits take effect,
    inputs are snapshotted, cable models update and Tension computes the committed and speculative allocations. -/
  | rowBoundary (t : Nat)
  /-- ALC_STALL (R28): After 8 consecutive overrun rows Tension ramps every energised point to zero at its bind-off
    rate, keeping the sessions. -/
  | alcStall (t : Nat)
  /-- GRID_WRITE (R56): A host write of ALC_GRID is range-checked, sets the grid import limit, refreshes the grid
    timeout and ends any fallback at the next snapshot. -/
  | gridWrite (t : Nat) (p : Port) (v : Word)
  /-- GRID_TMO (R56): No accepted write of ALC_GRID for ALC_GRID_TMO makes Tension use ALC_GRID_FB and raise
    GRID_TMO. -/
  | gridTmo (t : Nat)
  /-- PRICE_STALE (R57): No price from the L-die for 3 s makes Tension use ALC_PRICE_DEF and raise PRICE_STALE. -/
  | priceStale (t : Nat)
  /-- CAB_STALE (R58): A cabinet temperature older than 5 rows or from a broken channel makes the derate of every
    strand in that cabinet STALE_PCT, and CAB_STALE is raised. -/
  | cabStale (t : Nat) (c : Fin 16)
  /-- HANDOVER_REQUEST (R72): A host write of ALC_HANDOVER with GO = 1 is checked against the acceptance conditions
    and occupies the lowest idle handover slot. -/
  | handoverRequest (t : Nat) (p : Port) (v : Word)
  /-- HANDOVER_ACK (R72): A write of an ACK bit of ALC_HANDOVER idles a handover slot that is in state 6 or 7. -/
  | handoverAck (t : Nat) (p : Port) (v : Word)
  /-- HANDOVER_RAMP_OUT_END (R73): The strand's share reaches zero after RAMP_MS, its edges stop and its donor
    contactors are opened by ACT operation. -/
  | handoverRampOutEnd (t : Nat) (h : Fin 4)
  /-- HANDOVER_PREBIAS_DONE (R73): The strand's output capacitor reaches the receiver's voltage and the receiver
    contactors are closed by ACT operation. -/
  | handoverPrebiasDone (t : Nat) (h : Fin 4)
  /-- HANDOVER_RAMP_IN_END (R73): The HAND_IN strand's share completes its ramp-up, the strand becomes ASSIGNED to
    the receiver and HANDOVER_DONE is raised. -/
  | handoverRampInEnd (t : Nat) (h : Fin 4)
  /-- SAMPLE_BOUNDARY (R96): At a strand's carrier valley the strand takes its sample, applies any new allocation,
    STR commit or bank swap, and the node samples. -/
  | sampleBoundary (t : Nat) (n : Fin 48)
  /-- TLM_RX (R141): A TLM frame from an EDGE node delivers the phase currents, voltages and node flags of one
    sample. -/
  | tlmRx (t : Nat) (k : Fin 12) (f : List Byte)
  /-- TLM_DEADLINE_MISS (R97): Telemetry not arrived by TLM_DL per cent of a period makes the sample missed,
    repeating the previous edges and holding all loop state. -/
  | tlmDeadlineMiss (t : Nat) (n : Fin 48)
  /-- TLM_LOSS (R97): MISS_LIMIT consecutive missed samples stop the strand with fault TLM_LOSS. -/
  | tlmLoss (t : Nat) (n : Fin 48)
  /-- VBUS_LOW (R93): VBUS below STR_VBUSMIN in 2 consecutive samples stops the strand with fault VBUS_LOW. -/
  | vbusLow (t : Nat) (n : Fin 48)
  /-- STR_FAULT_CLEAR (R99): A write of the current fault code to STR_FAULTCLR clears the strand fault and restarts
    its loop states, or is rejected with CLR_MISMATCH. -/
  | strFaultClear (t : Nat) (p : Port) (n : Fin 48) (v : Word)
  /-- AUX_SAMPLE (R104): On the 1 ms grid each auxiliary loop runs its PID from its input and drives its load-switch
    duty or IO-node output. -/
  | auxSample (t : Nat) (n : Fin 16)
  /-- AUX_SRC_BAD (R105): An auxiliary input broken or not updated for 5 ms sets the output to AUX_FAILSAFE and
    holds the integrator. -/
  | auxSrcBad (t : Nat) (n : Fin 16)
  /-- FALLBACK_EXIT (R109): FBK_EXIT consecutive samples with every phase valid end fallback and resume the phase
    loops. -/
  | fallbackExit (t : Nat) (n : Fin 48)
  /-- PH_INVALID (R110): The same phase invalid in INV_LIMIT consecutive samples stops the strand with fault
    PH_INVALID. -/
  | phInvalid (t : Nat) (n : Fin 48) (ph : Fin 8)
  /-- PH_IMBAL (R111): A phase trim held at its limit for 1,000 consecutive samples raises PH_IMBAL. -/
  | phImbal (t : Nat) (n : Fin 48) (ph : Fin 8)
  /-- SHED_HOLD_EXPIRY (R83): When a shed's hold time expires at a sample boundary, the precomputed shed commits if
    no step, all phases valid and the condition still met, or is aborted. -/
  | shedHoldExpiry (t : Nat) (n : Fin 48)
  /-- STEP_LOCKOUT_END (R115): Step lockout ends after LOCK_MS and shedding may become pending again. -/
  | stepLockoutEnd (t : Nat) (n : Fin 48)
  /-- PREBIAS_COMPLETE (R116): The point bus held within TOL_V of V_veh for 1 ms completes pre-bias and the point
    enters CLOSING. -/
  | prebiasComplete (t : Nat) (q : Fin 32)
  /-- PREBIAS_TIMEOUT (R116): Pre-bias not complete within TMO_MS stops the edges and holds the point with PB_TMO.
    -/
  | prebiasTimeout (t : Nat) (q : Fin 32)
  /-- SOFTSTART_DONE (R117): The first outer-loop sample with t_ss at or beyond RAMP_MS puts the point and its
    strands in RUNNING. -/
  | softstartDone (t : Nat) (q : Fin 32)
  /-- SHORT_SS (R118): Condition C held for SHORT_MS in soft start declares a short, stops every strand and sends
    the point through discharge and opening to HELD. -/
  | shortSs (t : Nat) (q : Fin 32)
  /-- POINT_FAULT_CLEAR (R119): A write of the held fault code to OUT_RUNCLR with contactors confirmed open returns
    the point to IDLE, or is rejected. -/
  | pointFaultClear (t : Nat) (p : Port) (q : Fin 32) (v : Word)
  /-- RESTART_CHECK_PASS (R120): N consecutive good samples pass the restart check, and the strand resumes switching
    with its share ramping up. -/
  | restartCheckPass (t : Nat) (n : Fin 48)
  /-- RESTART_CHECK_TIMEOUT (R120): A restart check not passed within TMO_MS stops the strand with fault
    RESTART_FAIL. -/
  | restartCheckTimeout (t : Nat) (n : Fin 48)
  /-- RAMPDOWN_TIMEOUT (R121): Ramp-down not ended within TMO_MS ends there and raises BO_FORCED. -/
  | rampdownTimeout (t : Nat) (q : Fin 32)
  /-- VEHWAIT_TIMEOUT (R121): No vehicle-open indication within VEHWAIT_MS moves the point to DISCHARGE. -/
  | vehwaitTimeout (t : Nat) (q : Fin 32)
  /-- DISCHARGE_TIMEOUT (R123): A discharge not verified within 1,000 ms raises DIS_FAIL, ends the discharge and
    proceeds to OPENING with fault DIS_FAIL. -/
  | dischargeTimeout (t : Nat) (q : Fin 32)
  /-- SKN_LINK_UP (R126): 1,024 consecutive valid code groups bring a Skein link UP, and the device sends ENUM. -/
  | sknLinkUp (t : Nat) (k : Fin 12)
  /-- SKN_SYNC_LOSS (R126): 4 invalid code groups in 16 take the receiver out of synchronisation and the link DOWN,
    raising RING_BREAK on a ring. -/
  | sknSyncLoss (t : Nat) (k : Fin 12)
  /-- SKN_SYNC_SEND (R138): Every SKN_SYNC.PERIOD_US the device sends SYNC from each port with its departure time.
    -/
  | sknSyncSend (t : Nat) (k : Fin 12)
  /-- DLY_REQ_RX (R139): A DLY_REQ from a node is answered with DLY_RESP carrying T2, T3 and the correction fields.
    -/
  | dlyReqRx (t : Nat) (k : Fin 12) (f : List Byte)
  /-- IDENT_RX (R146): An IDENT frame reports a node's class, which is compared with SKN_EXPECT. -/
  | identRx (t : Nat) (k : Fin 12) (f : List Byte)
  /-- ENUM_IDENT_TIMEOUT (R146): No IDENT from an expected position within 1 ms of ENUM is a mismatch. -/
  | enumIdentTimeout (t : Nat) (k : Fin 12) (pos : Fin 8)
  /-- STATUS_RX (R142): A STATUS frame from a node refreshes its liveness and ends a lost state. -/
  | statusRx (t : Nat) (k : Fin 12) (f : List Byte)
  /-- NODE_LOST (R142): No STATUS from an enumerated node for 5 periods declares it lost and stops any running
    strand it serves. -/
  | nodeLost (t : Nat) (k : Fin 12) (pos : Fin 8)
  /-- IO_IN_RX (R145): An IO_IN frame refreshes the listed input channels of a node. -/
  | ioInRx (t : Nat) (k : Fin 12) (f : List Byte)
  /-- INPUT_STALE (R145): An input not refreshed for 4 cycles becomes stale, flagging a temperature source broken or
    an auxiliary contact stale. -/
  | inputStale (t : Nat) (k : Fin 12) (pos : Fin 8) (ch : Fin 256)
  /-- IO_ACK_RX (R143): An IO_ACK with a matching TAG completes the request that sent it with its status and value.
    -/
  | ioAckRx (t : Nat) (k : Fin 12) (f : List Byte)
  /-- IO_ACK_TIMEOUT (R143): No IO_ACK within TMO_US resends the request, or after the last attempt ends its
    operation with link failure and raises IO_FAIL. -/
  | ioAckTimeout (t : Nat) (k : Fin 12) (pos : Fin 8)
  /-- TUN_RX (R201): TUN fragments from a DISP node are reassembled into a vehicle-link frame for the receive ring.
    -/
  | tunRx (t : Nat) (k : Fin 12) (f : List Byte)
  /-- SKN_WAKE_DETECT (R149): The AON detector of a port in RET or OFF detects activity or the WAKE pattern and
    requests a wake. -/
  | sknWakeDetect (t : Nat) (k : Fin 12) (pattern : Bool)
  /-- CONTACTOR_CONFIRM (R157): The auxiliary input reading the commanded state in AUXDEB updates after the IO_ACK
    confirms the contactor and completes its ACT operation. -/
  | contactorConfirm (t : Nat) (e : Fin 64)
  /-- CONTACTOR_CONFIRM_TIMEOUT (R157): A command not confirmed within CLOSE_MS or OPEN_MS sets FAIL_CLOSE or
    FAIL_OPEN with the outcome of Table CTM-2. -/
  | contactorConfirmTimeout (t : Nat) (e : Fin 64)
  /-- AUX_CONTACT_CHANGE (R158): An unsolicited change held for AUXDEB updates sets a closed entry SAFE_OPEN or
    LOST. -/
  | auxContactChange (t : Nat) (e : Fin 64)
  /-- ISO_FAULT (R161): RISO below the fault threshold for OUT_ISOTIME on an energised point gives point fault
    ISO_FAULT. -/
  | isoFault (t : Nat) (q : Fin 32)
  /-- ISO_LOST (R161): RISO stale or IMDSTATE not 0 for OUT_ISOTIME gives point fault ISO_LOST. -/
  | isoLost (t : Nat) (q : Fin 32)
  /-- THM_CONVERSION (R162): A converter slot converts one temperature channel and updates THM_TEMP. -/
  | thmConversion (t : Nat) (c : Fin 64) (raw : Nat) (vf : Nat)
  /-- THM_BROKEN (R165): A fault condition in 3 consecutive conversions declares the channel broken. -/
  | thmBroken (t : Nat) (c : Fin 64)
  /-- THM_RECOVERED (R165): 20 consecutive clean conversions recover a broken channel. -/
  | thmRecovered (t : Nat) (c : Fin 64)
  /-- HW_COMPARATOR_TRIP (R166): A channel at or beyond its trip threshold in 2 consecutive cycles trips the
    analogue comparator towards the safety island. -/
  | hwComparatorTrip (t : Nat) (c : Fin 64)
  /-- HW_COOL_RELEASE (R167): The channel valid, at or below REL and untripped for COOL_S releases the hardware
    over-temperature function. -/
  | hwCoolRelease (t : Nat) (c : Fin 64)
  /-- ROR_EVALUATION (R174): Every 100 ms each cable evaluates its pin rate of rise and moves its WARN, DERATE or
    TRIP level. -/
  | rorEvaluation (t : Nat) (q : Fin 32)
  /-- ROR_TRIP_CLEAR (R175): A write of 1 to CBL_TRIPCLR clears the rate-of-rise trip latch, or is rejected with
    ROR_ACTIVE. -/
  | rorTripClear (t : Nat) (p : Port) (q : Fin 32) (v : Word)
  /-- DIE_SENSOR_READ (R177): Every 1 ms the die sensors are read and the throttle level follows Tmax. -/
  | dieSensorRead (t : Nat) (ts : List Int)
  /-- DIE_SHUTDOWN_TRIP (R178): A die-sensor comparator trip sends STOP IMM on every port and drops every output
    pair. -/
  | dieShutdownTrip (t : Nat) (k : Fin 8)
  /-- DIE_SHUTDOWN_DOMAINS_OFF (R178): 10 ms after a die shutdown trip the listed domains go OFF. -/
  | dieShutdownDomainsOff (t : Nat)
  /-- THERMAL_RESTART (R178): Every comparator below SD_T − SD_HYS for REL_S restarts the OFF domains through
    cast-on with cause THERMAL. -/
  | thermalRestart (t : Nat)
  /-- LSW_STEP (R183): Every 100 µs a load-switch channel forms I_eff and updates its accumulator, tripping with I2T
    when full. -/
  | lswStep (t : Nat) (n : Fin 24) (uv : List Int)
  /-- LSW_SHORT_TRIP (R185): The shunt voltage above the short threshold pulls the gate off within 5 µs and trips
    with SHORT. -/
  | lswShortTrip (t : Nat) (n : Fin 24)
  /-- LSW_UV_OFF (R188): VAUX24 below 5.5 V in 2 consecutive measurements turns every on channel off into UV_OFF. -/
  | lswUvOff (t : Nat)
  /-- LSW_UV_RECOVER (R188): VAUX24 above 9 V for 10 ms lets UV_OFF channels recover by RECOVER. -/
  | lswUvRecover (t : Nat)
  /-- LSW_UV_STAGGER_ON (R188): Returning channels switch on one at a time, 10 ms apart. -/
  | lswUvStaggerOn (t : Nat) (n : Fin 24)
  /-- LSW_RETRY_RESTART (R189): A tripped channel restarts by itself once delay, latch, accumulator, supply and
    retry conditions all hold. -/
  | lswRetryRestart (t : Nat) (n : Fin 24)
  /-- LSW_COUNTER_RESET (R189): A channel on for RESET_S without a trip or latching returns RETRIES and THTRIPS to
    0. -/
  | lswCounterReset (t : Nat) (n : Fin 24)
  /-- LSW_CLEAR (R190): A write of the fault code to LSW_CLR takes the channel out of LOCKOUT, or is rejected with
    CLR_MISMATCH. -/
  | lswClear (t : Nat) (p : Port) (n : Fin 24) (v : Word)
  /-- LSW_DUTY_WRITE (R192): A host write of LSW_DUTY sets the PWM duty, or is rejected with AUX_OWNED. -/
  | lswDutyWrite (t : Nat) (p : Port) (n : Fin 24) (v : Word)
  /-- PILOT_DRIVE_CHANGE (R195): A change of pilot drive takes effect at the end of the running pilot period. -/
  | pilotDriveChange (t : Nat) (q : Fin 32)
  /-- PILOT_SAMPLE (R196): The high plateau, and under X2 the low plateau, is sampled and classified into a pilot
    band. -/
  | pilotSample (t : Nat) (q : Fin 32) (hi : Int) (lo : Int)
  /-- PILOT_STATE_ACCEPT (R196): Samples in one band for FILT_MS accept that pilot state. -/
  | pilotStateAccept (t : Nat) (q : Fin 32)
  /-- PILOT_FAULT (R196): E or INVALID persisting for INV_MS raises PILOT_FAULT once for the point. -/
  | pilotFault (t : Nat) (q : Fin 32)
  /-- ID_STATE_ACCEPT (R198): An ID class held for FILT_MS is accepted as PLUGGED, UNPLUGGED or FAULT. -/
  | idStateAccept (t : Nat) (q : Fin 32) (mv : Int)
  /-- CE_FAULT (R198): CE readback disagreeing with the drive for CE_MS raises CE_FAULT once. -/
  | ceFault (t : Nat) (q : Fin 32) (mv : Int)
  /-- VEH_FRAME_RX (R199): A vehicle-link frame passing the MAC filter enters the receive ring, or is dropped when
    the ring is full. -/
  | vehFrameRx (t : Nat) (q : Fin 32) (f : List Byte) (fcsOk : Bool)
  /-- RX_HEAD_WRITE (R200): A host write of VCM_RXHEAD consumes receive slots, or is rejected with RANGE. -/
  | rxHeadWrite (t : Nat) (p : Port) (v : Word)
  /-- VEH_LINK_CHANGE (R207): A vehicle link coming up moves the session to LINKED, and a link lost in LINKED or
    AUTHORISED returns it to CONNECTED. -/
  | vehLinkChange (t : Nat) (q : Fin 32) (up : Bool)
  /-- SLAC_PARM_REQ (R202): A CM_SLAC_PARM.REQ on a Green PHY coupling is answered in the EVSE role. -/
  | slacParmReq (t : Nat) (g : Fin 4) (run : Nat) (mac : Nat)
  /-- SLAC_SOUNDING (R202): The sounding is taken in and CM_ATTEN_CHAR.IND is returned on one coupling only, or
    SLAC_FAIL is raised. -/
  | slacSounding (t : Nat) (run : Nat) (heard : List (Nat × List Nat))
  /-- SLAC_MATCH_REQ (R202): A CM_SLAC_MATCH.REQ is answered with a NID and a device-generated NMK, bringing the
    link up. -/
  | slacMatchReq (t : Nat) (g : Fin 4) (run : Nat) (mac : Nat)
  /-- GP_MGMT_MSG_RX (R218): A Green PHY management message for network join or key exchange is handled, and others
    are discarded. -/
  | gpMgmtMsgRx (t : Nat) (g : Fin 4) (msg : GpMsg)
  /-- PENDING_TARGET_WRITE (R204): A write to a pending target field of the session window increments PSEQ and sets
    PEND, or is rejected. -/
  | pendingTargetWrite (t : Nat) (p : Port) (off : Nat) (v : Word)
  /-- SES_VALIDATE (R205): VALIDATE with the current PSEQ copies the pending set into the active set and counts as a
    refresh. -/
  | sesValidate (t : Nat) (p : Port) (v : Word)
  /-- SES_REJECT (R205): REJECT with the current PSEQ clears PEND and leaves the active set unchanged. -/
  | sesReject (t : Nat) (p : Port) (v : Word)
  /-- SES_REFRESH (R207): REFRESH confirms the active set unchanged, restarts the refresh timer and clears HOLD. -/
  | sesRefresh (t : Nat) (p : Port) (v : Word)
  /-- SES_START (R64): START authorises a LINKED session, which becomes AUTHORISED and starts its refresh timer. -/
  | sesStart (t : Nat) (p : Port) (v : Word)
  /-- SES_END_REQ (R75): END_REQ sets ENDREQ, making the session an SES_END premise. -/
  | sesEndReq (t : Nat) (p : Port) (v : Word)
  /-- SES_END_WITHDRAW (R75): END_WITHDRAW clears ENDREQ. -/
  | sesEndWithdraw (t : Nat) (p : Port) (v : Word)
  /-- SES_STOP (R209): STOP ends the session with cause HOST_STOP. -/
  | sesStop (t : Nat) (p : Port) (v : Word)
  /-- SES_VEHOPEN (R210): VEHOPEN gives the vehicle-open indication for a session in ENDING. -/
  | sesVehopen (t : Nat) (p : Port) (v : Word)
  /-- SES_RELEASE (R203): RELEASE frees an ENDED or INTERRUPTED session and clears the interrupted mark of its
    point. -/
  | sesRelease (t : Nat) (p : Port) (v : Word)
  /-- LINKWAIT_TIMEOUT (R207): LINKWAIT reaching LINKWAIT_S ends a CONNECTED session with LINK_TMO. -/
  | linkwaitTimeout (t : Nat) (m : Fin 64)
  /-- AUTHWAIT_TIMEOUT (R207): AUTHWAIT reaching AUTHWAIT_S ends a LINKED session with AUTH_TMO. -/
  | authwaitTimeout (t : Nat) (m : Fin 64)
  /-- REFRESH_HOLD (R208): The refresh timer reaching TMO_MS sets HOLD, so Tension can lower but not raise the
    setpoint. -/
  | refreshHold (t : Nat) (m : Fin 64)
  /-- REFRESH_TMO (R208): The refresh timer reaching twice TMO_MS ends the session with REFRESH_TMO. -/
  | refreshTmo (t : Nat) (m : Fin 64)
  /-- YARN_BEACON_PERIOD (R221): A beacon period begins at every fourth zero-cross edge, or free-running, and the
    device sends its central beacon and recomputes routes. -/
  | yarnBeaconPeriod (t : Nat)
  /-- ZC_EDGE (R226): An accepted zero-cross edge is dated and used for the mains period. -/
  | zcEdge (t : Nat) (widthUs : Nat)
  /-- ZC_LOST (R226): No accepted edge for 30 ms, or one out of range, makes the zero-cross input invalid. -/
  | zcLost (t : Nat)
  /-- ZC_OK (R226): 8 consecutive edges within range make the zero-cross input valid again. -/
  | zcOk (t : Nat)
  /-- STATION_BEACON_RX (R227): A station beacon gives a peer's link costs and zero-cross offset, from which its
    phase class is derived. -/
  | stationBeaconRx (t : Nat) (ident : Nat) (src : Fin 64) (ok : Bool) (zcOfs : Nat) (costs : List (Nat × Nat))
  /-- YARN_TX_START (R222): After priority resolution the backoff count reaches zero and the station starts its
    frame. -/
  | yarnTxStart (t : Nat)
  /-- YARN_FRAME_RX (R232): A Yarn-line frame is received, authenticated and answered with a SACK, or discarded on
    AUTH_FAIL. -/
  | yarnFrameRx (t : Nat) (ident : Nat) (fc : YarnFc) (dec : Bool) (auth : Bool) (guard : List Nat) (est : List Nat)
      (map : Option (Nat × List Nat)) (data : List Byte) (crc : Word)
  /-- YARN_SACK_RX (R225): A SACK reports OK, IMPULSE or AUTH_FAIL for the frame it names. -/
  | yarnSackRx (t : Nat) (src : Fin 64) (seq : Nat) (bits : Nat)
  /-- YARN_SACK_TIMEOUT (R225): No SACK starting within 200 µs of the frame's end makes the frame fail. -/
  | yarnSackTimeout (t : Nat)
  /-- YARN_RETRANSMIT (R225): After an impulse failure and QUIET without erasure, the frame contends again without
    doubling CW, or is dropped after RETRY. -/
  | yarnRetransmit (q : YarnQuiet)
  /-- PEER_LOST (R230): Nothing heard from a peer for LOST_BP beacon periods makes it LOST. -/
  | peerLost (t : Nat) (m : Fin 64)
  /-- METROLOGY_SAMPLE (R242): Each decimated sample is calibrated and its energy booked by direction, or its period
    counted as invalid. -/
  | metrologySample (t : Nat) (mp : Fin 36) (xs : List (Int × Int)) (v90 : List Int)
  /-- MOD_CHANNEL_LOST (R240): A modulator channel with no transition or too many code violations enters LOST and
    records MODLOSS. -/
  | modChannelLost (t : Nat) (c : Fin 96)
  /-- MOD_CHANNEL_RECOVER (R240): 100 ms without the LOST condition returns a channel to VALID. -/
  | modChannelRecover (t : Nat) (c : Fin 96)
  /-- MODREV_DETECT (R241): Reversed polarity in 3 consecutive seconds records MODREV. -/
  | modrevDetect (t : Nat) (mp : Fin 36)
  /-- SECOND_BOUNDARY (R249): At each RTC second boundary the L-die persists its totals, updates the MTR page and
    processes interval close, parameter activation and tariff switch. -/
  | secondBoundary (t : Nat)
  /-- L_TO_C_SECOND_FEED (R20): Each second the L-die delivers time, tariff, price and measured values to the C-die.
    -/
  | lToCSecondFeed (t : Nat)
  /-- PFAIL_WARNING (R250): PFAILN falling or the C-die warning stops booking and writes the POWERFAIL transaction.
    -/
  | pfailWarning (t : Nat)
  /-- PFAIL_RETURN (R250): PFAILN high for 10 ms resumes booking at the next second and resumes issuing. -/
  | pfailReturn (t : Nat)
  /-- ROM_CHECK (R254): The ROM digest check runs every 24 h, and a mismatch halts booking and signing. -/
  | romCheck (t : Nat) (ok : Bool)
  /-- LGL_GET (R259): A mailbox GET reads an object if the active role may. -/
  | lglGet (t : Nat)
  /-- LGL_SET (R262): A mailbox SET writes a staged parameter, the clock, the passive calendar or a key object if
    allowed. -/
  | lglSet (t : Nat)
  /-- LGL_SEAL (R263): SEAL checks the staged set and schedules it for activation, or refuses it. -/
  | lglSeal (t : Nat)
  /-- LGL_DISCARD (R263): DISCARD empties the staged parameter set. -/
  | lglDiscard (t : Nat)
  /-- LGL_CHALLENGE (R256): CHALLENGE returns a nonce for a role, ending any active role. -/
  | lglChallenge (t : Nat)
  /-- LGL_AUTH (R256): AUTH verifies a signature over the challenge and activates the role, or counts a failure. -/
  | lglAuth (t : Nat)
  /-- LGL_LOGOUT (R258): LOGOUT returns the active role to PUB. -/
  | lglLogout (t : Nat)
  /-- LGL_ACK (R272): ACK under BIL frees every record up to SEL. -/
  | lglAck (t : Nat)
  /-- LGL_LSK_RENEW (R275): LSK_RENEW generates a new signing key and writes a key-change record. -/
  | lglLskRenew (t : Nat)
  /-- LGL_CHALLENGE_EXPIRY (R256): A legal challenge expires 30 s after issue. -/
  | lglChallengeExpiry (t : Nat)
  /-- LGL_LOCKOUT_END (R257): The lockout time runs out and challenges are answered again. -/
  | lglLockoutEnd (t : Nat)
  /-- LGL_ROLE_IDLE_TIMEOUT (R258): 300 s without a mailbox request ends the active role. -/
  | lglRoleIdleTimeout (t : Nat)
  /-- TAMPER_MAG (R265): TMPMAG held active for 100 ms after 1 s inactive records MAG. -/
  | tamperMag (t : Nat)
  /-- TAMPER_COVER (R265): TMPCOV open for 50 ms after 1 s closed records COVER. -/
  | tamperCover (t : Nat)
  /-- SUPPLY_LOW (R265): VDD_L below 0.72 V for 1 ms records SUPPLYLOW. -/
  | supplyLow (t : Nat)
  /-- MARKER_START_RX (R268): A session start marker opens a receipt, closing any open one with END 0xFE. -/
  | markerStartRx (t : Nat) (loop : Fin 64) (gen : Fin 256) (point : Fin 32)
  /-- MARKER_END_RX (R268): A session end marker writes the signed receipt, or is counted lost. -/
  | markerEndRx (t : Nat) (loop : Fin 64) (gen : Fin 256) (point : Fin 32)
  /-- C_L_LINK_RESET (R269): A reset of the C–L link writes every open receipt as interrupted and ends the active
    role. -/
  | cLLinkReset (t : Nat)
  /-- OSC_STOP (R278): No RTC oscillator edge for 4 ms makes time invalid and records CLKLOSS. -/
  | oscStop (t : Nat)
  /-- SLEW_COMPLETE (R280): An outstanding slew is fully absorbed and the RTC returns to its normal rate. -/
  | slewComplete (t : Nat)
  /-- SAFE_CHANNEL_ACCEPT (R296): A safety input channel reading a new level for FILT_MS is accepted. -/
  | safeChannelAccept (t : Nat) (c : Fin 33) (chB : Bool) (active : Bool)
  /-- SAFE_EVALUATION (R297): On the 1 ms grid the safety island evaluates every function, trips on demand and
    judges pair currents. -/
  | safeEvaluation (t : Nat)
  /-- PAIR_DROP_TIMEOUT (R295): 8 ms after a trip the pair drops regardless of current. -/
  | pairDropTimeout (t : Nat) (q : Fin 8)
  /-- DISC_FAULT (R298): Channels still disagreeing at E0 + DISC_MS latch a discrepancy fault. -/
  | discFault (t : Nat) (n : Fin 32)
  /-- SAFE_RESET_PULSE_END (R301): The end of a valid reset pulse releases tripped functions, ends connection and
    pair faults, or is ignored. -/
  | safeResetPulseEnd (t : Nat) (pass : Fin 256)
  /-- RST_JAM (R300): A reset channel active for more than 5,000 ms sets JAM and ignores the input. -/
  | rstJam (t : Nat)
  /-- RST_JAM_RELEASE (R300): Both reset channels inactive for 1,000 ms end the jam. -/
  | rstJamRelease (t : Nat)
  /-- ISLAND_FAIL (R293): A lockstep mismatch, watchdog or memory-check failure turns every output switch off and
    latches FAIL. -/
  | islandFail (t : Nat)
  /-- PAIR_READBACK (R304): Every 100 µs the switched nodes of each pair are read back against their commands. -/
  | pairReadback (t : Nat) (h : Fin 256) (l : Fin 256)
  /-- PAIR_FAULT (R304): A readback mismatch in 2 consecutive readings sets the pair FAULT and turns both switches
    off. -/
  | pairFault (t : Nat) (q : Fin 8)
  /-- PAIR_TEST (R305): Every TPER_MS a pair is tested with two pulses, and a failed readback is a fault. -/
  | pairTest (t : Nat) (q : Fin 8) (h : Bool) (l : Bool) (moved : Fin 256)
  /-- SFC_FRAME_RX (R308): A safety-layer frame is checked for length, CRC, WDX and SEQ window, and accepted or
    discarded. -/
  | sfcFrameRx (t : Nat) (k : Fin 12) (f : List Byte)
  /-- SFC_WATCHDOG (R309): The connection watchdog reaching WDX_MS puts it in FAULT, or in FAULT returns READY to 0.
    -/
  | sfcWatchdog (t : Nat) (m : Fin 64)
  /-- SFC_CRC_RATE (R309): 3 CRC failures within 1,000 ms put the connection in FAULT. -/
  | sfcCrcRate (t : Nat) (m : Fin 64)
  /-- SFC_READY (R309): Frames accepted for 2 × WDX_MS in FAULT set READY. -/
  | sfcReady (t : Nat) (m : Fin 64)
  /-- SFC_TX (R310): Every TX_MS the device sends a safety-layer frame on each enabled connection. -/
  | sfcTx (t : Nat) (m : Fin 64)
  /-- SFC_HIN (R310): A host write of SFC_HIN delivers the frame in a connection's IN slot, or is rejected. -/
  | sfcHin (t : Nat) (p : Port) (v : Word)
  /-- SQ_TAIL_WRITE (R314): A host write of OPE_SQ_TAIL submits descriptors, or is rejected with RANGE. -/
  | sqTailWrite (t : Nat) (p : Port) (v : Word)
  /-- INVALID_DESCRIPTOR (R315): An invalid descriptor completes with RANGE once it has a completion credit. -/
  | invalidDescriptor (t : Nat)
  /-- OPERATION_ISSUE (R317): An operation issues once a slot, credit, journal records and any throttle pause allow,
    writing its ISSUE record. -/
  | operationIssue (t : Nat)
  /-- OPERATION_COMPLETE (R319): An operation completes: DONE record, slot freed, completion entry written. -/
  | operationComplete (t : Nat) (slot : Fin 384)
  /-- JOURNAL_RELOCATE (R322): With free records below RELOC, a live record at the tail is copied to the head. -/
  | journalRelocate (t : Nat)
  /-- CONT_CLOSE (R155): ACT operation closing a contactor, subject to its interlocks. -/
  | contClose (t : Nat) (slot : Fin 384)
  /-- CONT_OPEN (R156): ACT operation opening a contactor. -/
  | contOpen (t : Nat) (slot : Fin 384)
  /-- DIS_CLOSE (R122): ACT operation closing a point's discharge switch output. -/
  | disClose (t : Nat) (slot : Fin 384)
  /-- DIS_OPEN (R122): ACT operation opening a point's discharge switch output. -/
  | disOpen (t : Nat) (slot : Fin 384)
  /-- LSW_OFF (R181): ACT operation switching a load-switch channel off. -/
  | lswOff (t : Nat) (slot : Fin 384)
  /-- LSW_ON (R181): ACT operation switching a load-switch channel on steadily. -/
  | lswOn (t : Nat) (slot : Fin 384)
  /-- LSW_PWM (R181): ACT operation switching a load-switch channel on in PWM. -/
  | lswPwm (t : Nat) (slot : Fin 384)
  /-- IO_OUT (R313): ACT operation writing an IO-node output channel. -/
  | ioOut (t : Nat) (slot : Fin 384)
  /-- NVM_WRITE (R313): NVM operation writing the configuration or general MRAM partition. -/
  | nvmWrite (t : Nat) (slot : Fin 384)
  /-- NVM_READ (R313): NVM operation reading the configuration or general MRAM partition. -/
  | nvmRead (t : Nat) (slot : Fin 384)
  /-- TX_VEH (R199): MSG operation sending a frame on a vehicle link. -/
  | txVeh (t : Nat) (slot : Fin 384)
  /-- TX_YARN (R231): MSG operation sending a payload to a Yarn-line peer. -/
  | txYarn (t : Nat) (slot : Fin 384)
  /-- RX_YARN (R231): MSG operation posting a receive for Yarn-line payloads. -/
  | rxYarn (t : Nat) (slot : Fin 384)
  /-- NODE_RD (R143): MSG operation reading a node register. -/
  | nodeRd (t : Nat) (slot : Fin 384)
  /-- NODE_WR (R143): MSG operation writing a node register. -/
  | nodeWr (t : Nat) (slot : Fin 384)
  /-- NODE_ARM (R147): Internal MSG operation writing ARM to a stopped EDGE node. -/
  | nodeArm (t : Nat) (slot : Fin 384)
  /-- MARK_START (R211): Internal MSG operation sending a session start marker. -/
  | markStart (t : Nat) (slot : Fin 384)
  /-- MARK_END (R211): Internal MSG operation sending a session end marker. -/
  | markEnd (t : Nat) (slot : Fin 384)
  /-- CAP_READ (R376): CAP operation copying frozen recorder entries into the shared buffers. -/
  | capRead (t : Nat) (slot : Fin 384)
  /-- CAL_RUN (R313): CAL operation running a calibration. -/
  | calRun (t : Nat) (slot : Fin 384)
  /-- SIGN (R363): Crypto function signing a digest. -/
  | sign (t : Nat) (slot : Fin 384)
  /-- VERIFY (R363): Crypto function verifying a signature. -/
  | verify (t : Nat) (slot : Fin 384)
  /-- ECDH (R363): Crypto function computing an ECDH shared secret. -/
  | ecdh (t : Nat) (slot : Fin 384)
  /-- GENKEY (R363): Crypto function generating a key into a context. -/
  | genkey (t : Nat) (slot : Fin 384)
  /-- LOAD (R360): Crypto function loading a blob into a context. -/
  | load (t : Nat) (slot : Fin 384)
  /-- UNLOAD (R361): Crypto function clearing a context. -/
  | unload (t : Nat) (slot : Fin 384)
  /-- IMPORT (R361): Crypto function opening an import package into a context or slot. -/
  | import (t : Nat) (slot : Fin 384)
  /-- MAC (R363): Crypto function computing an HMAC. -/
  | mac (t : Nat) (slot : Fin 384)
  /-- ENC (R363): Crypto function encrypting with AES-256-GCM. -/
  | enc (t : Nat) (slot : Fin 384)
  /-- DEC (R363): Crypto function decrypting with AES-256-GCM. -/
  | dec (t : Nat) (slot : Fin 384)
  /-- DIGEST (R363): Crypto function computing a digest. -/
  | digest (t : Nat) (slot : Fin 384)
  /-- RANDOM (R363): Crypto function returning random bytes. -/
  | random (t : Nat) (slot : Fin 384)
  /-- SLOT_STORE (R359): Crypto function storing a key into a slot. -/
  | slotStore (t : Nat) (slot : Fin 384)
  /-- SLOT_INVALIDATE (R359): Crypto function invalidating a slot and its descendants. -/
  | slotInvalidate (t : Nat) (slot : Fin 384)
  /-- LC_ADVANCE (R353): Crypto function advancing the lifecycle. -/
  | lcAdvance (t : Nat) (slot : Fin 384)
  /-- GEN_ADVANCE (R357): Crypto function advancing the key generation. -/
  | genAdvance (t : Nat) (slot : Fin 384)
  /-- DEBUG_ARM (R356): Crypto function arming debug for the next cast-on. -/
  | debugArm (t : Nat) (slot : Fin 384)
  /-- IMG_WRITE (R365): Crypto function writing image data into an inactive flash bank. -/
  | imgWrite (t : Nat) (slot : Fin 384)
  /-- IMG_COMMIT (R365): Crypto function checking a written bank and making it TRIAL. -/
  | imgCommit (t : Nat) (slot : Fin 384)
  /-- IMG_CONFIRM (R366): Crypto function confirming the running TRIAL bank. -/
  | imgConfirm (t : Nat) (slot : Fin 384)
  /-- ENTROPY_FAIL (R351): An entropy health-test failure stops the DRBG output. -/
  | entropyFail (t : Nat)
  /-- ENTROPY_RESTART (R351): 1 s after a failure the entropy source restarts with a fresh start-up test. -/
  | entropyRestart (t : Nat)
  /-- KEY_CHALLENGE_NEW (R354): A write of KEY_CHALCMD.NEW draws a new token challenge. -/
  | keyChallengeNew (t : Nat) (p : Port) (v : Word)
  /-- KEY_CHALLENGE_EXPIRY (R354): A token challenge becomes void 60 s after issue. -/
  | keyChallengeExpiry (t : Nat)
  /-- SYS_RESET_REQUEST (R409): A write of the key to RST_REQ requests a SYS reset. -/
  | sysResetRequest (t : Nat) (p : Port) (v : Word)
  /-- RSTN_ASSERT (R409): RSTN held low for 10 µs requests a SYS reset when enabled. -/
  | rstnAssert (t : Nat)
  /-- RUNTIME_WATCHDOG_EXPIRY (R409): The runtime watchdog not serviced within WDT_MS requests a SYS reset. -/
  | runtimeWatchdogExpiry (t : Nat)
  /-- QUIESCE_TIMEOUT (R325): At 2 ms the quiesce window opens remaining pairs and proceeds. -/
  | quiesceTimeout (t : Nat)
  /-- POWER_ON_RESET_RELEASE (R402): 2 ms after every rail of a die's set is valid, its power-on reset is released.
    -/
  | powerOnResetRelease (t : Nat) (die : Die)
  /-- RAIL_INVALID (R402): A rail below its invalid threshold for 10 µs asserts power-on reset. -/
  | railInvalid (t : Nat) (r : Rail)
  /-- L_DIE_CAST_ON (R403): The L-die locks PLL-M, checks its ROM, restores its totals and starts booking. -/
  | lDieCastOn (t : Nat) (rtc : Nat) (retained : Bool) (romOk : Bool)
  /-- CAST_ON_ADVANCE (R404): The boot ROM advances cast-on to its next step once the previous has completed. -/
  | castOnAdvance (t : Nat) (rootFails : Nat) (bad : List Nat)
  /-- BOOT_WATCHDOG (R406): A runtime not BOOTED within 2,000 ms counts as a failed boot. -/
  | bootWatchdog (t : Nat)
  /-- SYS_RELEASE (R407): A write of SYS_CTL.RELEASE releases the device for energising. -/
  | sysRelease (t : Nat) (p : Port) (v : Word)
  /-- REFCLK_LOST (R378): The reference lost switches to the fallback oscillator and starts the clock-loss stop. -/
  | refclkLost (t : Nat)
  /-- REFCLK_VALID (R378): 1 ms of good reference edges makes the reference valid and starts a band search. -/
  | refclkValid (t : Nat)
  /-- PLL_LOCK (R382): A PLL declares lock. -/
  | pllLock (t : Nat) (k : PllId)
  /-- PLL_UNLOCK (R383): A locked PLL declares loss of lock. -/
  | pllUnlock (t : Nat) (k : PllId)
  /-- CLOCK_OUTPUT_RESTART (R387): 100 µs after lock a gated clock output restarts. -/
  | clockOutputRestart (t : Nat) (n : Fin 8)
  /-- PWR_ENTRY_ADVANCE (R393): A power entry passes its next abort point once its step is complete. -/
  | pwrEntryAdvance (t : Nat)
  /-- PWR_QTMO (R393): The quiesce step not reaching AP1 within QTMO_MS undoes the entry. -/
  | pwrQtmo (t : Nat)
  /-- SAFE_PIN_WAKE (R397): An accepted change on a wake-enabled safety input or reset input wakes its domains. -/
  | safePinWake (t : Nat) (fn : Option (Fin 32))
  /-- PCIE_WAKE (R397): PERST# release or electrical-idle exit wakes HIF and its mapped domains. -/
  | pcieWake (t : Nat)
  /-- DOMAIN_WAKE (R397): Woken domains finish returning to ON, with retention checked and WAKE_DONE raised. -/
  | domainWake (t : Nat) (sramBad : Nat) (edramBad : Nat)
  /-- EDRAM_REFRESH (R400): While FRC is in RET, every eDRAM row is refreshed at least every 32 ms. -/
  | edramRefresh (t : Nat)
  /-- PLY_FRAME_RX (R330): An intact Ply frame is accepted from the first link it arrives on. -/
  | plyFrameRx (t : Nat) (link : Fin 2) (ok : Bool) (seq : Nat) (f : PlyFrame)
  /-- HELLO_RX (R331): A HELLO with matching pair settings pairs the unit, or raises PAIR_MISMATCH. -/
  | helloRx (t : Nat) (link : Fin 2) (seq : Nat) (pairid : Nat) (serial : Nat) (mode : Nat) (role : Nat) (pref : Nat) (crc : Nat)
  /-- TIME_RX (R332): A TIME exchange aligns the follower's timebase. -/
  | timeRx (t : Nat) (link : Fin 2) (seq : Nat) (sent : Nat) (echo : Nat) (echoAt : Nat) (row : Nat) (rowAt : Nat)
  /-- SNAP_RX (R335): PLY-A receives PLY-B's snapshot for the joint allocation. -/
  | snapRx (t : Nat) (link : Fin 2) (seq : Nat) (row : Nat) (x : Machine.AlcSnap)
  /-- SNAP_LATE (R335): No SNAP 200 µs after the boundary makes PLY-A use the previous one. -/
  | snapLate (t : Nat)
  /-- ALLOC_RX (R335): PLY-B receives ALLOC for its points and checks it against its shadow. -/
  | allocRx (t : Nat) (link : Fin 2) (seq : Nat) (row : Nat) (res : Machine.AlcRes) (rejoin : Option Nat)
  /-- SPLIT (R336): Ply loss or 8 late rows puts the unit in SPLIT with a share of the grid. -/
  | split (t : Nat)
  /-- MIRROR_RX (R339): The standby receives mirrored state or a commit. -/
  | mirrorRx (t : Nat) (link : Fin 2) (seq : Nat) (m : PlyMirror)
  /-- SKNFWD_RX (R338): The standby resends a forwarded Skein frame from its ring end. -/
  | sknfwdRx (t : Nat) (link : Fin 2) (seq : Nat) (k : Fin 12) (f : List Byte)
  /-- PUBLISH_RX (R341): The standby compares the active's published outputs with its own. -/
  | publishRx (t : Nat) (link : Fin 2) (seq : Nat) (row : Nat) (sets : List Int) (asg : List Nat) (coils : List Nat) (saf : List Nat)
  /-- SELF_CHECK_START (R342): Three consecutive mismatched rows start a self-check on both units. -/
  | selfCheckStart (t : Nat)
  /-- CHECK_RX (R342): A self-check result from the partner decides control per Table PLY-4. -/
  | checkRx (t : Nat) (link : Fin 2) (seq : Nat) (res : Option Bool)
  /-- SELF_CHECK_TIMEOUT (R342): No result from the active within 3 ms lets the standby take over. -/
  | selfCheckTimeout (t : Nat)
  /-- PLY_LOSS (R330): No intact Ply frame for 1 ms is Ply loss, and a silent standby takes over. -/
  | plyLoss (t : Nat)
  /-- SOLO (R343): A Ply-guard unit with no partner sign for 2 s becomes active alone. -/
  | solo (t : Nat)
  /-- TAKE_RX (R345): A TAKE frame names a takeover or return instant. -/
  | takeRx (t : Nat) (link : Fin 2) (seq : Nat) (at_ : Nat) (cause : Nat)
  /-- RETURN_START (R345): The return hold-off expiring starts the preferred unit's return. -/
  | returnStart (t : Nat)
  /-- PLY_SWITCH (R346): PLY_CMD SWITCH starts a planned switchover if the partner is eligible. -/
  | plySwitch (t : Nat) (p : Port) (v : Word)
  /-- MARK_RX (R347): A session marker from the partner is forwarded to the home legal island. -/
  | markRx (t : Nat) (link : Fin 2) (seq : Nat) (start : Bool) (loop : Nat) (gen : Nat) (point : Nat)
  /-- MTRSEC_RX (R348): The partner's per-second metering values are compared with the home unit's. -/
  | mtrsecRx (t : Nat) (link : Fin 2) (seq : Nat) (ps : List Int)
  /-- XCHK_DIFF (R348): A metering difference beyond XCHK_PM for 60 seconds raises XCHK_DIFF. -/
  | xchkDiff (t : Nat) (mp : Fin 36)
  /-- FRC_ARM (R371): A write of ARM starts a new fault-recorder capture. -/
  | frcArm (t : Nat) (p : Port) (v : Word)
  /-- FRC_DISARM (R371): A write of DISARM returns the recorder to IDLE. -/
  | frcDisarm (t : Nat) (p : Port) (v : Word)
  /-- FRC_FIRE (R372): A write of FIRE is a software trigger for the recorder. -/
  | frcFire (t : Nat) (p : Port) (v : Word)
  /-- TRIG_RX (R372): A TRIG frame from the partner arms, disarms or triggers the recorder. -/
  | trigRx (t : Nat) (link : Fin 2) (seq : Nat) (kind : Nat) (src : Nat) (time : Nat) (capid : Nat)
  /-- SKN_SYNC_REGAIN (R126): A Skein receiver regains synchronisation after 3 consecutive error-free IDLE sets,
    setting SKN_LINK.SYNCD. -/
  | sknSyncRegain (t : Nat) (k : Fin 12)
  /-- BLOCK_LOCK_GAINED (R330): A Ply port gains 64b/66b block lock, and after 1 ms held and a HEARTBEAT the link is
    UP. -/
  | blockLockGained (t : Nat) (link : Fin 2)
  /-- BLOCK_LOCK_LOST (R330): A Ply port loses block lock, clearing PLY_LINK.BLOCKLOCK and UP. -/
  | blockLockLost (t : Nat) (link : Fin 2)
  /-- HEARTBEAT_SEND (R330): Every 100 µs each paired unit sends HEARTBEAT on both Ply ports. -/
  | heartbeatSend (t : Nat)
  /-- HELLO_SEND (R331): A unit not in SINGLE sends HELLO every 10 ms until paired, then every 1 s. -/
  | helloSend (t : Nat)
  /-- TIME_SEND (R332): Every 1 ms the time master and the follower send TIME for the timebase exchange. -/
  | timeSend (t : Nat)
  /-- RING_FRAME_RX (R343): A downstream Skein frame from the partner's ring end arrives on a RING_PLY port, setting
    RINGSEEN and possibly making a non-preferred active unit standby. -/
  | ringFrameRx (t : Nat) (k : Fin 12)
  /-- SELF_CHECK_DONE (R342): A unit's own self-check completes, SELFCHK_DONE is raised, and its result is sent in
    CHECK. -/
  | selfCheckDone (t : Nat) (pass : Bool)
  /-- PCIE_LINK_UP (R35): The PCI Express link trains and comes up, setting HIF_LINK.UP, WIDTH and SPEED. -/
  | pcieLinkUp (t : Nat) (width : Nat) (speed : Nat)
  /-- CRYSTAL_RETURN (R277): The RTC crystal oscillator gives edges again and the counter goes back to counting it
    in place of PLL-M seconds. -/
  | crystalReturn (t : Nat)
  /-- BAND_SEARCH_COMPLETE (R381): A PLL's band search ends, closing the loop, or raising BAND_FAIL and repeating up
    to 3 times before FAIL. -/
  | bandSearchComplete (t : Nat) (k : PllId) (band : Nat)
  /-- RSTN_RELEASE (R409): RSTN returns high, letting cast-on proceed after the quiesce window. -/
  | rstnRelease (t : Nat)
  /-- VAUX24_MEASURE (R188): Every 10 µs the device measures VAUX24, updating LSW_VAUX and setting or clearing
    UV_HOLD below or above 9 V. -/
  | vaux24Measure (t : Nat) (mv10 : Nat)
  deriving DecidableEq, Repr

end Sys2Proof
end

