-- ==== Sys2Proof/Machine/Alloc.lean ====
section
/-!
DEFINITION. The allocation algorithm of R62 to R66 on a snapshot: exact integers, divisions truncated (R17).
-/

namespace Sys2Proof.Machine

/-- calc_voltage (R63), mV. -/
def PtIn.volt (x : PtIn) : Nat :=
  let v : Int := match x.vRow with
    | some v => v
    | none => x.veh.vpres
  if v < 100000 then 100000 else v.toNat

/-- A strand's capability term, mA. -/
def StrIn.cap (s : StrIn) (v : Nat) : Nat := min s.imax (s.pmax * 1000000 / v) * s.derate / 1000

/-- cap of a point, mA. -/
def PtIn.cap (x : PtIn) : Nat := (x.strs.map fun s => s.cap x.volt).sum

/-- The parameters of a class. -/
def SiteIn.par (g : SiteIn) (c : Nat) : ClassPar := g.cls.getD c ⟨0, 1, 0xFFFFFFFF⟩

/-- The current terms with their codes (R62, R65), lowest code first. -/
def iTerms (g : SiteIn) (x : PtIn) : List (Nat × Int) :=
  [(1, (x.veh.imax : Int)), (3, (x.imax : Int)), if x.veh.cls ≤ 1 then (4, (x.h10 : Int)) else (5, (x.h60 : Int)),
   (6, (x.cap : Int)), (7, if x.noRise then x.prev else x.prev + (x.ramp * g.rowUs : Nat))] ++
  (match x.cv with
   | some i => [(8, i + (g.cvMargin * 1000 : Nat))]
   | none => [])

/-- The least of the values of coded terms, and its lowest code. -/
def leastTerm : List (Nat × Int) → Nat × Int
  | [] => (0, 0)
  | [t] => t
  | t :: ts => let u := leastTerm ts; if t.2 ≤ u.2 then t else u

/-- A term chosen by value, then by lowest code. -/
def leastCode (ts : List (Nat × Int)) : Nat × Int :=
  let v := (leastTerm ts).2
  let cs := (ts.filter fun t => t.2 = v).map Prod.fst
  (cs.foldl min (cs.headD 0), v)

/-- A point in the passes: its number, class, upper limit with code, wanted guarantee and weight. -/
structure Work where
  ix : Nat
  cls : Nat
  up : Nat
  code : Nat
  a : Nat
  wt : Nat
  cut : Bool := false
  deriving DecidableEq, Repr

/-- The upper limit and wanted guarantee of an allocatable point (R61, R62). -/
def workOf (g : SiteIn) (ix : Nat) (x : PtIn) : Work :=
  let c := g.par x.veh.cls
  let i := leastCode (iTerms g x)
  let pi := i.2.toNat * x.volt / 1000000
  let price : List (Nat × Int) := if c.ceil < g.price then [(9, ((c.guarKw * 1000 : Nat) : Int))] else []
  let p := leastCode ([(2, (x.veh.pmax : Int)), (3, (x.pmax : Int)), (i.1, (pi : Int))] ++ price)
  let up := p.2.toNat
  { ix := ix, cls := x.veh.cls, up := up, code := p.1, a := min (c.guarKw * 1000) up, wt := c.weight }

/-- Pass 1 for one class: the work, what remains, and whether the class was short. -/
def pass1 (c : Nat) (st : List Work × Nat × Bool) : List Work × Nat × Bool :=
  let (ws, rem, short) := st
  let need := ((ws.filter fun w => w.cls = c).map fun w => w.a).sum
  if need ≤ rem then (ws, rem - need, short)
  else
    let ws := ws.map fun w =>
      if w.cls = c then { w with a := w.a * rem / need, cut := decide (w.a * rem / need < w.a) } else w
    (ws, rem - ((ws.filter fun w => w.cls = c).map fun w => w.a).sum, true)

/-- The level at which a point reaches its upper limit. -/
def Work.sat (w : Work) : Nat := (w.up - w.a) / w.wt

/-- Pass 2: the water level; `fuel` is the number of sessions. -/
def waterLevel (ws : List Work) : Nat → Nat → Nat → Nat
  | 0, level, _ => level
  | fuel + 1, level, rem =>
    let open_ := ws.filter fun w => level < w.sat
    let wsum := (open_.map fun w => w.wt).sum
    if wsum = 0 then level
    else
      let nxt := (open_.map Work.sat).foldl min ((open_.map Work.sat).headD 0)
      if wsum * (nxt - level) ≤ rem then waterLevel ws fuel nxt (rem - wsum * (nxt - level)) else level + rem / wsum

/-- dc_budget (R62, R66). -/
def SiteIn.dc (g : SiteIn) : Nat := (g.grid - g.reserve) * g.eff / 10000

/-- The committed allocation of a snapshot (R62, R65, R66). -/
def allocate (g : SiteIn) (pts : List PtIn) : AlcRes :=
  let ws := (pts.zipIdx.filter fun e => e.1.alloc).map fun e => workOf g e.2 e.1
  let (ws, rem, short) := pass1 3 (pass1 2 (pass1 1 (pass1 0 (ws, g.dc, false))))
  let level := if short then 0 else waterLevel ws (ws.length + 1) 0 rem
  let fin := ws.map fun w => if short then w else { w with a := min w.up (w.a + w.wt * level) }
  let res := pts.zipIdx.map fun e =>
    match fin.find? fun w => w.ix = e.2 with
    | some w =>
      let set : Int := ((w.a * 1000000 / e.1.volt : Nat) : Int)
      { set := set, slope := set - e.1.prev, w := w.a, limit := if w.a < w.up then 10 else w.code, shortG := w.cut }
    | none => ({ slope := -e.1.prev } : PtRes)
  { dc := g.dc, total := (fin.map fun w => w.a).sum, level := level, short := short, price := g.price, pts := res }

/-- Change one point of a snapshot. -/
def modPtIn (pts : List PtIn) (p : Nat) (f : PtIn → PtIn) : List PtIn :=
  pts.zipIdx.map fun e => if e.2 = p then f e.1 else e.1

/-- The inputs of a scenario: one premise applied to the snapshot (Table ALC-11). -/
def Premise.apply (pts : List PtIn) : Premise → List PtIn
  | .sesEnd p => modPtIn pts p fun x => { x with alloc := false }
  | .vehReq p v => modPtIn pts p fun x => { x with veh := v }
  | .strRet p s lim | .shed p s lim =>
    modPtIn pts p fun x => { x with strs := x.strs.map fun y => if y.num = s then lim else y }

/-- The type code of a premise. -/
def Premise.typ : Premise → Nat
  | .sesEnd _ => 1
  | .vehReq _ _ => 2
  | .strRet _ _ _ => 3
  | .shed _ _ _ => 4

/-- The point of a premise. -/
def Premise.point : Premise → Nat
  | .sesEnd p | .vehReq p _ | .strRet p _ _ | .shed p _ _ => p

/-- The strand of a premise, 0 where it has none. -/
def Premise.strand : Premise → Nat
  | .strRet _ s _ | .shed _ s _ => s
  | _ => 0

end Sys2Proof.Machine
end

