-- ==== Sys2Proof/Config.lean ====
section
/-!
DEFINITION. The free values of the model (log entry 4). Where the spec leaves a value open and the part goes on, the
value is one of these constants applied to the model's own counter `Dev.freeCnt` (a fresh value each time) or to the
operands the value depends on. None has a body: nothing can be proved about its value.
-/

namespace Sys2Proof.Config

/-- A fresh free natural number; a use that has a bound in the spec takes it inside that bound. -/
opaque freeNat : Nat → Nat

/-- A fresh free word. -/
opaque freeWord : Nat → Word

/-- A fresh free byte string element: draw number and index. -/
opaque freeByte : Nat → Nat → Byte

/-- A cryptographic digest, named by its algorithm: 0 SHA-256, 1 SHA-384, 2 SHA-512 (R363); the spec names the
algorithm only, so the value is the algorithm's and not ours. -/
opaque digest : Nat → List Byte → List Byte

/-- HMAC of a message under a key (R363). -/
opaque hmac : List Byte → List Byte → List Byte

/-- The bytes HKDF derives from a key, a salt and an information string (R350, R357, R363). -/
opaque hkdf : List Byte → List Byte → List Byte → Nat → List Byte

/-- AES-256-GCM: key, nonce, additional data, plain text; the cipher text followed by the tag. -/
opaque gcmEnc : List Byte → List Byte → List Byte → List Byte → List Byte

/-- AES-256-GCM decryption: key, nonce, additional data, cipher text with tag; none when the tag fails. -/
opaque gcmDec : List Byte → List Byte → List Byte → List Byte → Option (List Byte)

/-- ECDSA signature over a digest by a private key, with the draw that made it. -/
opaque ecdsaSign : Nat → List Byte → List Byte → List Byte

/-- Whether an ECDSA signature over a digest verifies under a public key. -/
opaque ecdsaVerify : List Byte → List Byte → List Byte → Bool

/-- The public key of a private key. -/
opaque ecPublic : List Byte → List Byte

/-- The ECDH shared secret of a private key and a peer's public key; none when the point is not on the curve. -/
opaque ecdhSecret : List Byte → List Byte → Option (List Byte)

/-- Ilrov's debug key, Ilrov's image key and the Swatch root, held in the boot ROM (R354, R356, R364): no rule gives
their values. -/
opaque debugKey : List Byte
opaque imageKey : List Byte
opaque swatchRoot : List Byte

/-- The limit, of a full one, that a strand with k of its n phases reports (R75 names it, no rule its figure). -/
opaque shedLimit : Nat → Nat → Nat → Nat

/-- The device's own result for a raw headroom, mA, from the definition's (R172 bounds how far they differ). -/
opaque headroom : Nat → Int

/-- The registers a configuration image sets, by BAR0 address, in the image's order: no rule gives the payload's layout. -/
opaque cfgWords : List Byte → List (Nat × Word)

/-- The public key of role MFR, written at manufacture, and the ROM digest fused into the L-die (R254, R255). -/
opaque mfrKey : List Byte
opaque romDigest : List Byte

end Sys2Proof.Config
end

