-- ==== Sys2Proof/Machine/RegFields.lean ====
section
/-!
DEFINITION. Every register field of the field tables of spec/ under its own name (R11: BLOCK_REGISTER.FIELD),
with the page offset of the register and the bits of the field. An index letter of a register family, or of a field
repeated inside a register, is an argument; where both occur (ALC_STRASG, SAF_PTPAIR, MTR_CHST, ALC_STRCAB) the one
argument counts fields through the registers.
-/

namespace Sys2Proof.Machine

/-! The common page header: Tables DOC-12 and DOC-13. -/

def PID.TAG (t : Tag) : Field := ⟨t, 0x0, 31, 16⟩
def PID.INST (t : Tag) : Field := ⟨t, 0x0, 15, 0⟩
def PCTRL.LOCK (t : Tag) : Field := ⟨t, 0x8, 2, 2⟩
def PCTRL.EN (t : Tag) : Field := ⟨t, 0x8, 0, 0⟩
def PSTAT.BLK (t : Tag) : Field := ⟨t, 0xC, 31, 16⟩
def PSTAT.FAULT (t : Tag) : Field := ⟨t, 0xC, 2, 2⟩
def PSTAT.ACTIVE (t : Tag) : Field := ⟨t, 0xC, 1, 1⟩
def PSTAT.READY (t : Tag) : Field := ⟨t, 0xC, 0, 0⟩
def EVT_RAW.RAW (t : Tag) : Field := ⟨t, 0x10, 31, 0⟩
def EVT_EN.EN (t : Tag) : Field := ⟨t, 0x14, 31, 0⟩
def EVT_PEND.PEND (t : Tag) : Field := ⟨t, 0x18, 31, 0⟩
def STAGE_STAT.COMMITS (t : Tag) : Field := ⟨t, 0x24, 31, 16⟩
def STAGE_STAT.REASON (t : Tag) : Field := ⟨t, 0x24, 15, 8⟩
def STAGE_STAT.STATE (t : Tag) : Field := ⟨t, 0x24, 1, 0⟩
def ERRINFO.COUNT (t : Tag) : Field := ⟨t, 0x28, 31, 24⟩
def ERRINFO.REASON (t : Tag) : Field := ⟨t, 0x28, 23, 16⟩
def ERRINFO.OFFSET (t : Tag) : Field := ⟨t, 0x28, 11, 0⟩
def SEQ.SEQ (t : Tag) : Field := ⟨t, 0x2C, 31, 0⟩

/-! 02_host_interface_and_pages.md, Table HIF-5. -/

def HIF_LINK.UP : Field := ⟨.hif, 0x40, 8, 8⟩
def HIF_LINK.WIDTH : Field := ⟨.hif, 0x40, 7, 4⟩
def HIF_LINK.SPEED : Field := ⟨.hif, 0x40, 3, 0⟩
def HIF_RINGCTL.CQ_MOD : Field := ⟨.hif, 0x44, 15, 8⟩
def HIF_RINGCTL.EQ_EN : Field := ⟨.hif, 0x44, 1, 1⟩
def HIF_RINGCTL.CQ_EN : Field := ⟨.hif, 0x44, 0, 0⟩
def HIF_CQ_BASE_LO.ADDR : Field := ⟨.hif, 0x48, 31, 0⟩
def HIF_CQ_BASE_HI.ADDR : Field := ⟨.hif, 0x4C, 31, 0⟩
def HIF_EQ_BASE_LO.ADDR : Field := ⟨.hif, 0x50, 31, 0⟩
def HIF_EQ_BASE_HI.ADDR : Field := ⟨.hif, 0x54, 31, 0⟩
def HIF_CQ_HEAD.IDX : Field := ⟨.hif, 0x58, 9, 0⟩
def HIF_CQ_TAIL.PHASE : Field := ⟨.hif, 0x5C, 16, 16⟩
def HIF_CQ_TAIL.IDX : Field := ⟨.hif, 0x5C, 9, 0⟩
def HIF_EQ_HEAD.IDX : Field := ⟨.hif, 0x60, 11, 0⟩
def HIF_EQ_TAIL.PHASE : Field := ⟨.hif, 0x64, 16, 16⟩
def HIF_EQ_TAIL.IDX : Field := ⟨.hif, 0x64, 11, 0⟩
def HIF_EQ_LOST.COUNT : Field := ⟨.hif, 0x68, 31, 0⟩
def HIF_MGMT.WAKE_EN : Field := ⟨.hif, 0x6C, 9, 9⟩
def HIF_MGMT.PEC_EN : Field := ⟨.hif, 0x6C, 8, 8⟩
def HIF_MGMT.ADDR : Field := ⟨.hif, 0x6C, 6, 0⟩
def HIF_ABORT_ADDR.ADDR : Field := ⟨.hif, 0x70, 31, 0⟩
def HIF_ABORT_INFO.COUNT : Field := ⟨.hif, 0x74, 15, 8⟩
def HIF_ABORT_INFO.REASON : Field := ⟨.hif, 0x74, 7, 0⟩

/-! 03_tension_allocation.md, Table ALC-9. -/

def ALC_CFG.CV_MARGIN : Field := ⟨.alc, 0x40, 23, 16⟩
def ALC_CFG.MAX_HANDOVER : Field := ⟨.alc, 0x40, 10, 8⟩
def ALC_CFG.CV_RECLAIM : Field := ⟨.alc, 0x40, 1, 1⟩
def ALC_CFG.AUTO_HANDOVER : Field := ⟨.alc, 0x40, 0, 0⟩
def ALC_ROWCFG.NSPEC : Field := ⟨.alc, 0x44, 19, 16⟩
def ALC_ROWCFG.ROW_US : Field := ⟨.alc, 0x44, 13, 0⟩
def ALC_BUDGET.W : Field := ⟨.alc, 0x48, 31, 0⟩
def ALC_RESERVE.W : Field := ⟨.alc, 0x4C, 31, 0⟩
def ALC_EFF.EFF : Field := ⟨.alc, 0x50, 13, 0⟩
def ALC_GRID_FB.W : Field := ⟨.alc, 0x54, 31, 0⟩
def ALC_GRID_TMO.MS : Field := ⟨.alc, 0x58, 15, 0⟩
def ALC_PRICE_DEF.PRICE : Field := ⟨.alc, 0x5C, 31, 0⟩
def ALC_HANDCFG.RAMP_MS : Field := ⟨.alc, 0x60, 7, 0⟩
def ALC_CLASS_A.GUAR_KW (c : Nat) : Field := ⟨.alc, 0x80 + 8 * c, 31, 16⟩
def ALC_CLASS_A.WEIGHT (c : Nat) : Field := ⟨.alc, 0x80 + 8 * c, 7, 0⟩
def ALC_CLASS_CEIL.CEIL (c : Nat) : Field := ⟨.alc, 0x84 + 8 * c, 31, 0⟩
def ALC_CAB.T_ZERO (n : Nat) : Field := ⟨.alc, 0xC0 + 4 * n, 31, 16⟩
def ALC_CAB.T_START (n : Nat) : Field := ⟨.alc, 0xC0 + 4 * n, 15, 0⟩
def ALC_CABSRC.STALE_PCT (n : Nat) : Field := ⟨.alc, 0x100 + 4 * n, 15, 8⟩
def ALC_CABSRC.EN (n : Nat) : Field := ⟨.alc, 0x100 + 4 * n, 7, 7⟩
def ALC_CABSRC.CH (n : Nat) : Field := ⟨.alc, 0x100 + 4 * n, 5, 0⟩
def ALC_STRCAB.CAB (i : Nat) : Field := ⟨.alc, 0x140 + 4 * (i / 8), 4 * (i % 8) + 3, 4 * (i % 8) + 0⟩
def ALC_PTCFG.MAXSTR (n : Nat) : Field := ⟨.alc, 0x160 + 4 * n, 19, 16⟩
def ALC_PTCFG.RAMP_UP (n : Nat) : Field := ⟨.alc, 0x160 + 4 * n, 15, 0⟩
def ALC_GRID.W : Field := ⟨.alc, 0x440, 31, 0⟩
def ALC_GRID_AGE.MS : Field := ⟨.alc, 0x444, 31, 0⟩
def ALC_STAT.CALC_US : Field := ⟨.alc, 0x448, 31, 16⟩
def ALC_STAT.STALL : Field := ⟨.alc, 0x448, 4, 4⟩
def ALC_STAT.OVERRUN : Field := ⟨.alc, 0x448, 3, 3⟩
def ALC_STAT.SHORT : Field := ⟨.alc, 0x448, 2, 2⟩
def ALC_STAT.GRID_FB : Field := ⟨.alc, 0x448, 1, 1⟩
def ALC_STAT.PRICE_STALE : Field := ⟨.alc, 0x448, 0, 0⟩
def ALC_ROWCNT.ROWS : Field := ⟨.alc, 0x44C, 31, 0⟩
def ALC_DCBUDGET.W : Field := ⟨.alc, 0x450, 31, 0⟩
def ALC_ALLOCATED.W : Field := ⟨.alc, 0x454, 31, 0⟩
def ALC_LEVEL.W : Field := ⟨.alc, 0x458, 31, 0⟩
def ALC_PRICE.PRICE : Field := ⟨.alc, 0x45C, 31, 0⟩
def ALC_HANDOVER.GO : Field := ⟨.alc, 0x460, 31, 31⟩
def ALC_HANDOVER.ACK : Field := ⟨.alc, 0x460, 23, 20⟩
def ALC_HANDOVER.STRAND : Field := ⟨.alc, 0x460, 13, 8⟩
def ALC_HANDOVER.TO : Field := ⟨.alc, 0x460, 4, 0⟩
def ALC_HANDSTAT.STATE (h : Nat) : Field := ⟨.alc, 0x464 + 4 * h, 31, 28⟩
def ALC_HANDSTAT.CAUSE (h : Nat) : Field := ⟨.alc, 0x464 + 4 * h, 27, 24⟩
def ALC_HANDSTAT.FROM (h : Nat) : Field := ⟨.alc, 0x464 + 4 * h, 20, 16⟩
def ALC_HANDSTAT.STRAND (h : Nat) : Field := ⟨.alc, 0x464 + 4 * h, 13, 8⟩
def ALC_HANDSTAT.TO (h : Nat) : Field := ⟨.alc, 0x464 + 4 * h, 4, 0⟩
def ALC_STRASG.STATE (i : Nat) : Field := ⟨.alc, 0x480 + 4 * (i / 4), 8 * (i % 4) + 7, 8 * (i % 4) + 5⟩
def ALC_STRASG.POINT (i : Nat) : Field := ⟨.alc, 0x480 + 4 * (i / 4), 8 * (i % 4) + 4, 8 * (i % 4) + 0⟩
def ALC_PTSET.MA (n : Nat) : Field := ⟨.alc, 0x500 + 4 * n, 31, 0⟩
def ALC_PTINFO.LIMIT (n : Nat) : Field := ⟨.alc, 0x580 + 4 * n, 31, 28⟩
def ALC_PTINFO.NSTR (n : Nat) : Field := ⟨.alc, 0x580 + 4 * n, 27, 24⟩
def ALC_PTINFO.CLASS (n : Nat) : Field := ⟨.alc, 0x580 + 4 * n, 23, 22⟩
def ALC_PTINFO.SHORT_G (n : Nat) : Field := ⟨.alc, 0x580 + 4 * n, 21, 21⟩
def ALC_PTINFO.KW (n : Nat) : Field := ⟨.alc, 0x580 + 4 * n, 15, 0⟩

/-! 04_speculation_and_visibility.md, Table ALC-13. -/

def ALC_SPEC_TAG.STATE (s : Nat) : Field := ⟨.alc, 0xC00 + 0xA0 * s, 31, 28⟩
def ALC_SPEC_TAG.DREASON (s : Nat) : Field := ⟨.alc, 0xC00 + 0xA0 * s, 27, 24⟩
def ALC_SPEC_TAG.TYPE (s : Nat) : Field := ⟨.alc, 0xC00 + 0xA0 * s, 23, 20⟩
def ALC_SPEC_TAG.STRAND (s : Nat) : Field := ⟨.alc, 0xC00 + 0xA0 * s, 13, 8⟩
def ALC_SPEC_TAG.POINT (s : Nat) : Field := ⟨.alc, 0xC00 + 0xA0 * s, 4, 0⟩
def ALC_SPEC_ROW.ROW (s : Nat) : Field := ⟨.alc, 0xC04 + 0xA0 * s, 31, 0⟩
def ALC_SPEC_DCBUDGET.W (s : Nat) : Field := ⟨.alc, 0xC08 + 0xA0 * s, 31, 0⟩
def ALC_SPEC_ALLOCATED.W (s : Nat) : Field := ⟨.alc, 0xC0C + 0xA0 * s, 31, 0⟩
def ALC_SPEC_LEVEL.W (s : Nat) : Field := ⟨.alc, 0xC10 + 0xA0 * s, 31, 0⟩
def ALC_SPEC_SEQ.SEQ (s : Nat) : Field := ⟨.alc, 0xC14 + 0xA0 * s, 31, 0⟩
def ALC_SPEC_SET.MA (s n : Nat) : Field := ⟨.alc, 0xC20 + 0xA0 * s + 4 * n, 31, 0⟩
def ALC_SPEC_HIT.COUNT : Field := ⟨.alc, 0xF00, 31, 0⟩
def ALC_SPEC_DISC.COUNT : Field := ⟨.alc, 0xF04, 31, 0⟩
def ALC_SPEC_DRSN.COUNT (r : Nat) : Field := ⟨.alc, 0xF08 + 4 * (r - 1), 31, 0⟩
def ALC_SPEC_HITTYP.COUNT (t : Nat) : Field := ⟨.alc, 0xF20 + 4 * (t - 1), 31, 0⟩
def ALC_SPEC_LAST.VALID : Field := ⟨.alc, 0xF40, 31, 31⟩
def ALC_SPEC_LAST.TYPE : Field := ⟨.alc, 0xF40, 23, 20⟩
def ALC_SPEC_LAST.SCN : Field := ⟨.alc, 0xF40, 17, 16⟩
def ALC_SPEC_LASTROW.ROW : Field := ⟨.alc, 0xF44, 31, 0⟩

/-! 04_speculation_and_visibility.md, Table STR-1. -/

def STR_SPEC_TAG.STATE : Field := ⟨.str, 0xC00, 31, 28⟩
def STR_SPEC_TAG.DREASON : Field := ⟨.str, 0xC00, 27, 24⟩
def STR_SPEC_TAG.PHASE : Field := ⟨.str, 0xC00, 10, 8⟩
def STR_SPEC_TAG.NACT : Field := ⟨.str, 0xC00, 3, 0⟩
def STR_SPEC_SAMPLE.SAMPLE : Field := ⟨.str, 0xC04, 31, 0⟩
def STR_SPEC_DUTY.ONTIME : Field := ⟨.str, 0xC08, 31, 0⟩
def STR_SPEC_TRIM.TRIM (p : Nat) : Field := ⟨.str, 0xC10 + 4 * p, 15, 0⟩
def STR_SPEC_SEQ.SEQ : Field := ⟨.str, 0xC30, 31, 0⟩
def STR_SPEC_HIT.COUNT : Field := ⟨.str, 0xC40, 31, 0⟩
def STR_SPEC_DISC.COUNT : Field := ⟨.str, 0xC44, 31, 0⟩

/-! 05_strand_control_law.md, Table CLE-3. -/

def CLE_CFG.MISS_LIMIT : Field := ⟨.cle, 0x40, 11, 8⟩
def CLE_CFG.TLM_DL : Field := ⟨.cle, 0x40, 7, 0⟩
def CLE_LOAD.UPD : Field := ⟨.cle, 0x440, 31, 0⟩
def CLE_MISS.COUNT : Field := ⟨.cle, 0x444, 31, 0⟩
def CLE_PEAK.PCT : Field := ⟨.cle, 0x448, 7, 0⟩

/-! 05_strand_control_law.md, Table STR-4. -/

def STR_CFG.BIDIR : Field := ⟨.str, 0x40, 5, 5⟩
def STR_CFG.CSAMP : Field := ⟨.str, 0x40, 4, 4⟩
def STR_CFG.NPH : Field := ⟨.str, 0x40, 3, 0⟩
def STR_CARRIER.PERIOD : Field := ⟨.str, 0x44, 17, 0⟩
def STR_LOOPCFG.BANKSEL : Field := ⟨.str, 0x48, 0, 0⟩
def STR_IMAX.MA : Field := ⟨.str, 0x4C, 31, 0⟩
def STR_PMAX.W : Field := ⟨.str, 0x50, 31, 0⟩
def STR_DMAX.D : Field := ⟨.str, 0x54, 31, 0⟩
def STR_DMIN.D : Field := ⟨.str, 0x58, 31, 0⟩
def STR_TRIMLIM.SHARE_TRIM : Field := ⟨.str, 0x5C, 31, 16⟩
def STR_TRIMLIM.PHASE_TRIM : Field := ⟨.str, 0x5C, 15, 0⟩
def STR_VBUSMIN.MV : Field := ⟨.str, 0x60, 31, 0⟩
def STR_IPHTRIP.I : Field := ⟨.str, 0x64, 14, 0⟩
def STR_TLMSRC.PORT : Field := ⟨.str, 0x68, 11, 8⟩
def STR_TLMSRC.NODE : Field := ⟨.str, 0x68, 2, 0⟩
def STR_SH_KP.K (b : Nat) : Field := ⟨.str, 0x80 + 0x40 * b, 31, 0⟩
def STR_SH_KI.K (b : Nat) : Field := ⟨.str, 0x84 + 0x40 * b, 31, 0⟩
def STR_SH_KDA.K (b : Nat) : Field := ⟨.str, 0x88 + 0x40 * b, 31, 0⟩
def STR_SH_KDB.K (b : Nat) : Field := ⟨.str, 0x8C + 0x40 * b, 31, 0⟩
def STR_PH_KP.K (b : Nat) : Field := ⟨.str, 0x90 + 0x40 * b, 31, 0⟩
def STR_PH_KI.K (b : Nat) : Field := ⟨.str, 0x94 + 0x40 * b, 31, 0⟩
def STR_PH_KDA.K (b : Nat) : Field := ⟨.str, 0x98 + 0x40 * b, 31, 0⟩
def STR_PH_KDB.K (b : Nat) : Field := ⟨.str, 0x9C + 0x40 * b, 31, 0⟩
def STR_KFFV.K (b : Nat) : Field := ⟨.str, 0xA0 + 0x40 * b, 31, 0⟩
def STR_KFFS.K (b : Nat) : Field := ⟨.str, 0xA4 + 0x40 * b, 31, 0⟩
def STR_ESHIFT.FFS_ESHIFT (b : Nat) : Field := ⟨.str, 0xA8 + 0x40 * b, 20, 16⟩
def STR_ESHIFT.PH_ESHIFT (b : Nat) : Field := ⟨.str, 0xA8 + 0x40 * b, 12, 8⟩
def STR_ESHIFT.SH_ESHIFT (b : Nat) : Field := ⟨.str, 0xA8 + 0x40 * b, 4, 0⟩
def STR_STAT.STATE : Field := ⟨.str, 0x440, 31, 28⟩
def STR_STAT.BANK : Field := ⟨.str, 0x440, 8, 8⟩
def STR_STAT.NACT : Field := ⟨.str, 0x440, 7, 4⟩
def STR_STAT.LEAD : Field := ⟨.str, 0x440, 0, 0⟩
def STR_FAULT.CODE : Field := ⟨.str, 0x444, 7, 0⟩
def STR_FAULTCLR.CODE : Field := ⟨.str, 0x448, 7, 0⟩
def STR_IMEAS.MA : Field := ⟨.str, 0x44C, 31, 0⟩
def STR_VBUS.MV : Field := ⟨.str, 0x450, 31, 0⟩
def STR_DUTY.ONTIME : Field := ⟨.str, 0x454, 31, 0⟩
def STR_SAMPLES.COUNT : Field := ⟨.str, 0x458, 31, 0⟩
def STR_MISS.COUNT : Field := ⟨.str, 0x45C, 31, 0⟩
def STR_SHARE.S : Field := ⟨.str, 0x460, 31, 0⟩
def STR_IPH.I (p : Nat) : Field := ⟨.str, 0x480 + 4 * p, 15, 0⟩
def STR_TRIM.TRIM (p : Nat) : Field := ⟨.str, 0x4A0 + 4 * p, 15, 0⟩

/-! 05_strand_control_law.md, Table OUT-2. -/

def OUT_LOOPCFG.BANKSEL : Field := ⟨.out, 0x300, 0, 0⟩
def OUT_SLEW.DN : Field := ⟨.out, 0x304, 31, 16⟩
def OUT_SLEW.UP : Field := ⟨.out, 0x304, 15, 0⟩
def OUT_OLUMAX.U : Field := ⟨.out, 0x308, 31, 0⟩
def OUT_OLUMIN.U : Field := ⟨.out, 0x30C, 31, 0⟩
def OUT_CI_KP.K (b : Nat) : Field := ⟨.out, 0x310 + 0x40 * b, 31, 0⟩
def OUT_CI_KI.K (b : Nat) : Field := ⟨.out, 0x314 + 0x40 * b, 31, 0⟩
def OUT_CI_KDA.K (b : Nat) : Field := ⟨.out, 0x318 + 0x40 * b, 31, 0⟩
def OUT_CI_KDB.K (b : Nat) : Field := ⟨.out, 0x31C + 0x40 * b, 31, 0⟩
def OUT_CV_KP.K (b : Nat) : Field := ⟨.out, 0x320 + 0x40 * b, 31, 0⟩
def OUT_CV_KI.K (b : Nat) : Field := ⟨.out, 0x324 + 0x40 * b, 31, 0⟩
def OUT_CV_KDA.K (b : Nat) : Field := ⟨.out, 0x328 + 0x40 * b, 31, 0⟩
def OUT_CV_KDB.K (b : Nat) : Field := ⟨.out, 0x32C + 0x40 * b, 31, 0⟩
def OUT_ESHIFT.CV_ESHIFT (b : Nat) : Field := ⟨.out, 0x330 + 0x40 * b, 12, 8⟩
def OUT_ESHIFT.CI_ESHIFT (b : Nat) : Field := ⟨.out, 0x330 + 0x40 * b, 4, 0⟩
def OUT_LOOPSTAT.LEAD : Field := ⟨.out, 0x700, 20, 16⟩
def OUT_LOOPSTAT.OL_RATE : Field := ⟨.out, 0x700, 12, 12⟩
def OUT_LOOPSTAT.BANK : Field := ⟨.out, 0x700, 8, 8⟩
def OUT_LOOPSTAT.ROWMODE : Field := ⟨.out, 0x700, 5, 4⟩
def OUT_LOOPSTAT.MODE : Field := ⟨.out, 0x700, 1, 0⟩
def OUT_REF.MA : Field := ⟨.out, 0x704, 31, 0⟩
def OUT_IMEAS.MA : Field := ⟨.out, 0x708, 31, 0⟩
def OUT_VMEAS.MV : Field := ⟨.out, 0x70C, 31, 0⟩
def OUT_IROW.MA : Field := ⟨.out, 0x710, 31, 0⟩
def OUT_VROW.MV : Field := ⟨.out, 0x714, 31, 0⟩
def OUT_I2ROW.A2 : Field := ⟨.out, 0x718, 31, 0⟩

/-! 05_strand_control_law.md, Table AUX-1. -/

def AUX_CFG.SRCTYPE : Field := ⟨.aux, 0x40, 16, 16⟩
def AUX_CFG.SRC : Field := ⟨.aux, 0x40, 13, 8⟩
def AUX_CFG.BANKSEL : Field := ⟨.aux, 0x40, 1, 1⟩
def AUX_CFG.DIR : Field := ⟨.aux, 0x40, 0, 0⟩
def AUX_SRCNODE.CH : Field := ⟨.aux, 0x44, 23, 16⟩
def AUX_SRCNODE.PORT : Field := ⟨.aux, 0x44, 11, 8⟩
def AUX_SRCNODE.NODE : Field := ⟨.aux, 0x44, 2, 0⟩
def AUX_OUT.TYPE : Field := ⟨.aux, 0x48, 31, 31⟩
def AUX_OUT.CH : Field := ⟨.aux, 0x48, 23, 16⟩
def AUX_OUT.NODE : Field := ⟨.aux, 0x48, 14, 12⟩
def AUX_OUT.PORT : Field := ⟨.aux, 0x48, 11, 8⟩
def AUX_OUT.LSW : Field := ⟨.aux, 0x48, 4, 0⟩
def AUX_UMAX.U : Field := ⟨.aux, 0x4C, 31, 0⟩
def AUX_UMIN.U : Field := ⟨.aux, 0x50, 31, 0⟩
def AUX_FAILSAFE.U : Field := ⟨.aux, 0x54, 31, 0⟩
def AUX_KP.K (b : Nat) : Field := ⟨.aux, 0x60 + 0x20 * b, 31, 0⟩
def AUX_KI.K (b : Nat) : Field := ⟨.aux, 0x64 + 0x20 * b, 31, 0⟩
def AUX_KDA.K (b : Nat) : Field := ⟨.aux, 0x68 + 0x20 * b, 31, 0⟩
def AUX_KDB.K (b : Nat) : Field := ⟨.aux, 0x6C + 0x20 * b, 31, 0⟩
def AUX_ESHIFT.ESHIFT (b : Nat) : Field := ⟨.aux, 0x70 + 0x20 * b, 4, 0⟩
def AUX_SETP.SETP : Field := ⟨.aux, 0x440, 31, 0⟩
def AUX_STAT.BANK : Field := ⟨.aux, 0x444, 3, 3⟩
def AUX_STAT.OUT_BLOCKED : Field := ⟨.aux, 0x444, 2, 2⟩
def AUX_STAT.SAT : Field := ⟨.aux, 0x444, 1, 1⟩
def AUX_STAT.SRC_BAD : Field := ⟨.aux, 0x444, 0, 0⟩
def AUX_U.U : Field := ⟨.aux, 0x448, 31, 0⟩
def AUX_MEAS.MEAS : Field := ⟨.aux, 0x44C, 31, 0⟩

/-! 06_multiphase_and_start_stop.md, Table STR-9. -/

def STR_ORDER.SLOT (i : Nat) : Field := ⟨.str, 0x100, 4 * i + 2, 4 * i + 0⟩
def STR_MINPULSE.MINOFF : Field := ⟨.str, 0x104, 31, 16⟩
def STR_MINPULSE.MINON : Field := ⟨.str, 0x104, 15, 0⟩
def STR_BALCFG.INV_LIMIT : Field := ⟨.str, 0x108, 15, 8⟩
def STR_BALCFG.FBK_EXIT : Field := ⟨.str, 0x108, 7, 0⟩
def STR_SHEDCFG.EN : Field := ⟨.str, 0x10C, 31, 31⟩
def STR_SHEDCFG.NMIN : Field := ⟨.str, 0x10C, 19, 16⟩
def STR_SHEDCFG.HOLD_US : Field := ⟨.str, 0x10C, 15, 0⟩
def STR_STEP.LOCK_MS : Field := ⟨.str, 0x110, 31, 16⟩
def STR_STEP.TH : Field := ⟨.str, 0x110, 15, 0⟩
def STR_SHED.HYS (k : Nat) : Field := ⟨.str, 0x114 + 4 * (k - 2), 31, 16⟩
def STR_SHED.TH (k : Nat) : Field := ⟨.str, 0x114 + 4 * (k - 2), 15, 0⟩
def STR_RESTART.N : Field := ⟨.str, 0x130, 23, 16⟩
def STR_RESTART.TMO_MS : Field := ⟨.str, 0x130, 15, 0⟩
def STR_MPSTAT.ROT : Field := ⟨.str, 0x4C0, 26, 24⟩
def STR_MPSTAT.FBK : Field := ⟨.str, 0x4C0, 20, 20⟩
def STR_MPSTAT.LOCKOUT : Field := ⟨.str, 0x4C0, 16, 16⟩
def STR_MPSTAT.SHED : Field := ⟨.str, 0x4C0, 15, 8⟩
def STR_MPSTAT.INV : Field := ⟨.str, 0x4C0, 7, 0⟩
def STR_SHEDCNT.COUNT : Field := ⟨.str, 0x4C4, 31, 0⟩
def STR_STEPCNT.COUNT : Field := ⟨.str, 0x4C8, 31, 0⟩
def STR_FBKCNT.COUNT : Field := ⟨.str, 0x4CC, 31, 0⟩

/-! 06_multiphase_and_start_stop.md, Table OUT-7. -/

def OUT_PBCFG.TMO_MS : Field := ⟨.out, 0x380, 31, 16⟩
def OUT_PBCFG.TOL_V : Field := ⟨.out, 0x380, 15, 8⟩
def OUT_PBCFG.IMAX_A : Field := ⟨.out, 0x380, 7, 0⟩
def OUT_SSCFG.SHORT_MS : Field := ⟨.out, 0x384, 31, 24⟩
def OUT_SSCFG.RAMP_MS : Field := ⟨.out, 0x384, 15, 0⟩
def OUT_BOCFG.TMO_MS : Field := ⟨.out, 0x388, 31, 16⟩
def OUT_BOCFG.RAMP : Field := ⟨.out, 0x388, 15, 0⟩
def OUT_BOEND.VEHWAIT_MS : Field := ⟨.out, 0x38C, 31, 16⟩
def OUT_BOEND.IEND_A : Field := ⟨.out, 0x38C, 15, 0⟩
def OUT_DISCFG.METHOD : Field := ⟨.out, 0x390, 31, 31⟩
def OUT_DISCFG.TARGET_MS : Field := ⟨.out, 0x390, 25, 16⟩
def OUT_DISCFG.VEND_V : Field := ⟨.out, 0x390, 15, 8⟩
def OUT_DISCFG.IMAX_A : Field := ⟨.out, 0x390, 7, 0⟩
def OUT_DISSW.CH : Field := ⟨.out, 0x394, 23, 16⟩
def OUT_DISSW.PORT : Field := ⟨.out, 0x394, 11, 8⟩
def OUT_DISSW.NODE : Field := ⟨.out, 0x394, 2, 0⟩
def OUT_RUNSTAT.STATE : Field := ⟨.out, 0x720, 31, 28⟩
def OUT_RUNSTAT.FAULT : Field := ⟨.out, 0x720, 3, 0⟩
def OUT_RUNCLR.CODE : Field := ⟨.out, 0x724, 3, 0⟩
def OUT_DISTIME.V : Field := ⟨.out, 0x728, 31, 16⟩
def OUT_DISTIME.MS : Field := ⟨.out, 0x728, 15, 0⟩

/-! 07_skein_link.md, Table SKN-9. -/

def SKN_CFG.WAKE : Field := ⟨.skn, 0x40, 17, 16⟩
def SKN_CFG.PARTNER : Field := ⟨.skn, 0x40, 11, 8⟩
def SKN_CFG.TOPO : Field := ⟨.skn, 0x40, 1, 0⟩
def SKN_SYNC.PERIOD_US : Field := ⟨.skn, 0x44, 15, 0⟩
def SKN_IOCFG.CYC_US : Field := ⟨.skn, 0x48, 31, 16⟩
def SKN_IOCFG.RETRY : Field := ⟨.skn, 0x48, 14, 12⟩
def SKN_IOCFG.TMO_US : Field := ⟨.skn, 0x48, 11, 0⟩
def SKN_STATCFG.PERIOD_MS : Field := ⟨.skn, 0x4C, 7, 0⟩
def SKN_EXPECT.POS (i : Nat) : Field := ⟨.skn, 0x50, 4 * i + 3, 4 * i + 0⟩
def SKN_LINK.NNODES : Field := ⟨.skn, 0x440, 19, 16⟩
def SKN_LINK.RINGOK : Field := ⟨.skn, 0x440, 2, 2⟩
def SKN_LINK.SYNCD : Field := ⟨.skn, 0x440, 1, 1⟩
def SKN_LINK.UP : Field := ⟨.skn, 0x440, 0, 0⟩
def SKN_NODES.POS (i : Nat) : Field := ⟨.skn, 0x444, 4 * i + 3, 4 * i + 0⟩
def SKN_LOAD.W_NS : Field := ⟨.skn, 0x448, 31, 16⟩
def SKN_LOAD.U_NS : Field := ⟨.skn, 0x448, 15, 0⟩
def SKN_CRCERR.COUNT : Field := ⟨.skn, 0x44C, 31, 0⟩
def SKN_STX.COUNT : Field := ⟨.skn, 0x450, 31, 0⟩
def SKN_IORETRY.COUNT : Field := ⟨.skn, 0x454, 31, 0⟩
def SKN_IOFAIL.COUNT : Field := ⟨.skn, 0x458, 31, 0⟩
def SKN_WAKE.CAUSE : Field := ⟨.skn, 0x45C, 1, 0⟩
def SKN_LAT.LAT (k : Nat) : Field := ⟨.skn, 0x460 + 4 * k, 31, 0⟩
def SKN_NSTAT.DROPS (k : Nat) : Field := ⟨.skn, 0x480 + 4 * k, 31, 16⟩
def SKN_NSTAT.STATE (k : Nat) : Field := ⟨.skn, 0x480 + 4 * k, 7, 4⟩
def SKN_NSTAT.ALIGNED (k : Nat) : Field := ⟨.skn, 0x480 + 4 * k, 1, 1⟩
def SKN_NSTAT.LOST (k : Nat) : Field := ⟨.skn, 0x480 + 4 * k, 0, 0⟩

/-! 08_outputs_and_contactors.md, Table OUT-11. -/

def OUT_CFG.TYPE : Field := ⟨.out, 0x40, 0, 0⟩
def OUT_IMAX.MA : Field := ⟨.out, 0x44, 31, 0⟩
def OUT_VMAX.MV : Field := ⟨.out, 0x48, 31, 0⟩
def OUT_PMAX.W : Field := ⟨.out, 0x4C, 31, 0⟩
def OUT_IOSRC.CHBASE : Field := ⟨.out, 0x50, 23, 16⟩
def OUT_IOSRC.PORT : Field := ⟨.out, 0x50, 11, 8⟩
def OUT_IOSRC.NODE : Field := ⟨.out, 0x50, 2, 0⟩
def OUT_ISOCFG.WARN_OPV : Field := ⟨.out, 0x54, 31, 16⟩
def OUT_ISOCFG.FAULT_OPV : Field := ⟨.out, 0x54, 15, 0⟩
def OUT_ISOTIME.MS : Field := ⟨.out, 0x58, 15, 0⟩
def OUT_WELDCFG.MINV_V : Field := ⟨.out, 0x5C, 15, 8⟩
def OUT_WELDCFG.TOL_V : Field := ⟨.out, 0x5C, 7, 0⟩
def OUT_RISO.OHM : Field := ⟨.out, 0x440, 31, 0⟩
def OUT_ISOSTAT.STALE : Field := ⟨.out, 0x444, 2, 2⟩
def OUT_ISOSTAT.FAULT : Field := ⟨.out, 0x444, 1, 1⟩
def OUT_ISOSTAT.WARN : Field := ⟨.out, 0x444, 0, 0⟩
def OUT_WELDSTAT.WHEN : Field := ⟨.out, 0x448, 9, 8⟩
def OUT_WELDSTAT.NEG : Field := ⟨.out, 0x448, 3, 2⟩
def OUT_WELDSTAT.POS : Field := ⟨.out, 0x448, 1, 0⟩
def OUT_CONTSTAT.NEG : Field := ⟨.out, 0x44C, 1, 1⟩
def OUT_CONTSTAT.POS : Field := ⟨.out, 0x44C, 0, 0⟩

/-! 08_outputs_and_contactors.md, Table CTM-3. -/

def CTM_CONT_A.EN (n : Nat) : Field := ⟨.ctm, 0x40 + 8 * n, 31, 31⟩
def CTM_CONT_A.ROLE (n : Nat) : Field := ⟨.ctm, 0x40 + 8 * n, 29, 28⟩
def CTM_CONT_A.POLE (n : Nat) : Field := ⟨.ctm, 0x40 + 8 * n, 25, 24⟩
def CTM_CONT_A.POINT (n : Nat) : Field := ⟨.ctm, 0x40 + 8 * n, 20, 16⟩
def CTM_CONT_A.STRAND (n : Nat) : Field := ⟨.ctm, 0x40 + 8 * n, 13, 8⟩
def CTM_CONT_A.AUXINV (n : Nat) : Field := ⟨.ctm, 0x40 + 8 * n, 7, 7⟩
def CTM_CONT_A.NODE (n : Nat) : Field := ⟨.ctm, 0x40 + 8 * n, 6, 4⟩
def CTM_CONT_A.PORT (n : Nat) : Field := ⟨.ctm, 0x40 + 8 * n, 3, 0⟩
def CTM_CONT_B.COIL (n : Nat) : Field := ⟨.ctm, 0x44 + 8 * n, 31, 24⟩
def CTM_CONT_B.AUX (n : Nat) : Field := ⟨.ctm, 0x44 + 8 * n, 23, 16⟩
def CTM_CONT_B.CLOSE_MS (n : Nat) : Field := ⟨.ctm, 0x44 + 8 * n, 15, 8⟩
def CTM_CONT_B.OPEN_MS (n : Nat) : Field := ⟨.ctm, 0x44 + 8 * n, 7, 0⟩
def CTM_CFG.AUXDEB : Field := ⟨.ctm, 0x240, 3, 0⟩
def CTM_STAT.STATE (n : Nat) : Field := ⟨.ctm, 0x440 + 4 * n, 31, 28⟩
def CTM_STAT.AUX (n : Nat) : Field := ⟨.ctm, 0x440 + 4 * n, 8, 8⟩
def CTM_STAT.STALE (n : Nat) : Field := ⟨.ctm, 0x440 + 4 * n, 4, 4⟩
def CTM_STAT.CMD (n : Nat) : Field := ⟨.ctm, 0x440 + 4 * n, 0, 0⟩
def CTM_CLOSES.COUNT : Field := ⟨.ctm, 0x540, 31, 0⟩
def CTM_OPENS.COUNT : Field := ⟨.ctm, 0x544, 31, 0⟩

/-! 09_cable_thermal.md, Table THM-1. -/

def THM_CFG.HWPT : Field := ⟨.thm, 0x40, 12, 8⟩
def THM_CFG.HWEN : Field := ⟨.thm, 0x40, 4, 4⟩
def THM_CFG.MODE : Field := ⟨.thm, 0x40, 1, 0⟩
def THM_DIODE.RSER : Field := ⟨.thm, 0x44, 31, 16⟩
def THM_DIODE.IDEAL : Field := ⟨.thm, 0x44, 15, 0⟩
def THM_NTC_RNOM.OHM : Field := ⟨.thm, 0x48, 31, 0⟩
def THM_NTC_B.K : Field := ⟨.thm, 0x4C, 15, 0⟩
def THM_RBIAS.OHM : Field := ⟨.thm, 0x50, 31, 0⟩
def THM_OFS.OFS : Field := ⟨.thm, 0x54, 15, 0⟩
def THM_HWTRIP.REL : Field := ⟨.thm, 0x58, 31, 16⟩
def THM_HWTRIP.TRIP : Field := ⟨.thm, 0x58, 15, 0⟩
def THM_HWCOOL.COOL_S : Field := ⟨.thm, 0x5C, 15, 0⟩
def THM_TEMP.VALID : Field := ⟨.thm, 0x440, 31, 31⟩
def THM_TEMP.T : Field := ⟨.thm, 0x440, 15, 0⟩
def THM_STAT.COOL_LEFT : Field := ⟨.thm, 0x444, 31, 16⟩
def THM_STAT.BROKEN : Field := ⟨.thm, 0x444, 9, 8⟩
def THM_STAT.HWTRIP : Field := ⟨.thm, 0x444, 4, 4⟩
def THM_RAW.RAW : Field := ⟨.thm, 0x448, 31, 0⟩
def THM_CONV.COUNT : Field := ⟨.thm, 0x44C, 31, 0⟩

/-! 09_cable_thermal.md, Table CBL-2. -/

def CBL_CFG.EN : Field := ⟨.cbl, 0x40, 31, 31⟩
def CBL_CFG.MINPIN : Field := ⟨.cbl, 0x40, 27, 24⟩
def CBL_CFG.COOL_EN : Field := ⟨.cbl, 0x40, 20, 20⟩
def CBL_CFG.COOL_AUX : Field := ⟨.cbl, 0x40, 19, 16⟩
def CBL_PINSRC.EN (i : Nat) : Field := ⟨.cbl, 0x44, 8 * i + 7, 8 * i + 7⟩
def CBL_PINSRC.CH (i : Nat) : Field := ⟨.cbl, 0x44, 8 * i + 5, 8 * i + 0⟩
def CBL_ENVSRC.AMB_EN : Field := ⟨.cbl, 0x48, 23, 23⟩
def CBL_ENVSRC.AMB : Field := ⟨.cbl, 0x48, 21, 16⟩
def CBL_ENVSRC.OUT_EN : Field := ⟨.cbl, 0x48, 15, 15⟩
def CBL_ENVSRC.OUTLET : Field := ⟨.cbl, 0x48, 13, 8⟩
def CBL_ENVSRC.IN_EN : Field := ⟨.cbl, 0x48, 7, 7⟩
def CBL_ENVSRC.INLET : Field := ⟨.cbl, 0x48, 5, 0⟩
def CBL_RC.UOHM : Field := ⟨.cbl, 0x4C, 31, 0⟩
def CBL_ALPHA.PPM : Field := ⟨.cbl, 0x50, 15, 0⟩
def CBL_RP.UOHM : Field := ⟨.cbl, 0x54, 31, 0⟩
def CBL_RHS.MKW : Field := ⟨.cbl, 0x58, 31, 0⟩
def CBL_CC.C : Field := ⟨.cbl, 0x5C, 31, 0⟩
def CBL_CP.C : Field := ⟨.cbl, 0x60, 31, 0⟩
def CBL_CW.C : Field := ⟨.cbl, 0x64, 31, 0⟩
def CBL_GCW.G : Field := ⟨.cbl, 0x68, 31, 0⟩
def CBL_GPW.G : Field := ⟨.cbl, 0x6C, 31, 0⟩
def CBL_GPC.G : Field := ⟨.cbl, 0x70, 31, 0⟩
def CBL_GCA.G : Field := ⟨.cbl, 0x74, 31, 0⟩
def CBL_GWF.G : Field := ⟨.cbl, 0x78, 31, 0⟩
def CBL_CORR.TAU_MS : Field := ⟨.cbl, 0x7C, 15, 0⟩
def CBL_LIM.TAMB_DEF : Field := ⟨.cbl, 0x80, 31, 16⟩
def CBL_LIM.T_LIM : Field := ⟨.cbl, 0x80, 15, 0⟩
def CBL_NOSENS.MA : Field := ⟨.cbl, 0x84, 31, 0⟩
def CBL_ROR1.DERATE : Field := ⟨.cbl, 0x88, 31, 16⟩
def CBL_ROR1.WARN : Field := ⟨.cbl, 0x88, 15, 0⟩
def CBL_ROR2.DER_PCT : Field := ⟨.cbl, 0x8C, 31, 24⟩
def CBL_ROR2.HYS : Field := ⟨.cbl, 0x8C, 23, 16⟩
def CBL_ROR2.TRIP : Field := ⟨.cbl, 0x8C, 15, 0⟩
def CBL_COOLT.MAX : Field := ⟨.cbl, 0x90, 31, 16⟩
def CBL_COOLT.MIN : Field := ⟨.cbl, 0x90, 15, 0⟩
def CBL_COOLT0.T0 : Field := ⟨.cbl, 0x94, 15, 0⟩
def CBL_SPREAD.K : Field := ⟨.cbl, 0x98, 7, 0⟩
def CBL_H10.MA : Field := ⟨.cbl, 0x440, 31, 0⟩
def CBL_H60.MA : Field := ⟨.cbl, 0x444, 31, 0⟩
def CBL_TC.T : Field := ⟨.cbl, 0x448, 31, 0⟩
def CBL_TP.T : Field := ⟨.cbl, 0x44C, 31, 0⟩
def CBL_TW.T : Field := ⟨.cbl, 0x450, 31, 0⟩
def CBL_THS.T : Field := ⟨.cbl, 0x454, 31, 0⟩
def CBL_STAT.LEVEL : Field := ⟨.cbl, 0x458, 9, 8⟩
def CBL_STAT.NPIN : Field := ⟨.cbl, 0x458, 6, 4⟩
def CBL_STAT.SPREAD : Field := ⟨.cbl, 0x458, 3, 3⟩
def CBL_STAT.COOL1 : Field := ⟨.cbl, 0x458, 2, 2⟩
def CBL_STAT.AMB_DEF : Field := ⟨.cbl, 0x458, 1, 1⟩
def CBL_STAT.VALID : Field := ⟨.cbl, 0x458, 0, 0⟩
def CBL_ROR.RATE : Field := ⟨.cbl, 0x45C, 15, 0⟩
def CBL_HRJ.J60 : Field := ⟨.cbl, 0x460, 12, 8⟩
def CBL_HRJ.J10 : Field := ⟨.cbl, 0x460, 4, 0⟩
def CBL_HR10F.T : Field := ⟨.cbl, 0x464, 31, 0⟩
def CBL_HR10S.S : Field := ⟨.cbl, 0x468, 31, 0⟩
def CBL_HR60F.T : Field := ⟨.cbl, 0x46C, 31, 0⟩
def CBL_HR60S.S : Field := ⟨.cbl, 0x470, 31, 0⟩
def CBL_DERCAP.MA : Field := ⟨.cbl, 0x474, 31, 0⟩
def CBL_COOLSETP.T : Field := ⟨.cbl, 0x478, 15, 0⟩
def CBL_TRIPCLR.CLR : Field := ⟨.cbl, 0x47C, 0, 0⟩

/-! 09_cable_thermal.md, Table DTM-2. -/

def DTM_THR.HYS : Field := ⟨.dtm, 0x40, 31, 24⟩
def DTM_THR.STEP : Field := ⟨.dtm, 0x40, 23, 16⟩
def DTM_THR.T1 : Field := ⟨.dtm, 0x40, 15, 0⟩
def DTM_SD.REL_S : Field := ⟨.dtm, 0x44, 31, 24⟩
def DTM_SD.SD_HYS : Field := ⟨.dtm, 0x44, 23, 16⟩
def DTM_SD.SD_T : Field := ⟨.dtm, 0x44, 15, 0⟩
def DTM_TEMP.VALID (k : Nat) : Field := ⟨.dtm, 0x440 + 4 * k, 31, 31⟩
def DTM_TEMP.T (k : Nat) : Field := ⟨.dtm, 0x440 + 4 * k, 15, 0⟩
def DTM_STAT.PAUSE_US : Field := ⟨.dtm, 0x460, 31, 16⟩
def DTM_STAT.MAXSENS : Field := ⟨.dtm, 0x460, 10, 8⟩
def DTM_STAT.LEVEL : Field := ⟨.dtm, 0x460, 2, 0⟩
def DTM_PAUSES.COUNT : Field := ⟨.dtm, 0x464, 31, 0⟩
def DTM_PEAK.T : Field := ⟨.dtm, 0x468, 15, 0⟩

/-! 10_load_switch_channels.md, Table LSW-3. -/

def LSW_CFG.EN : Field := ⟨.lsw, 0x40, 31, 31⟩
def LSW_CFG.SLEW : Field := ⟨.lsw, 0x40, 25, 24⟩
def LSW_CFG.RECOVER : Field := ⟨.lsw, 0x40, 20, 20⟩
def LSW_CFG.AUXOWN : Field := ⟨.lsw, 0x40, 16, 16⟩
def LSW_RSHUNT.UOHM : Field := ⟨.lsw, 0x44, 31, 0⟩
def LSW_SHORT.A : Field := ⟨.lsw, 0x48, 15, 0⟩
def LSW_TSRC.CASE : Field := ⟨.lsw, 0x4C, 13, 8⟩
def LSW_TSRC.FET : Field := ⟨.lsw, 0x4C, 5, 0⟩
def LSW_TLIM.TJ_MAX : Field := ⟨.lsw, 0x50, 31, 16⟩
def LSW_TLIM.DT_HYS : Field := ⟨.lsw, 0x50, 15, 8⟩
def LSW_TLIM.DT_LIM : Field := ⟨.lsw, 0x50, 7, 0⟩
def LSW_TDEF.CASE_DEF : Field := ⟨.lsw, 0x54, 15, 0⟩
def LSW_RETRY.DELAY_MS : Field := ⟨.lsw, 0x58, 31, 16⟩
def LSW_RETRY.MAX : Field := ⟨.lsw, 0x58, 15, 12⟩
def LSW_RETRY.TH_MAX : Field := ⟨.lsw, 0x58, 11, 8⟩
def LSW_RETRY.REARM_PCT : Field := ⟨.lsw, 0x58, 7, 0⟩
def LSW_RETRY2.RESET_S : Field := ⟨.lsw, 0x5C, 15, 0⟩
def LSW_PWM.FREQ : Field := ⟨.lsw, 0x60, 15, 0⟩
def LSW_DECAY.TAU_S : Field := ⟨.lsw, 0x64, 15, 0⟩
def LSW_CURVE_I.MA (k : Nat) : Field := ⟨.lsw, 0x80 + 8 * k, 31, 0⟩
def LSW_CURVE_T.MS (k : Nat) : Field := ⟨.lsw, 0x84 + 8 * k, 31, 0⟩
def LSW_DUTY.DUTY : Field := ⟨.lsw, 0x440, 15, 0⟩
def LSW_STAT.STATE : Field := ⟨.lsw, 0x444, 31, 28⟩
def LSW_STAT.RETRIES : Field := ⟨.lsw, 0x444, 19, 16⟩
def LSW_STAT.THTRIPS : Field := ⟨.lsw, 0x444, 15, 12⟩
def LSW_STAT.TLATCH : Field := ⟨.lsw, 0x444, 8, 8⟩
def LSW_STAT.FAULT : Field := ⟨.lsw, 0x444, 7, 4⟩
def LSW_STAT.CASE_DEF : Field := ⟨.lsw, 0x444, 2, 2⟩
def LSW_STAT.UV_HOLD : Field := ⟨.lsw, 0x444, 1, 1⟩
def LSW_STAT.GATE : Field := ⟨.lsw, 0x444, 0, 0⟩
def LSW_I.MA : Field := ⟨.lsw, 0x448, 31, 0⟩
def LSW_ACC.A : Field := ⟨.lsw, 0x44C, 30, 0⟩
def LSW_TEMP.TFET : Field := ⟨.lsw, 0x450, 31, 16⟩
def LSW_TEMP.DT : Field := ⟨.lsw, 0x450, 15, 0⟩
def LSW_CLR.CODE : Field := ⟨.lsw, 0x454, 3, 0⟩
def LSW_TRIPS.COUNT : Field := ⟨.lsw, 0x458, 31, 0⟩
def LSW_VAUX.MV : Field := ⟨.lsw, 0x45C, 15, 0⟩

/-! 11_vehicle_sessions.md, Table VCM-4. -/

def VCM_CPFILT.INV_MS : Field := ⟨.vcm, 0x40, 23, 16⟩
def VCM_CPFILT.FILT_MS : Field := ⟨.vcm, 0x40, 7, 0⟩
def VCM_ID_A.PLUG_HI : Field := ⟨.vcm, 0x44, 31, 16⟩
def VCM_ID_A.PLUG_LO : Field := ⟨.vcm, 0x44, 15, 0⟩
def VCM_ID_B.UNPLUG : Field := ⟨.vcm, 0x48, 15, 0⟩
def VCM_CE.CE_TH : Field := ⟨.vcm, 0x4C, 31, 16⟩
def VCM_CE.CE_MS : Field := ⟨.vcm, 0x4C, 15, 0⟩
def VCM_SLAC.MARGIN : Field := ⟨.vcm, 0x50, 15, 8⟩
def VCM_SLAC.ATTN_MAX : Field := ⟨.vcm, 0x50, 7, 0⟩
def VCM_PLCA.EN : Field := ⟨.vcm, 0x54, 23, 16⟩
def VCM_PLCA.TO : Field := ⟨.vcm, 0x54, 15, 8⟩
def VCM_PLCA.NCNT : Field := ⟨.vcm, 0x54, 3, 0⟩
def VCM_RX.NSLOT : Field := ⟨.vcm, 0x58, 25, 16⟩
def VCM_RX.BASE : Field := ⟨.vcm, 0x58, 9, 0⟩
def VCM_PT_A.EN (n : Nat) : Field := ⟨.vcm, 0x80 + 8 * n, 31, 31⟩
def VCM_PT_A.PSRC (n : Nat) : Field := ⟨.vcm, 0x80 + 8 * n, 28, 28⟩
def VCM_PT_A.SET (n : Nat) : Field := ⟨.vcm, 0x80 + 8 * n, 26, 24⟩
def VCM_PT_A.CHBASE (n : Nat) : Field := ⟨.vcm, 0x80 + 8 * n, 23, 16⟩
def VCM_PT_A.PORT (n : Nat) : Field := ⟨.vcm, 0x80 + 8 * n, 11, 8⟩
def VCM_PT_A.NODE (n : Nat) : Field := ⟨.vcm, 0x80 + 8 * n, 2, 0⟩
def VCM_PT_B.LTYPE (n : Nat) : Field := ⟨.vcm, 0x84 + 8 * n, 29, 28⟩
def VCM_PT_B.IDX (n : Nat) : Field := ⟨.vcm, 0x84 + 8 * n, 26, 24⟩
def VCM_PT_B.PORT (n : Nat) : Field := ⟨.vcm, 0x84 + 8 * n, 11, 8⟩
def VCM_PT_B.NODE (n : Nat) : Field := ⟨.vcm, 0x84 + 8 * n, 2, 0⟩
def VCM_CP.CP (n : Nat) : Field := ⟨.vcm, 0x440 + 4 * n, 31, 28⟩
def VCM_CP.DRIVE (n : Nat) : Field := ⟨.vcm, 0x440 + 4 * n, 25, 24⟩
def VCM_CP.ID (n : Nat) : Field := ⟨.vcm, 0x440 + 4 * n, 21, 20⟩
def VCM_CP.CE (n : Nat) : Field := ⟨.vcm, 0x440 + 4 * n, 17, 16⟩
def VCM_CP.VHI (n : Nat) : Field := ⟨.vcm, 0x440 + 4 * n, 15, 0⟩
def VCM_LINK.UP : Field := ⟨.vcm, 0x4C0, 31, 0⟩
def VCM_MACBASE_LO.MAC : Field := ⟨.vcm, 0x4C4, 31, 0⟩
def VCM_MACBASE_HI.MAC : Field := ⟨.vcm, 0x4C8, 15, 0⟩
def VCM_RXHEAD.IDX : Field := ⟨.vcm, 0x4CC, 9, 0⟩
def VCM_RXTAIL.PHASE : Field := ⟨.vcm, 0x4D0, 16, 16⟩
def VCM_RXTAIL.IDX : Field := ⟨.vcm, 0x4D0, 9, 0⟩
def VCM_RXDROP.COUNT : Field := ⟨.vcm, 0x4D4, 31, 0⟩
def VCM_SLAC.STATE (k : Nat) : Field := ⟨.vcm, 0x4E0 + 4 * k, 31, 28⟩
def VCM_SLAC.ATTN (k : Nat) : Field := ⟨.vcm, 0x4E0 + 4 * k, 15, 8⟩
def VCM_SLAC.SES (k : Nat) : Field := ⟨.vcm, 0x4E0 + 4 * k, 5, 0⟩

/-! 11_vehicle_sessions.md, Table SES-5. -/

def SES_CFG.TMO_MS : Field := ⟨.ses, 0x40, 31, 16⟩
def SES_CFG.LINKWAIT_S : Field := ⟨.ses, 0x40, 15, 8⟩
def SES_CFG.AUTHWAIT_S : Field := ⟨.ses, 0x40, 7, 0⟩
def SES_WSEL.SES : Field := ⟨.ses, 0x440, 5, 0⟩
def SES_CMD.OP : Field := ⟨.ses, 0x444, 31, 28⟩
def SES_CMD.SES : Field := ⟨.ses, 0x444, 21, 16⟩
def SES_CMD.PSEQ : Field := ⟨.ses, 0x444, 15, 0⟩
def SES_W_PIMAX.MA : Field := ⟨.ses, 0x480, 31, 0⟩
def SES_W_PPMAX.W : Field := ⟨.ses, 0x484, 31, 0⟩
def SES_W_PVPRES.MV : Field := ⟨.ses, 0x488, 31, 0⟩
def SES_W_PVTGT.MV : Field := ⟨.ses, 0x48C, 31, 0⟩
def SES_W_PCLASS.CLASS : Field := ⟨.ses, 0x490, 1, 0⟩
def SES_W_PSEQ.PSEQ : Field := ⟨.ses, 0x494, 15, 0⟩
def SES_W_AIMAX.MA : Field := ⟨.ses, 0x4A0, 31, 0⟩
def SES_W_APMAX.W : Field := ⟨.ses, 0x4A4, 31, 0⟩
def SES_W_AVPRES.MV : Field := ⟨.ses, 0x4A8, 31, 0⟩
def SES_W_AVTGT.MV : Field := ⟨.ses, 0x4AC, 31, 0⟩
def SES_W_ACLASS.CLASS : Field := ⟨.ses, 0x4B0, 1, 0⟩
def SES_W_AGE.MS : Field := ⟨.ses, 0x4B4, 31, 0⟩
def SES_W_END.T_MS : Field := ⟨.ses, 0x4B8, 31, 16⟩
def SES_W_END.CAUSE : Field := ⟨.ses, 0x4B8, 7, 0⟩
def SES_STAT.STATE (n : Nat) : Field := ⟨.ses, 0x500 + 4 * n, 31, 28⟩
def SES_STAT.HOLD (n : Nat) : Field := ⟨.ses, 0x500 + 4 * n, 27, 27⟩
def SES_STAT.ENDREQ (n : Nat) : Field := ⟨.ses, 0x500 + 4 * n, 26, 26⟩
def SES_STAT.PEND (n : Nat) : Field := ⟨.ses, 0x500 + 4 * n, 25, 25⟩
def SES_STAT.POINT (n : Nat) : Field := ⟨.ses, 0x500 + 4 * n, 20, 16⟩
def SES_STAT.CAUSE (n : Nat) : Field := ⟨.ses, 0x500 + 4 * n, 15, 8⟩
def SES_STAT.GEN (n : Nat) : Field := ⟨.ses, 0x500 + 4 * n, 7, 0⟩

/-! 12_powerline.md, Table PLC-7. -/

def PLC_CFG.YEN : Field := ⟨.plc, 0x40, 31, 31⟩
def PLC_CFG.GPEN : Field := ⟨.plc, 0x40, 27, 24⟩
def PLC_CFG.NKSLOT : Field := ⟨.plc, 0x40, 20, 16⟩
def PLC_CFG.MAXHOP : Field := ⟨.plc, 0x40, 9, 8⟩
def PLC_CFG.TXATT : Field := ⟨.plc, 0x40, 6, 0⟩
def PLC_MAC.MAXFRAME_MS : Field := ⟨.plc, 0x44, 21, 16⟩
def PLC_MAC.RETRY : Field := ⟨.plc, 0x44, 10, 8⟩
def PLC_MAC.QUIET : Field := ⟨.plc, 0x44, 7, 0⟩
def PLC_CW.CW3 : Field := ⟨.plc, 0x48, 31, 24⟩
def PLC_CW.CW2 : Field := ⟨.plc, 0x48, 23, 16⟩
def PLC_CW.CW1 : Field := ⟨.plc, 0x48, 15, 8⟩
def PLC_CW.CW0 : Field := ⟨.plc, 0x48, 7, 0⟩
def PLC_ZC.DELAY_US : Field := ⟨.plc, 0x4C, 31, 16⟩
def PLC_ZC.FILT_US : Field := ⟨.plc, 0x4C, 15, 0⟩
def PLC_IMP.IMP_DB : Field := ⟨.plc, 0x50, 7, 0⟩
def PLC_ROUTE.LOST_BP : Field := ⟨.plc, 0x54, 15, 8⟩
def PLC_ROUTE.HYS_PCT : Field := ⟨.plc, 0x54, 7, 0⟩
def PLC_DRV.TLIM : Field := ⟨.plc, 0x58, 15, 0⟩
def PLC_NOTCH.EN (k : Nat) : Field := ⟨.plc, 0x60 + 4 * k, 31, 31⟩
def PLC_NOTCH.HI (k : Nat) : Field := ⟨.plc, 0x60 + 4 * k, 26, 16⟩
def PLC_NOTCH.LO (k : Nat) : Field := ⟨.plc, 0x60 + 4 * k, 10, 0⟩
def PLC_PEER_LO.ID (n : Nat) : Field := ⟨.plc, 0x100 + 8 * n, 31, 0⟩
def PLC_PEER_HI.EN (n : Nat) : Field := ⟨.plc, 0x104 + 8 * n, 31, 31⟩
def PLC_PEER_HI.RELAY (n : Nat) : Field := ⟨.plc, 0x104 + 8 * n, 16, 16⟩
def PLC_PEER_HI.ID (n : Nat) : Field := ⟨.plc, 0x104 + 8 * n, 15, 0⟩
def PLC_STAT.COORD : Field := ⟨.plc, 0x440, 8, 8⟩
def PLC_STAT.DRVHOT : Field := ⟨.plc, 0x440, 4, 4⟩
def PLC_STAT.ZCVALID : Field := ⟨.plc, 0x440, 1, 1⟩
def PLC_STAT.UP : Field := ⟨.plc, 0x440, 0, 0⟩
def PLC_ZCSTAT.PERIOD_US : Field := ⟨.plc, 0x444, 31, 16⟩
def PLC_ZCSTAT.FREQ : Field := ⟨.plc, 0x444, 15, 0⟩
def PLC_BPCNT.COUNT : Field := ⟨.plc, 0x448, 31, 0⟩
def PLC_TXFRM.COUNT : Field := ⟨.plc, 0x44C, 31, 0⟩
def PLC_RETX.COUNT : Field := ⟨.plc, 0x450, 31, 0⟩
def PLC_TXFAIL.COUNT : Field := ⟨.plc, 0x454, 31, 0⟩
def PLC_IMPULSE.COUNT : Field := ⟨.plc, 0x458, 31, 0⟩
def PLC_AUTHERR.COUNT : Field := ⟨.plc, 0x45C, 31, 0⟩
def PLC_RXFRM.COUNT : Field := ⟨.plc, 0x460, 31, 0⟩
def PLC_RXDROP.COUNT : Field := ⟨.plc, 0x464, 31, 0⟩
def PLC_NBR_A.STATE (n : Nat) : Field := ⟨.plc, 0x500 + 8 * n, 31, 28⟩
def PLC_NBR_A.PHASE (n : Nat) : Field := ⟨.plc, 0x500 + 8 * n, 27, 26⟩
def PLC_NBR_A.HOPS (n : Nat) : Field := ⟨.plc, 0x500 + 8 * n, 25, 24⟩
def PLC_NBR_A.NEXT (n : Nat) : Field := ⟨.plc, 0x500 + 8 * n, 22, 16⟩
def PLC_NBR_A.COST (n : Nat) : Field := ⟨.plc, 0x500 + 8 * n, 15, 0⟩
def PLC_NBR_B.BPS (n : Nat) : Field := ⟨.plc, 0x504 + 8 * n, 31, 20⟩
def PLC_NBR_B.FER (n : Nat) : Field := ⟨.plc, 0x504 + 8 * n, 19, 12⟩
def PLC_NBR_B.TMGEN (n : Nat) : Field := ⟨.plc, 0x504 + 8 * n, 11, 8⟩
def PLC_NBR_B.MODE (n : Nat) : Field := ⟨.plc, 0x504 + 8 * n, 2, 0⟩

/-! 13_metrology.md, Table MTR-4. -/

def MTR_CFG.OSR : Field := ⟨.mtr, 0x40, 8, 8⟩
def MTR_CFG.ACUSE : Field := ⟨.mtr, 0x40, 3, 0⟩
def MTR_STAT.PFAIL : Field := ⟨.mtr, 0x44, 1, 1⟩
def MTR_STAT.CLKOK : Field := ⟨.mtr, 0x44, 0, 0⟩
def MTR_SECOND.SEC : Field := ⟨.mtr, 0x48, 31, 0⟩
def MTR_DCMODE.NET : Field := ⟨.mtr, 0x4C, 31, 0⟩
def MTR_ACMODE.RNET (i : Nat) : Field := ⟨.mtr, 0x50, 2 * i + 1, 2 * i + 1⟩
def MTR_ACMODE.ANET (i : Nat) : Field := ⟨.mtr, 0x50, 2 * i + 0, 2 * i + 0⟩
def MTR_CHST.ST (i : Nat) : Field := ⟨.mtr, 0x60 + 4 * (i / 16), 2 * (i % 16) + 1, 2 * (i % 16) + 0⟩
def MTR_DC_V.MV (n : Nat) : Field := ⟨.mtr, 0x80 + 0x10 * n, 31, 0⟩
def MTR_DC_I.MA (n : Nat) : Field := ⟨.mtr, 0x84 + 0x10 * n, 31, 0⟩
def MTR_DC_P.W (n : Nat) : Field := ⟨.mtr, 0x88 + 0x10 * n, 31, 0⟩
def MTR_DC_FLG.VALID (n : Nat) : Field := ⟨.mtr, 0x8C + 0x10 * n, 31, 31⟩
def MTR_DC_FLG.OVR (n : Nat) : Field := ⟨.mtr, 0x8C + 0x10 * n, 30, 30⟩
def MTR_DC_FLG.INVCNT (n : Nat) : Field := ⟨.mtr, 0x8C + 0x10 * n, 16, 0⟩
def MTR_DC_E0_LO.E (n : Nat) : Field := ⟨.mtr, 0x280 + 0x18 * n, 31, 0⟩
def MTR_DC_E0_HI.E (n : Nat) : Field := ⟨.mtr, 0x284 + 0x18 * n, 31, 0⟩
def MTR_DC_E0_WRAP.WRAP (n : Nat) : Field := ⟨.mtr, 0x288 + 0x18 * n, 31, 0⟩
def MTR_DC_E1_LO.E (n : Nat) : Field := ⟨.mtr, 0x28C + 0x18 * n, 31, 0⟩
def MTR_DC_E1_HI.E (n : Nat) : Field := ⟨.mtr, 0x290 + 0x18 * n, 31, 0⟩
def MTR_DC_E1_WRAP.WRAP (n : Nat) : Field := ⟨.mtr, 0x294 + 0x18 * n, 31, 0⟩
def MTR_AC_VRMS.MV (j φ : Nat) : Field := ⟨.mtr, 0x580 + 0x48 * j + 4 * (φ - 1), 31, 0⟩
def MTR_AC_IRMS.MA (j φ : Nat) : Field := ⟨.mtr, 0x58C + 0x48 * j + 4 * (φ - 1), 31, 0⟩
def MTR_AC_PPH.W (j φ : Nat) : Field := ⟨.mtr, 0x598 + 0x48 * j + 4 * (φ - 1), 31, 0⟩
def MTR_AC_QPH.VAR (j φ : Nat) : Field := ⟨.mtr, 0x5A4 + 0x48 * j + 4 * (φ - 1), 31, 0⟩
def MTR_AC_P.W (j : Nat) : Field := ⟨.mtr, 0x5B0 + 0x48 * j, 31, 0⟩
def MTR_AC_Q.VAR (j : Nat) : Field := ⟨.mtr, 0x5B4 + 0x48 * j, 31, 0⟩
def MTR_AC_S.VA (j : Nat) : Field := ⟨.mtr, 0x5B8 + 0x48 * j, 31, 0⟩
def MTR_AC_PFF.PF (j : Nat) : Field := ⟨.mtr, 0x5BC + 0x48 * j, 31, 16⟩
def MTR_AC_PFF.FREQ (j : Nat) : Field := ⟨.mtr, 0x5BC + 0x48 * j, 15, 0⟩
def MTR_AC_FLG.VALID (j : Nat) : Field := ⟨.mtr, 0x5C0 + 0x48 * j, 31, 31⟩
def MTR_AC_FLG.FVALID (j : Nat) : Field := ⟨.mtr, 0x5C0 + 0x48 * j, 30, 30⟩
def MTR_AC_FLG.OVR (j : Nat) : Field := ⟨.mtr, 0x5C0 + 0x48 * j, 29, 29⟩
def MTR_AC_FLG.INVCNT (j : Nat) : Field := ⟨.mtr, 0x5C0 + 0x48 * j, 16, 0⟩
def MTR_AC_E_LO.E (j q : Nat) : Field := ⟨.mtr, 0x6A0 + 0x48 * j + 0xC * q, 31, 0⟩
def MTR_AC_E_HI.E (j q : Nat) : Field := ⟨.mtr, 0x6A4 + 0x48 * j + 0xC * q, 31, 0⟩
def MTR_AC_E_WRAP.WRAP (j q : Nat) : Field := ⟨.mtr, 0x6A8 + 0x48 * j + 0xC * q, 31, 0⟩

/-! 14_legal_island.md, Table LGL-8. -/

def LGL_STAT.ROLE : Field := ⟨.lgl, 0x40, 31, 28⟩
def LGL_STAT.ROMOK : Field := ⟨.lgl, 0x40, 8, 8⟩
def LGL_STAT.PFAIL : Field := ⟨.lgl, 0x40, 4, 4⟩
def LGL_STAT.MERGING : Field := ⟨.lgl, 0x40, 2, 2⟩
def LGL_STAT.NEARFULL : Field := ⟨.lgl, 0x40, 1, 1⟩
def LGL_STAT.READY : Field := ⟨.lgl, 0x40, 0, 0⟩
def LGL_MBCMD.GO : Field := ⟨.lgl, 0x44, 31, 31⟩
def LGL_MBCMD.REQLEN : Field := ⟨.lgl, 0x44, 10, 0⟩
def LGL_MBSTAT.STATE : Field := ⟨.lgl, 0x48, 31, 28⟩
def LGL_MBSTAT.STATUS : Field := ⟨.lgl, 0x48, 23, 16⟩
def LGL_MBSTAT.RSPLEN : Field := ⟨.lgl, 0x48, 10, 0⟩
def LGL_AUTHCNT.COUNT : Field := ⟨.lgl, 0x4C, 31, 0⟩
def LGL_LOCKOUT.FAILS : Field := ⟨.lgl, 0x50, 23, 16⟩
def LGL_LOCKOUT.S : Field := ⟨.lgl, 0x50, 15, 0⟩
def LGL_PARAMGEN.GEN : Field := ⟨.lgl, 0x54, 31, 0⟩
def LGL_REC_LAST_LO.SEQ : Field := ⟨.lgl, 0x58, 31, 0⟩
def LGL_REC_LAST_HI.SEQ : Field := ⟨.lgl, 0x5C, 31, 0⟩
def LGL_REC_ACK_LO.SEQ : Field := ⟨.lgl, 0x60, 31, 0⟩
def LGL_REC_ACK_HI.SEQ : Field := ⟨.lgl, 0x64, 31, 0⟩
def LGL_REC_FREE.BYTES : Field := ⟨.lgl, 0x68, 31, 0⟩
def LGL_DENY.COUNT : Field := ⟨.lgl, 0x6C, 31, 16⟩
def LGL_DENY.OFFSET : Field := ⟨.lgl, 0x6C, 11, 0⟩
def LGL_ROMVER.VER : Field := ⟨.lgl, 0x70, 31, 0⟩
def LGL_MKRLOST.COUNT : Field := ⟨.lgl, 0x74, 31, 0⟩
def LGL_LOST_FIRST.SEQ : Field := ⟨.lgl, 0x78, 31, 0⟩
def LGL_LOST_LAST.SEQ : Field := ⟨.lgl, 0x7C, 31, 0⟩
def LGL_REQ.DATA (i : Nat) : Field := ⟨.lgl, 0x400 + 4 * i, 31, 0⟩
def LGL_RSP.DATA (i : Nat) : Field := ⟨.lgl, 0x800 + 4 * i, 31, 0⟩

/-! 14_legal_island.md, Table TMP-2. -/

def TMP_COUNT.COUNT (c : Nat) : Field := ⟨.tmp, 0x40 + 0x20 * (c - 1), 31, 0⟩
def TMP_FIRST_LO.T (c : Nat) : Field := ⟨.tmp, 0x44 + 0x20 * (c - 1), 31, 0⟩
def TMP_FIRST_HI.T (c : Nat) : Field := ⟨.tmp, 0x48 + 0x20 * (c - 1), 31, 0⟩
def TMP_LAST_LO.T (c : Nat) : Field := ⟨.tmp, 0x4C + 0x20 * (c - 1), 31, 0⟩
def TMP_LAST_HI.T (c : Nat) : Field := ⟨.tmp, 0x50 + 0x20 * (c - 1), 31, 0⟩
def TMP_DETAIL.D (c : Nat) : Field := ⟨.tmp, 0x54 + 0x20 * (c - 1), 31, 0⟩
def TMP_FLAGS.SAT (c : Nat) : Field := ⟨.tmp, 0x58 + 0x20 * (c - 1), 1, 1⟩
def TMP_FLAGS.TINV (c : Nat) : Field := ⟨.tmp, 0x58 + 0x20 * (c - 1), 0, 0⟩
def TMP_SUMMARY.SEEN : Field := ⟨.tmp, 0x400, 11, 0⟩

/-! 15_tariffs_intervals_time.md, Table RTC-1. -/

def RTC_ALARM.SEC : Field := ⟨.rtc, 0x40, 31, 0⟩
def RTC_ALMCTL.EN : Field := ⟨.rtc, 0x44, 0, 0⟩
def RTC_SEC.SEC : Field := ⟨.rtc, 0x440, 31, 0⟩
def RTC_STAT.OFFSET : Field := ⟨.rtc, 0x444, 31, 16⟩
def RTC_STAT.TARIFF : Field := ⟨.rtc, 0x444, 12, 8⟩
def RTC_STAT.DEFTARIFF : Field := ⟨.rtc, 0x444, 4, 4⟩
def RTC_STAT.STEP_PEND : Field := ⟨.rtc, 0x444, 3, 3⟩
def RTC_STAT.SLEWING : Field := ⟨.rtc, 0x444, 2, 2⟩
def RTC_STAT.REPEATED : Field := ⟨.rtc, 0x444, 1, 1⟩
def RTC_STAT.VALID : Field := ⟨.rtc, 0x444, 0, 0⟩
def RTC_HWM.SEC : Field := ⟨.rtc, 0x448, 31, 0⟩
def RTC_TB_LO.TICKS : Field := ⟨.rtc, 0x44C, 31, 0⟩
def RTC_TB_HI.TICKS : Field := ⟨.rtc, 0x450, 31, 0⟩
def RTC_SLEWLEFT.MS : Field := ⟨.rtc, 0x454, 31, 0⟩

/-! 15_tariffs_intervals_time.md, Table TRF-7. -/

def TRF_ACTSEC.SEC : Field := ⟨.trf, 0x40, 31, 0⟩
def TRF_ACTID.ID : Field := ⟨.trf, 0x44, 31, 0⟩
def TRF_ACTCTL.ARM : Field := ⟨.trf, 0x48, 0, 0⟩
def TRF_ACTIVE.ID : Field := ⟨.trf, 0x440, 31, 0⟩
def TRF_PASSIVE.ID : Field := ⟨.trf, 0x444, 31, 0⟩
def TRF_STATE.ARMED : Field := ⟨.trf, 0x448, 31, 31⟩
def TRF_STATE.DEFTARIFF : Field := ⟨.trf, 0x448, 30, 30⟩
def TRF_STATE.TARIFF : Field := ⟨.trf, 0x448, 28, 24⟩
def TRF_STATE.SEASON : Field := ⟨.trf, 0x448, 22, 20⟩
def TRF_STATE.WEEK : Field := ⟨.trf, 0x448, 19, 16⟩
def TRF_STATE.DAY : Field := ⟨.trf, 0x448, 12, 8⟩
def TRF_STATE.SP : Field := ⟨.trf, 0x448, 4, 0⟩
def TRF_NEXTSW.SEC : Field := ⟨.trf, 0x44C, 31, 0⟩
def TRF_ARMSEC.SEC : Field := ⟨.trf, 0x450, 31, 0⟩
def TRF_ACTCNT.COUNT : Field := ⟨.trf, 0x454, 31, 0⟩
def TRF_PRICE.PRICE : Field := ⟨.trf, 0x458, 31, 0⟩
def TRF_INTSTART.SEC : Field := ⟨.trf, 0x45C, 31, 0⟩
def TRF_POLICY.JUMP_LIM : Field := ⟨.trf, 0x460, 31, 16⟩
def TRF_POLICY.FALLBACK_ON_LOSS : Field := ⟨.trf, 0x460, 9, 9⟩
def TRF_POLICY.SPLIT_ON_JUMP : Field := ⟨.trf, 0x460, 8, 8⟩
def TRF_POLICY.INTLEN : Field := ⟨.trf, 0x460, 2, 0⟩
def TRF_HWM.SEC : Field := ⟨.trf, 0x464, 31, 0⟩

/-! 16_safety_functions.md, Table SAF-4. -/

def SAF_CFG.TPER_MS : Field := ⟨.saf, 0x40, 31, 16⟩
def SAF_CFG.TPW_US : Field := ⟨.saf, 0x40, 8, 0⟩
def SAF_PAIREN.EN : Field := ⟨.saf, 0x44, 7, 0⟩
def SAF_IN_A.EN (n : Nat) : Field := ⟨.saf, 0x80 + 0xC * n, 31, 31⟩
def SAF_IN_A.KIND (n : Nat) : Field := ⟨.saf, 0x80 + 0xC * n, 30, 28⟩
def SAF_IN_A.SRC (n : Nat) : Field := ⟨.saf, 0x80 + 0xC * n, 27, 26⟩
def SAF_IN_A.STARTUP_TEST (n : Nat) : Field := ⟨.saf, 0x80 + 0xC * n, 25, 25⟩
def SAF_IN_A.AUTO (n : Nat) : Field := ⟨.saf, 0x80 + 0xC * n, 24, 24⟩
def SAF_IN_A.CHMODE (n : Nat) : Field := ⟨.saf, 0x80 + 0xC * n, 23, 23⟩
def SAF_IN_A.FILT_MS (n : Nat) : Field := ⟨.saf, 0x80 + 0xC * n, 19, 16⟩
def SAF_IN_A.DISC_MS (n : Nat) : Field := ⟨.saf, 0x80 + 0xC * n, 9, 0⟩
def SAF_IN_MASK.PTS (n : Nat) : Field := ⟨.saf, 0x84 + 0xC * n, 31, 0⟩
def SAF_IN_SRCB.CON (n : Nat) : Field := ⟨.saf, 0x88 + 0xC * n, 13, 8⟩
def SAF_IN_SRCB.BIT (n : Nat) : Field := ⟨.saf, 0x88 + 0xC * n, 4, 0⟩
def SAF_PTPAIR.PAIR (i : Nat) : Field := ⟨.saf, 0x200 + 4 * (i / 8), 4 * (i % 8) + 3, 4 * (i % 8) + 0⟩
def SAF_STAT.PAIRON : Field := ⟨.saf, 0x440, 31, 24⟩
def SAF_STAT.FAIL : Field := ⟨.saf, 0x440, 8, 8⟩
def SAF_STAT.READY : Field := ⟨.saf, 0x440, 0, 0⟩
def SAF_PTTRIP.PTS : Field := ⟨.saf, 0x444, 31, 0⟩
def SAF_PTOT.PTS : Field := ⟨.saf, 0x448, 31, 0⟩
def SAF_RST.LAST_MS : Field := ⟨.saf, 0x44C, 31, 16⟩
def SAF_RST.JAM : Field := ⟨.saf, 0x44C, 3, 3⟩
def SAF_RST.B : Field := ⟨.saf, 0x44C, 1, 1⟩
def SAF_RST.A : Field := ⟨.saf, 0x44C, 0, 0⟩
def SAF_CFGCRC.CRC : Field := ⟨.saf, 0x450, 31, 0⟩
def SAF_RSTCNT.COUNT : Field := ⟨.saf, 0x454, 31, 0⟩
def SAF_TRIPCNT.COUNT : Field := ⟨.saf, 0x458, 31, 0⟩
def SAF_INST.STATE (n : Nat) : Field := ⟨.saf, 0x460 + 4 * n, 31, 28⟩
def SAF_INST.DISCF (n : Nat) : Field := ⟨.saf, 0x460 + 4 * n, 9, 9⟩
def SAF_INST.DISCRUN (n : Nat) : Field := ⟨.saf, 0x460 + 4 * n, 8, 8⟩
def SAF_INST.REMOTE (n : Nat) : Field := ⟨.saf, 0x460 + 4 * n, 2, 2⟩
def SAF_INST.B (n : Nat) : Field := ⟨.saf, 0x460 + 4 * n, 1, 1⟩
def SAF_INST.A (n : Nat) : Field := ⟨.saf, 0x460 + 4 * n, 0, 0⟩
def SAF_PAIRST.STATE (p : Nat) : Field := ⟨.saf, 0x4E0 + 4 * p, 31, 28⟩
def SAF_PAIRST.FCODE (p : Nat) : Field := ⟨.saf, 0x4E0 + 4 * p, 11, 8⟩
def SAF_PAIRST.RB_L (p : Nat) : Field := ⟨.saf, 0x4E0 + 4 * p, 1, 1⟩
def SAF_PAIRST.RB_H (p : Nat) : Field := ⟨.saf, 0x4E0 + 4 * p, 0, 0⟩

/-! 16_safety_functions.md, Table SFC-2. -/

def SFC_HBUF.BASE : Field := ⟨.sfc, 0x40, 9, 0⟩
def SFC_CON_A.EN (n : Nat) : Field := ⟨.sfc, 0x80 + 0xC * n, 31, 31⟩
def SFC_CON_A.TRANS (n : Nat) : Field := ⟨.sfc, 0x80 + 0xC * n, 29, 28⟩
def SFC_CON_A.SIZE (n : Nat) : Field := ⟨.sfc, 0x80 + 0xC * n, 25, 24⟩
def SFC_CON_A.PEER (n : Nat) : Field := ⟨.sfc, 0x80 + 0xC * n, 21, 16⟩
def SFC_CON_A.PORT (n : Nat) : Field := ⟨.sfc, 0x80 + 0xC * n, 11, 8⟩
def SFC_CON_A.NODE (n : Nat) : Field := ⟨.sfc, 0x80 + 0xC * n, 2, 0⟩
def SFC_CON_B.WDX_MS (n : Nat) : Field := ⟨.sfc, 0x84 + 0xC * n, 25, 16⟩
def SFC_CON_B.TX_MS (n : Nat) : Field := ⟨.sfc, 0x84 + 0xC * n, 9, 0⟩
def SFC_CON_ID.ID (n : Nat) : Field := ⟨.sfc, 0x88 + 0xC * n, 31, 0⟩
def SFC_STAT.STATE (n : Nat) : Field := ⟨.sfc, 0x440 + 4 * n, 31, 28⟩
def SFC_STAT.FCAUSE (n : Nat) : Field := ⟨.sfc, 0x440 + 4 * n, 27, 24⟩
def SFC_STAT.READY (n : Nat) : Field := ⟨.sfc, 0x440 + 4 * n, 17, 17⟩
def SFC_STAT.PEERFSV (n : Nat) : Field := ⟨.sfc, 0x440 + 4 * n, 16, 16⟩
def SFC_STAT.LASTSEQ (n : Nat) : Field := ⟨.sfc, 0x440 + 4 * n, 15, 0⟩
def SFC_RX.BITS (n : Nat) : Field := ⟨.sfc, 0x540 + 4 * n, 31, 0⟩
def SFC_HOUTPEND_LO.PEND : Field := ⟨.sfc, 0x640, 31, 0⟩
def SFC_HOUTPEND_HI.PEND : Field := ⟨.sfc, 0x644, 31, 0⟩
def SFC_HIN.CON : Field := ⟨.sfc, 0x648, 5, 0⟩
def SFC_CRCERR.COUNT : Field := ⟨.sfc, 0x64C, 31, 0⟩
def SFC_SEQDISC.COUNT : Field := ⟨.sfc, 0x650, 31, 0⟩

/-! 17_operations_and_journal.md, Table OPE-4. -/

def OPE_SQ_BASE.BASE : Field := ⟨.ope, 0x40, 9, 0⟩
def OPE_SQ_SIZE.SIZE : Field := ⟨.ope, 0x44, 10, 0⟩
def OPE_CTL.SQ_EN : Field := ⟨.ope, 0x440, 0, 0⟩
def OPE_SQ_TAIL.IDX : Field := ⟨.ope, 0x444, 9, 0⟩
def OPE_SQ_HEAD.IDX : Field := ⟨.ope, 0x448, 9, 0⟩
def OPE_INFLIGHT.HOST : Field := ⟨.ope, 0x44C, 24, 16⟩
def OPE_INFLIGHT.TOTAL : Field := ⟨.ope, 0x44C, 8, 0⟩
def OPE_CQCREDIT.FREE : Field := ⟨.ope, 0x450, 10, 0⟩
def OPE_ISSUED.COUNT : Field := ⟨.ope, 0x454, 31, 0⟩
def OPE_COMPLETED.COUNT : Field := ⟨.ope, 0x458, 31, 0⟩
def OPE_STALLCQ.COUNT : Field := ⟨.ope, 0x45C, 31, 0⟩
def OPE_STALLJNL.COUNT : Field := ⟨.ope, 0x460, 31, 0⟩
def OPE_INVALID.COUNT : Field := ⟨.ope, 0x464, 31, 0⟩
def OPE_REPLAY.INTERRUPTED : Field := ⟨.ope, 0x468, 29, 20⟩
def OPE_REPLAY.COMPENSATED : Field := ⟨.ope, 0x468, 19, 10⟩
def OPE_REPLAY.REPLAYED : Field := ⟨.ope, 0x468, 9, 0⟩
def OPE_SLOTMAP.BUSY (k : Nat) : Field := ⟨.ope, 0x480 + 4 * k, 31, 0⟩

/-! 17_operations_and_journal.md, Table JNL-2. -/

def JNL_CFG.RELOC : Field := ⟨.jnl, 0x40, 15, 0⟩
def JNL_HEAD.IDX : Field := ⟨.jnl, 0x440, 15, 0⟩
def JNL_TAIL.IDX : Field := ⟨.jnl, 0x444, 15, 0⟩
def JNL_SEQ_LO.SEQ : Field := ⟨.jnl, 0x448, 31, 0⟩
def JNL_SEQ_HI.SEQ : Field := ⟨.jnl, 0x44C, 31, 0⟩
def JNL_FREE.N : Field := ⟨.jnl, 0x450, 15, 0⟩
def JNL_RSV.N : Field := ⟨.jnl, 0x454, 15, 0⟩
def JNL_LIVE.N : Field := ⟨.jnl, 0x458, 15, 0⟩
def JNL_RELOCS.COUNT : Field := ⟨.jnl, 0x45C, 31, 0⟩
def JNL_CRCERR.COUNT : Field := ⟨.jnl, 0x460, 15, 0⟩
def JNL_EMERG.VALID : Field := ⟨.jnl, 0x464, 8, 8⟩
def JNL_EMERG.IDX : Field := ⟨.jnl, 0x464, 5, 0⟩
def JNL_RDIDX.IDX : Field := ⟨.jnl, 0x468, 15, 0⟩
def JNL_RDATA.DATA (w : Nat) : Field := ⟨.jnl, 0x480 + 4 * w, 31, 0⟩

/-! 18_ply_operation.md, Table PLY-8. -/

def PLY_CFG.SPLIT_PCT : Field := ⟨.ply, 0x40, 31, 24⟩
def PLY_CFG.PREF : Field := ⟨.ply, 0x40, 8, 8⟩
def PLY_CFG.ROLE : Field := ⟨.ply, 0x40, 4, 4⟩
def PLY_CFG.MODE : Field := ⟨.ply, 0x40, 1, 0⟩
def PLY_PAIRID.ID : Field := ⟨.ply, 0x44, 31, 0⟩
def PLY_GUARD.HOLDOFF_S : Field := ⟨.ply, 0x48, 31, 16⟩
def PLY_GUARD.XCHK_PM : Field := ⟨.ply, 0x48, 7, 0⟩
def PLY_STAT.STATE : Field := ⟨.ply, 0x440, 31, 28⟩
def PLY_STAT.ELIGIBLE : Field := ⟨.ply, 0x440, 12, 12⟩
def PLY_STAT.MIRROR_OK : Field := ⟨.ply, 0x440, 11, 11⟩
def PLY_STAT.ALIGNED : Field := ⟨.ply, 0x440, 10, 10⟩
def PLY_STAT.RINGSEEN : Field := ⟨.ply, 0x440, 9, 9⟩
def PLY_STAT.MGMT_STALE : Field := ⟨.ply, 0x440, 8, 8⟩
def PLY_STAT.MISMATCH : Field := ⟨.ply, 0x440, 5, 5⟩
def PLY_STAT.SELFCHK_FAIL : Field := ⟨.ply, 0x440, 4, 4⟩
def PLY_STAT.PAIRED : Field := ⟨.ply, 0x440, 0, 0⟩
def PLY_PARTNER.SERIAL : Field := ⟨.ply, 0x444, 31, 0⟩
def PLY_MISROWS.TOTAL : Field := ⟨.ply, 0x448, 31, 16⟩
def PLY_MISROWS.RUN : Field := ⟨.ply, 0x448, 7, 0⟩
def PLY_SWITCHES.COUNT : Field := ⟨.ply, 0x44C, 31, 0⟩
def PLY_LASTSW.CAUSE : Field := ⟨.ply, 0x450, 31, 28⟩
def PLY_LASTSW.US : Field := ⟨.ply, 0x450, 15, 0⟩
def PLY_HOLDLEFT.S : Field := ⟨.ply, 0x454, 15, 0⟩
def PLY_MGMT.PEER : Field := ⟨.ply, 0x458, 1, 0⟩
def PLY_CMD.GO : Field := ⟨.ply, 0x45C, 31, 31⟩
def PLY_CMD.OP : Field := ⟨.ply, 0x45C, 3, 0⟩
def PLY_XCHK_LO.PTS : Field := ⟨.ply, 0x460, 31, 0⟩
def PLY_XCHK_HI.INC : Field := ⟨.ply, 0x464, 3, 0⟩
def PLY_SHADOWERR.COUNT : Field := ⟨.ply, 0x468, 31, 0⟩
def PLY_LINK.BLOCKLOCK : Field := ⟨.ply, 0x480, 1, 1⟩
def PLY_LINK.UP : Field := ⟨.ply, 0x480, 0, 0⟩
def PLY_LAT.LAT : Field := ⟨.ply, 0x484, 31, 0⟩
def PLY_CRCERR.COUNT : Field := ⟨.ply, 0x488, 31, 0⟩

/-! 19_keys_and_lifecycle.md, Table KEY-3. -/

def KEY_LC.STATE : Field := ⟨.key, 0x440, 31, 28⟩
def KEY_LC.SWATCH : Field := ⟨.key, 0x440, 9, 9⟩
def KEY_LC.DBGEN : Field := ⟨.key, 0x440, 8, 8⟩
def KEY_LC.DBGARM : Field := ⟨.key, 0x440, 4, 4⟩
def KEY_LC.ROOTOK : Field := ⟨.key, 0x440, 0, 0⟩
def KEY_GEN.LEFT : Field := ⟨.key, 0x444, 21, 16⟩
def KEY_GEN.GEN : Field := ⟨.key, 0x444, 5, 0⟩
def KEY_SVN.MINSVN : Field := ⟨.key, 0x448, 5, 0⟩
def KEY_CHALCMD.NEW : Field := ⟨.key, 0x44C, 0, 0⟩
def KEY_CHALAGE.S : Field := ⟨.key, 0x450, 15, 0⟩
def KEY_TRNG.FAILS : Field := ⟨.key, 0x454, 31, 16⟩
def KEY_TRNG.FAIL : Field := ⟨.key, 0x454, 0, 0⟩
def KEY_SERIAL_LO.SN : Field := ⟨.key, 0x458, 31, 0⟩
def KEY_SERIAL_HI.SN : Field := ⟨.key, 0x45C, 31, 0⟩
def KEY_CHAL.DATA (w : Nat) : Field := ⟨.key, 0x460 + 4 * w, 31, 0⟩
def KEY_IMG.BOOTBANK : Field := ⟨.key, 0x4A0, 24, 24⟩
def KEY_IMG.TRIALS : Field := ⟨.key, 0x4A0, 17, 16⟩
def KEY_IMG.CFGB : Field := ⟨.key, 0x4A0, 15, 14⟩
def KEY_IMG.CFGA : Field := ⟨.key, 0x4A0, 13, 12⟩
def KEY_IMG.RTB : Field := ⟨.key, 0x4A0, 11, 10⟩
def KEY_IMG.RTA : Field := ⟨.key, 0x4A0, 9, 8⟩
def KEY_IMGVER.VER : Field := ⟨.key, 0x4A4, 31, 0⟩
def KEY_SLOT.STATE (s : Nat) : Field := ⟨.key, 0x500 + 4 * s, 31, 30⟩
def KEY_SLOT.TYPE (s : Nat) : Field := ⟨.key, 0x500 + 4 * s, 27, 24⟩
def KEY_SLOT.ATTR (s : Nat) : Field := ⟨.key, 0x500 + 4 * s, 23, 16⟩
def KEY_SLOT.LCMASK (s : Nat) : Field := ⟨.key, 0x500 + 4 * s, 12, 8⟩
def KEY_SLOT.ROLE (s : Nat) : Field := ⟨.key, 0x500 + 4 * s, 7, 6⟩
def KEY_SLOT.PARENT (s : Nat) : Field := ⟨.key, 0x500 + 4 * s, 5, 0⟩

/-! 19_keys_and_lifecycle.md, Table CRY-3. -/

def CRY_CTXUSE_LO.USE : Field := ⟨.cry, 0x440, 31, 0⟩
def CRY_CTXUSE_HI.USE : Field := ⟨.cry, 0x444, 31, 0⟩
def CRY_OPS.COUNT : Field := ⟨.cry, 0x448, 31, 0⟩
def CRY_ERRS.COUNT : Field := ⟨.cry, 0x44C, 31, 0⟩
def CRY_LAST.FUNC : Field := ⟨.cry, 0x450, 23, 16⟩
def CRY_LAST.STATUS : Field := ⟨.cry, 0x450, 15, 0⟩
def CRY_CTX.VALID (n : Nat) : Field := ⟨.cry, 0x480 + 4 * n, 31, 31⟩
def CRY_CTX.TYPE (n : Nat) : Field := ⟨.cry, 0x480 + 4 * n, 27, 24⟩
def CRY_CTX.ATTR (n : Nat) : Field := ⟨.cry, 0x480 + 4 * n, 23, 16⟩
def CRY_CTX.LCMASK (n : Nat) : Field := ⟨.cry, 0x480 + 4 * n, 12, 8⟩
def CRY_CTX.PARENT (n : Nat) : Field := ⟨.cry, 0x480 + 4 * n, 5, 0⟩

/-! 20_fault_recorder.md, Table FRC-5. -/

def FRC_CFG.SRCEN : Field := ⟨.frc, 0x40, 19, 16⟩
def FRC_CFG.PRE_PM : Field := ⟨.frc, 0x40, 9, 0⟩
def FRC_S_A.EN (n : Nat) : Field := ⟨.frc, 0x44 + 0x10 * n, 31, 31⟩
def FRC_S_A.TYPE (n : Nat) : Field := ⟨.frc, 0x44 + 0x10 * n, 26, 24⟩
def FRC_S_A.INDEX (n : Nat) : Field := ⟨.frc, 0x44 + 0x10 * n, 21, 16⟩
def FRC_S_A.REDMASK (n : Nat) : Field := ⟨.frc, 0x44 + 0x10 * n, 11, 8⟩
def FRC_S_B.BLK (n : Nat) : Field := ⟨.frc, 0x48 + 0x10 * n, 31, 16⟩
def FRC_S_B.DECN (n : Nat) : Field := ⟨.frc, 0x48 + 0x10 * n, 15, 0⟩
def FRC_S_C.RAW (n : Nat) : Field := ⟨.frc, 0x4C + 0x10 * n, 31, 24⟩
def FRC_S_C.MM (n : Nat) : Field := ⟨.frc, 0x4C + 0x10 * n, 23, 16⟩
def FRC_S_C.MEAN (n : Nat) : Field := ⟨.frc, 0x4C + 0x10 * n, 15, 8⟩
def FRC_S_C.DEC (n : Nat) : Field := ⟨.frc, 0x4C + 0x10 * n, 7, 0⟩
def FRC_TRIG.EN (k : Nat) : Field := ⟨.frc, 0x180 + 4 * k, 31, 31⟩
def FRC_TRIG.BIT (k : Nat) : Field := ⟨.frc, 0x180 + 4 * k, 28, 24⟩
def FRC_TRIG.PAGE (k : Nat) : Field := ⟨.frc, 0x180 + 4 * k, 15, 0⟩
def FRC_NODETRG.EN (k : Nat) : Field := ⟨.frc, 0x1A0 + 4 * k, 31, 31⟩
def FRC_NODETRG.CH (k : Nat) : Field := ⟨.frc, 0x1A0 + 4 * k, 23, 16⟩
def FRC_NODETRG.PORT (k : Nat) : Field := ⟨.frc, 0x1A0 + 4 * k, 11, 8⟩
def FRC_NODETRG.NODE (k : Nat) : Field := ⟨.frc, 0x1A0 + 4 * k, 2, 0⟩
def FRC_CTL.DISARM : Field := ⟨.frc, 0x440, 2, 2⟩
def FRC_CTL.FIRE : Field := ⟨.frc, 0x440, 1, 1⟩
def FRC_CTL.ARM : Field := ⟨.frc, 0x440, 0, 0⟩
def FRC_STAT.STATE : Field := ⟨.frc, 0x444, 31, 28⟩
def FRC_STAT.CUT : Field := ⟨.frc, 0x444, 8, 8⟩
def FRC_STAT.LATE : Field := ⟨.frc, 0x444, 6, 6⟩
def FRC_STAT.SRC : Field := ⟨.frc, 0x444, 2, 0⟩
def FRC_CAPID.ID : Field := ⟨.frc, 0x448, 31, 0⟩
def FRC_TTRIG_LO.T : Field := ⟨.frc, 0x44C, 31, 0⟩
def FRC_TTRIG_HI.T : Field := ⟨.frc, 0x450, 31, 0⟩
def FRC_LOAD.BPS : Field := ⟨.frc, 0x454, 31, 0⟩
def FRC_TRIGCNT.COUNT : Field := ⟨.frc, 0x458, 31, 0⟩
def FRC_IGNCNT.COUNT : Field := ⟨.frc, 0x45C, 31, 0⟩
def FRC_R_A.FROZEN (r : Nat) : Field := ⟨.frc, 0x480 + 0xC * r, 31, 31⟩
def FRC_R_A.SHORTPRE (r : Nat) : Field := ⟨.frc, 0x480 + 0xC * r, 30, 30⟩
def FRC_R_A.BASE (r : Nat) : Field := ⟨.frc, 0x480 + 0xC * r, 7, 0⟩
def FRC_R_B.FIRST (r : Nat) : Field := ⟨.frc, 0x484 + 0xC * r, 18, 0⟩
def FRC_R_C.TRIGIDX (r : Nat) : Field := ⟨.frc, 0x488 + 0xC * r, 18, 0⟩
def FRC_TLOG_A.VALID (k : Nat) : Field := ⟨.frc, 0x780 + 0xC * k, 31, 31⟩
def FRC_TLOG_A.SRC (k : Nat) : Field := ⟨.frc, 0x780 + 0xC * k, 2, 0⟩
def FRC_TLOG_TLO.T (k : Nat) : Field := ⟨.frc, 0x784 + 0xC * k, 31, 0⟩
def FRC_TLOG_THI.T (k : Nat) : Field := ⟨.frc, 0x788 + 0xC * k, 31, 0⟩

/-! 21_clocks_and_plls.md, Table CLK-3. -/

def CLK_REFCFG.TREF : Field := ⟨.clk, 0x40, 5, 4⟩
def CLK_REFCFG.FREF : Field := ⟨.clk, 0x40, 1, 0⟩
def CLK_CKO.FMT (n : Nat) : Field := ⟨.clk, 0x80 + 4 * n, 30, 28⟩
def CLK_CKO.SRC (n : Nat) : Field := ⟨.clk, 0x80 + 4 * n, 25, 24⟩
def CLK_CKO.DIV (n : Nat) : Field := ⟨.clk, 0x80 + 4 * n, 9, 0⟩
def CLK_STAT.FB : Field := ⟨.clk, 0x440, 12, 12⟩
def CLK_STAT.REFOK : Field := ⟨.clk, 0x440, 8, 8⟩
def CLK_STAT.T_STATE : Field := ⟨.clk, 0x440, 6, 4⟩
def CLK_STAT.F_STATE : Field := ⟨.clk, 0x440, 2, 0⟩
def CLK_BAND.T_BAND : Field := ⟨.clk, 0x444, 13, 8⟩
def CLK_BAND.F_BAND : Field := ⟨.clk, 0x444, 5, 0⟩
def CLK_CKOSTAT.GATED : Field := ⟨.clk, 0x448, 15, 8⟩
def CLK_CKOSTAT.RUN : Field := ⟨.clk, 0x448, 7, 0⟩
def CLK_LOSSCNT.COUNT : Field := ⟨.clk, 0x44C, 31, 0⟩
def CLK_LASTLOSS.CAUSE : Field := ⟨.clk, 0x450, 31, 28⟩
def CLK_LASTLOSS.MS : Field := ⟨.clk, 0x450, 15, 0⟩
def CLK_LOSSTIME_LO.TICKS : Field := ⟨.clk, 0x454, 31, 0⟩
def CLK_LOSSTIME_HI.TICKS : Field := ⟨.clk, 0x458, 31, 0⟩

/-! 22_power_domains_and_wake.md, Table PWR-7. -/

def PWR_TARGET0.D (i : Nat) : Field := ⟨.pwr, 0x40, 2 * i + 1, 2 * i + 0⟩
def PWR_TARGET1.D (i : Nat) : Field := ⟨.pwr, 0x44, 2 * i + 1, 2 * i + 0⟩
def PWR_CFG.QTMO_MS : Field := ⟨.pwr, 0x48, 15, 0⟩
def PWR_WAKEMAP.DOMS (s : Nat) : Field := ⟨.pwr, 0x60 + 4 * s, 17, 0⟩
def PWR_STATE0.D (i : Nat) : Field := ⟨.pwr, 0x440, 2 * i + 1, 2 * i + 0⟩
def PWR_STATE1.D (i : Nat) : Field := ⟨.pwr, 0x444, 2 * i + 1, 2 * i + 0⟩
def PWR_ENTRY.PHASE : Field := ⟨.pwr, 0x448, 31, 28⟩
def PWR_ENTRY.LASTAP : Field := ⟨.pwr, 0x448, 18, 16⟩
def PWR_ENTRY.RESULT : Field := ⟨.pwr, 0x448, 15, 8⟩
def PWR_ENTRYCNT.COUNT : Field := ⟨.pwr, 0x44C, 31, 0⟩
def PWR_WAKECNT.COUNT : Field := ⟨.pwr, 0x450, 31, 0⟩

/-! 22_power_domains_and_wake.md, Table AON-1. -/

def AON_WAKEEN.SAFRST : Field := ⟨.aon, 0x40, 5, 5⟩
def AON_WAKEEN.PCIE : Field := ⟨.aon, 0x40, 4, 4⟩
def AON_WAKEEN.SAFE : Field := ⟨.aon, 0x40, 3, 3⟩
def AON_WAKEEN.RTC : Field := ⟨.aon, 0x40, 2, 2⟩
def AON_WAKEEN.MGMT : Field := ⟨.aon, 0x40, 1, 1⟩
def AON_WAKEEN.SKN : Field := ⟨.aon, 0x40, 0, 0⟩
def AON_SAFEWAKE.FN : Field := ⟨.aon, 0x44, 31, 0⟩
def AON_WAKECAUSE.RETFAIL : Field := ⟨.aon, 0x440, 31, 31⟩
def AON_WAKECAUSE.PORTS : Field := ⟨.aon, 0x440, 27, 16⟩
def AON_WAKECAUSE.SRC : Field := ⟨.aon, 0x440, 4, 0⟩
def AON_WAKEABORT.AP : Field := ⟨.aon, 0x444, 30, 28⟩
def AON_WAKEABORT.SRC : Field := ⟨.aon, 0x444, 20, 16⟩
def AON_WAKEABORT.COUNT : Field := ⟨.aon, 0x444, 15, 0⟩
def AON_RETFAIL_SRAM.BANKS : Field := ⟨.aon, 0x448, 23, 0⟩
def AON_RETFAIL_EDRAM.BANKS : Field := ⟨.aon, 0x44C, 15, 0⟩
def AON_WAKETIME_LO.TICKS : Field := ⟨.aon, 0x450, 31, 0⟩
def AON_WAKETIME_HI.TICKS : Field := ⟨.aon, 0x454, 31, 0⟩
def AON_SLEEPMS.MS : Field := ⟨.aon, 0x458, 31, 0⟩

/-! 23_cast_on_and_reset.md, Table SYS-3. -/

def SYS_ID.PART : Field := ⟨.sys, 0x40, 31, 16⟩
def SYS_ID.STEP : Field := ⟨.sys, 0x40, 7, 0⟩
def SYS_FWVER.VER : Field := ⟨.sys, 0x44, 31, 0⟩
def SYS_STAT.STOP : Field := ⟨.sys, 0x48, 31, 28⟩
def SYS_STAT.CONFIGURED : Field := ⟨.sys, 0x48, 3, 3⟩
def SYS_STAT.RELEASED : Field := ⟨.sys, 0x48, 2, 2⟩
def SYS_STAT.READY : Field := ⟨.sys, 0x48, 1, 1⟩
def SYS_STAT.BOOTED : Field := ⟨.sys, 0x48, 0, 0⟩
def SYS_BLOCK.BITS : Field := ⟨.sys, 0x4C, 7, 0⟩
def SYS_CTL.RELEASE : Field := ⟨.sys, 0x50, 0, 0⟩
def SYS_CASTONS.COUNT : Field := ⟨.sys, 0x54, 31, 0⟩

/-! 23_cast_on_and_reset.md, Table RST-4. -/

def RST_CFG.RSTN_EN : Field := ⟨.rst, 0x40, 16, 16⟩
def RST_CFG.WDT_MS : Field := ⟨.rst, 0x40, 9, 0⟩
def RST_REQ.KEY : Field := ⟨.rst, 0x440, 15, 0⟩
def RST_CAUSE.MERGED : Field := ⟨.rst, 0x444, 31, 31⟩
def RST_CAUSE.QFORCED : Field := ⟨.rst, 0x444, 30, 30⟩
def RST_CAUSE.SENSOR : Field := ⟨.rst, 0x444, 10, 8⟩
def RST_CAUSE.CODE : Field := ⟨.rst, 0x444, 7, 0⟩
def RST_HIST.CODE (i : Nat) : Field := ⟨.rst, 0x448, 8 * i + 7, 8 * i + 0⟩
def RST_COUNT.COUNT : Field := ⟨.rst, 0x44C, 31, 0⟩

/-! 02_host_interface_and_pages.md, Table EVT-1. -/

def EVT_VECMAP.VEC (i : Nat) : Field := ⟨.evt, 0x40 + 4 * (i / 4), 8 * (i % 4) + 7, 8 * (i % 4)⟩

end Sys2Proof.Machine
end

