-- ==== Sys2Proof/Machine/EventMap.lean ====
section
/-!
DEFINITION. The events of each block by page and EVT bit, from the event tables of the chapters, and the mask of the
bits a page's event table lists (R46: every other bit is RSV).
-/

namespace Sys2Proof.Machine

/-- An event of a block: the block and its EVT bit. -/
structure Ev where
  tag : Tag
  bit : Nat
  deriving DecidableEq, Repr

def Ev.ALC.ROW_OVERRUN : Ev := ⟨.alc, 0⟩
def Ev.ALC.ALC_STALL : Ev := ⟨.alc, 1⟩
def Ev.ALC.BUDGET_SHORT : Ev := ⟨.alc, 2⟩
def Ev.ALC.GRID_TMO : Ev := ⟨.alc, 3⟩
def Ev.ALC.PRICE_STALE : Ev := ⟨.alc, 4⟩
def Ev.ALC.CAB_STALE : Ev := ⟨.alc, 5⟩
def Ev.ALC.NO_STRAND : Ev := ⟨.alc, 6⟩
def Ev.ALC.HANDOVER_DONE : Ev := ⟨.alc, 7⟩
def Ev.ALC.HANDOVER_ABORT : Ev := ⟨.alc, 8⟩
def Ev.ALC.SPEC_ADOPT : Ev := ⟨.alc, 16⟩
def Ev.ALC.SPEC_REFUTED : Ev := ⟨.alc, 17⟩
def Ev.ALC.SPEC_LATE : Ev := ⟨.alc, 18⟩

def Ev.CLE.SAMPLE_MISS : Ev := ⟨.cle, 0⟩
def Ev.CLE.OL_RATE : Ev := ⟨.cle, 1⟩

def Ev.STR.BANK_SWAPPED : Ev := ⟨.str, 0⟩
def Ev.STR.DUTY_SAT : Ev := ⟨.str, 1⟩
def Ev.STR.SAMPLE_MISS : Ev := ⟨.str, 2⟩
def Ev.STR.TLM_LOSS : Ev := ⟨.str, 3⟩
def Ev.STR.VBUS_LOW : Ev := ⟨.str, 4⟩
def Ev.STR.PH_OC : Ev := ⟨.str, 5⟩
def Ev.STR.SHED : Ev := ⟨.str, 16⟩
def Ev.STR.SHED_ABORT : Ev := ⟨.str, 17⟩
def Ev.STR.PH_RETURN : Ev := ⟨.str, 18⟩
def Ev.STR.ROT_FALLBACK : Ev := ⟨.str, 19⟩
def Ev.STR.ROT_EXIT : Ev := ⟨.str, 20⟩
def Ev.STR.PH_INVALID : Ev := ⟨.str, 21⟩
def Ev.STR.PH_IMBAL : Ev := ⟨.str, 22⟩
def Ev.STR.RESTART_OK : Ev := ⟨.str, 23⟩
def Ev.STR.RESTART_FAIL : Ev := ⟨.str, 24⟩

def Ev.AUX.SRC_BAD : Ev := ⟨.aux, 0⟩
def Ev.AUX.OUT_BLOCKED : Ev := ⟨.aux, 1⟩
def Ev.AUX.BANK_SWAPPED : Ev := ⟨.aux, 2⟩

def Ev.OUT.ISO_WARN : Ev := ⟨.out, 0⟩
def Ev.OUT.ISO_FAULT : Ev := ⟨.out, 1⟩
def Ev.OUT.WELD : Ev := ⟨.out, 2⟩
def Ev.OUT.WELD_UNTESTED : Ev := ⟨.out, 3⟩
def Ev.OUT.CONT_FAULT : Ev := ⟨.out, 4⟩
def Ev.OUT.SS_DONE : Ev := ⟨.out, 16⟩
def Ev.OUT.SHORT_SS : Ev := ⟨.out, 17⟩
def Ev.OUT.PB_FAIL : Ev := ⟨.out, 18⟩
def Ev.OUT.BO_FORCED : Ev := ⟨.out, 19⟩
def Ev.OUT.DIS_SLOW : Ev := ⟨.out, 20⟩
def Ev.OUT.DIS_FAIL : Ev := ⟨.out, 21⟩
def Ev.OUT.BO_DONE : Ev := ⟨.out, 22⟩

def Ev.CTM.CLOSE_FAIL : Ev := ⟨.ctm, 0⟩
def Ev.CTM.OPEN_FAIL : Ev := ⟨.ctm, 1⟩
def Ev.CTM.CONT_LOST : Ev := ⟨.ctm, 2⟩
def Ev.CTM.AUX_STALE : Ev := ⟨.ctm, 3⟩
def Ev.CTM.SAFE_OPEN : Ev := ⟨.ctm, 4⟩

def Ev.SKN.LINK_UP : Ev := ⟨.skn, 0⟩
def Ev.SKN.LINK_DOWN : Ev := ⟨.skn, 1⟩
def Ev.SKN.NODE_MISMATCH : Ev := ⟨.skn, 2⟩
def Ev.SKN.NODE_LOST : Ev := ⟨.skn, 3⟩
def Ev.SKN.DROP : Ev := ⟨.skn, 4⟩
def Ev.SKN.NODE_STOP : Ev := ⟨.skn, 5⟩
def Ev.SKN.IO_FAIL : Ev := ⟨.skn, 6⟩
def Ev.SKN.SYNC_LOST : Ev := ⟨.skn, 7⟩
def Ev.SKN.RING_BREAK : Ev := ⟨.skn, 8⟩
def Ev.SKN.WAKE : Ev := ⟨.skn, 9⟩

def Ev.THM.BROKEN : Ev := ⟨.thm, 0⟩
def Ev.THM.RECOVERED : Ev := ⟨.thm, 1⟩
def Ev.THM.HWTRIP : Ev := ⟨.thm, 2⟩
def Ev.THM.HWREL : Ev := ⟨.thm, 3⟩

def Ev.CBL.MODEL_INVALID : Ev := ⟨.cbl, 0⟩
def Ev.CBL.MODEL_VALID : Ev := ⟨.cbl, 1⟩
def Ev.CBL.AMB_DEFAULT : Ev := ⟨.cbl, 2⟩
def Ev.CBL.ROR_WARN : Ev := ⟨.cbl, 3⟩
def Ev.CBL.ROR_DERATE : Ev := ⟨.cbl, 4⟩
def Ev.CBL.ROR_TRIP : Ev := ⟨.cbl, 5⟩
def Ev.CBL.PIN_SPREAD : Ev := ⟨.cbl, 6⟩
def Ev.CBL.HS_OVER : Ev := ⟨.cbl, 7⟩

def Ev.DTM.THROTTLE_ON : Ev := ⟨.dtm, 0⟩
def Ev.DTM.THROTTLE_OFF : Ev := ⟨.dtm, 1⟩
def Ev.DTM.LEVEL_UP : Ev := ⟨.dtm, 2⟩
def Ev.DTM.SD_NEAR : Ev := ⟨.dtm, 3⟩

def Ev.LSW.TRIP_I2T : Ev := ⟨.lsw, 0⟩
def Ev.LSW.TRIP_SHORT : Ev := ⟨.lsw, 1⟩
def Ev.LSW.TRIP_THERM : Ev := ⟨.lsw, 2⟩
def Ev.LSW.RETRY : Ev := ⟨.lsw, 3⟩
def Ev.LSW.LOCKOUT : Ev := ⟨.lsw, 4⟩
def Ev.LSW.UV_OFF : Ev := ⟨.lsw, 5⟩
def Ev.LSW.UV_RECOVER : Ev := ⟨.lsw, 6⟩
def Ev.LSW.CASE_DEF : Ev := ⟨.lsw, 7⟩

def Ev.VCM.CP_CHANGE : Ev := ⟨.vcm, 0⟩
def Ev.VCM.PILOT_FAULT : Ev := ⟨.vcm, 1⟩
def Ev.VCM.ID_CHANGE : Ev := ⟨.vcm, 2⟩
def Ev.VCM.CE_FAULT : Ev := ⟨.vcm, 3⟩
def Ev.VCM.LINK_UP : Ev := ⟨.vcm, 4⟩
def Ev.VCM.LINK_DOWN : Ev := ⟨.vcm, 5⟩
def Ev.VCM.SLAC_MATCH : Ev := ⟨.vcm, 6⟩
def Ev.VCM.SLAC_FAIL : Ev := ⟨.vcm, 7⟩
def Ev.VCM.RX : Ev := ⟨.vcm, 8⟩
def Ev.VCM.RX_DROP : Ev := ⟨.vcm, 9⟩

def Ev.SES.DETECT : Ev := ⟨.ses, 0⟩
def Ev.SES.LINKED : Ev := ⟨.ses, 1⟩
def Ev.SES.AUTHORISED : Ev := ⟨.ses, 2⟩
def Ev.SES.CHARGING : Ev := ⟨.ses, 3⟩
def Ev.SES.END : Ev := ⟨.ses, 4⟩
def Ev.SES.REFRESH_HOLD : Ev := ⟨.ses, 5⟩
def Ev.SES.ENDED : Ev := ⟨.ses, 6⟩
def Ev.SES.INTERRUPTED : Ev := ⟨.ses, 7⟩

def Ev.PLC.PEER_UP : Ev := ⟨.plc, 0⟩
def Ev.PLC.PEER_LOST : Ev := ⟨.plc, 1⟩
def Ev.PLC.ROUTE_CHANGE : Ev := ⟨.plc, 2⟩
def Ev.PLC.PHASE_CHANGE : Ev := ⟨.plc, 3⟩
def Ev.PLC.ZC_LOST : Ev := ⟨.plc, 4⟩
def Ev.PLC.ZC_OK : Ev := ⟨.plc, 5⟩
def Ev.PLC.TX_FAIL : Ev := ⟨.plc, 6⟩
def Ev.PLC.IMPULSE : Ev := ⟨.plc, 7⟩
def Ev.PLC.AUTH_FAIL : Ev := ⟨.plc, 8⟩
def Ev.PLC.DRV_HOT : Ev := ⟨.plc, 9⟩
def Ev.PLC.PEER_REFUSED : Ev := ⟨.plc, 10⟩

def Ev.MTR.CH_LOST : Ev := ⟨.mtr, 0⟩
def Ev.MTR.CH_OK : Ev := ⟨.mtr, 1⟩
def Ev.MTR.CH_OVR : Ev := ⟨.mtr, 2⟩
def Ev.MTR.MODREV : Ev := ⟨.mtr, 3⟩
def Ev.MTR.CLK_INVALID : Ev := ⟨.mtr, 4⟩
def Ev.MTR.CLK_OK : Ev := ⟨.mtr, 5⟩
def Ev.MTR.PFAIL_SAVED : Ev := ⟨.mtr, 6⟩
def Ev.MTR.RESTORE_UNCLEAN : Ev := ⟨.mtr, 7⟩

def Ev.LGL.MB_DONE : Ev := ⟨.lgl, 0⟩
def Ev.LGL.REC_NEW : Ev := ⟨.lgl, 1⟩
def Ev.LGL.NEAR_FULL : Ev := ⟨.lgl, 2⟩
def Ev.LGL.FULL : Ev := ⟨.lgl, 3⟩
def Ev.LGL.REC_LOST : Ev := ⟨.lgl, 4⟩
def Ev.LGL.AUTH_FAIL : Ev := ⟨.lgl, 5⟩
def Ev.LGL.LOCKOUT : Ev := ⟨.lgl, 6⟩
def Ev.LGL.SEALED : Ev := ⟨.lgl, 7⟩
def Ev.LGL.ROMCHK_FAIL : Ev := ⟨.lgl, 8⟩

def Ev.TMP.CODE1 : Ev := ⟨.tmp, 0⟩
def Ev.TMP.CODE2 : Ev := ⟨.tmp, 1⟩
def Ev.TMP.CODE3 : Ev := ⟨.tmp, 2⟩
def Ev.TMP.CODE4 : Ev := ⟨.tmp, 3⟩
def Ev.TMP.CODE5 : Ev := ⟨.tmp, 4⟩
def Ev.TMP.CODE6 : Ev := ⟨.tmp, 5⟩
def Ev.TMP.CODE7 : Ev := ⟨.tmp, 6⟩
def Ev.TMP.CODE8 : Ev := ⟨.tmp, 7⟩
def Ev.TMP.CODE9 : Ev := ⟨.tmp, 8⟩
def Ev.TMP.CODE10 : Ev := ⟨.tmp, 9⟩
def Ev.TMP.CODE11 : Ev := ⟨.tmp, 10⟩
def Ev.TMP.CODE12 : Ev := ⟨.tmp, 11⟩

def Ev.TRF.SWITCH : Ev := ⟨.trf, 0⟩
def Ev.TRF.ACTIVATED : Ev := ⟨.trf, 1⟩
def Ev.TRF.DISARMED : Ev := ⟨.trf, 2⟩
def Ev.TRF.INTERVAL : Ev := ⟨.trf, 3⟩
def Ev.TRF.CLKJUMP : Ev := ⟨.trf, 4⟩
def Ev.TRF.CLKLOSS : Ev := ⟨.trf, 5⟩
def Ev.TRF.TIME_VALID : Ev := ⟨.trf, 6⟩

def Ev.SAF.TRIP : Ev := ⟨.saf, 0⟩
def Ev.SAF.RELEASE : Ev := ⟨.saf, 1⟩
def Ev.SAF.DISC_FAULT : Ev := ⟨.saf, 2⟩
def Ev.SAF.PAIR_FAULT : Ev := ⟨.saf, 3⟩
def Ev.SAF.RST_ACCEPT : Ev := ⟨.saf, 4⟩
def Ev.SAF.RST_JAM : Ev := ⟨.saf, 5⟩
def Ev.SAF.RST_DISC : Ev := ⟨.saf, 6⟩
def Ev.SAF.OVERTEMP_TRIP : Ev := ⟨.saf, 7⟩
def Ev.SAF.ISLAND_FAIL : Ev := ⟨.saf, 8⟩

def Ev.SFC.CON_RUN : Ev := ⟨.sfc, 0⟩
def Ev.SFC.CON_FAULT : Ev := ⟨.sfc, 1⟩
def Ev.SFC.HOST_TX : Ev := ⟨.sfc, 2⟩
def Ev.SFC.CRC_ERR : Ev := ⟨.sfc, 3⟩

def Ev.PLY.PAIRED : Ev := ⟨.ply, 0⟩
def Ev.PLY.PAIR_MISMATCH : Ev := ⟨.ply, 1⟩
def Ev.PLY.PLY_LOST : Ev := ⟨.ply, 2⟩
def Ev.PLY.SPLIT : Ev := ⟨.ply, 3⟩
def Ev.PLY.REJOIN : Ev := ⟨.ply, 4⟩
def Ev.PLY.SNAP_LATE : Ev := ⟨.ply, 5⟩
def Ev.PLY.ALLOC_LATE : Ev := ⟨.ply, 6⟩
def Ev.PLY.SHADOW_MISMATCH : Ev := ⟨.ply, 7⟩
def Ev.PLY.MISMATCH : Ev := ⟨.ply, 8⟩
def Ev.PLY.SELFCHK_DONE : Ev := ⟨.ply, 9⟩
def Ev.PLY.STANDBY_FAIL : Ev := ⟨.ply, 10⟩
def Ev.PLY.TAKEOVER : Ev := ⟨.ply, 11⟩
def Ev.PLY.RETURN : Ev := ⟨.ply, 12⟩
def Ev.PLY.RETURN_ABORT : Ev := ⟨.ply, 13⟩
def Ev.PLY.MGMT_DISAGREE : Ev := ⟨.ply, 14⟩
def Ev.PLY.XCHK_DIFF : Ev := ⟨.ply, 15⟩

def Ev.FRC.ARMED : Ev := ⟨.frc, 0⟩
def Ev.FRC.TRIGGERED : Ev := ⟨.frc, 1⟩
def Ev.FRC.FROZEN : Ev := ⟨.frc, 2⟩
def Ev.FRC.ABORT : Ev := ⟨.frc, 3⟩
def Ev.FRC.LATE_TRIG : Ev := ⟨.frc, 4⟩

def Ev.CLK.REF_LOST : Ev := ⟨.clk, 0⟩
def Ev.CLK.REF_OK : Ev := ⟨.clk, 1⟩
def Ev.CLK.UNLOCK_F : Ev := ⟨.clk, 2⟩
def Ev.CLK.UNLOCK_T : Ev := ⟨.clk, 3⟩
def Ev.CLK.LOCK_F : Ev := ⟨.clk, 4⟩
def Ev.CLK.LOCK_T : Ev := ⟨.clk, 5⟩
def Ev.CLK.BAND_FAIL : Ev := ⟨.clk, 6⟩
def Ev.CLK.CLK_STOP : Ev := ⟨.clk, 7⟩

def Ev.PWR.ENTRY_DONE : Ev := ⟨.pwr, 0⟩
def Ev.PWR.QTMO : Ev := ⟨.pwr, 1⟩
def Ev.PWR.WAKE_DONE : Ev := ⟨.pwr, 2⟩

def Ev.AON.WAKE : Ev := ⟨.aon, 0⟩
def Ev.AON.WAKE_ABORT : Ev := ⟨.aon, 1⟩
def Ev.AON.RET_FAIL : Ev := ⟨.aon, 2⟩

def Ev.SYS.BOOTED : Ev := ⟨.sys, 0⟩
def Ev.SYS.READY : Ev := ⟨.sys, 1⟩
def Ev.SYS.RELEASED : Ev := ⟨.sys, 2⟩
def Ev.SYS.CASTON_STOP : Ev := ⟨.sys, 3⟩
def Ev.SYS.CONFIGURED : Ev := ⟨.sys, 4⟩

def Ev.RST.CAUSE_VALID : Ev := ⟨.rst, 0⟩

def Ev.RTC.TIME_SET : Ev := ⟨.rtc, 0⟩
def Ev.RTC.TIME_INVALID : Ev := ⟨.rtc, 1⟩
def Ev.RTC.TIME_VALID : Ev := ⟨.rtc, 2⟩
def Ev.RTC.ALARM : Ev := ⟨.rtc, 3⟩
def Ev.RTC.TARIFF_SWITCH : Ev := ⟨.rtc, 4⟩

def Ev.OPE.STALL_CQ : Ev := ⟨.ope, 0⟩
def Ev.OPE.STALL_JNL : Ev := ⟨.ope, 1⟩
def Ev.OPE.INVALID_DESC : Ev := ⟨.ope, 2⟩
def Ev.OPE.QUIESCE : Ev := ⟨.ope, 3⟩
def Ev.OPE.QUIESCE_FORCED : Ev := ⟨.ope, 4⟩
def Ev.OPE.REPLAY_DONE : Ev := ⟨.ope, 5⟩

def Ev.JNL.LOW_FREE : Ev := ⟨.jnl, 0⟩
def Ev.JNL.PFAIL_REC : Ev := ⟨.jnl, 1⟩
def Ev.JNL.SCAN_CRC : Ev := ⟨.jnl, 2⟩

def Ev.KEY.LC_CHANGE : Ev := ⟨.key, 0⟩
def Ev.KEY.GEN_ADVANCE : Ev := ⟨.key, 1⟩
def Ev.KEY.SLOT_INVALID : Ev := ⟨.key, 2⟩
def Ev.KEY.ENTROPY_FAIL : Ev := ⟨.key, 3⟩
def Ev.KEY.DEBUG_ARMED : Ev := ⟨.key, 4⟩
def Ev.KEY.IMG_TRIAL : Ev := ⟨.key, 5⟩
def Ev.KEY.IMG_FALLBACK : Ev := ⟨.key, 6⟩
def Ev.KEY.ROLLBACK : Ev := ⟨.key, 7⟩

def Ev.CRY.CTX_CLEARED : Ev := ⟨.cry, 0⟩
def Ev.CRY.OP_ERR : Ev := ⟨.cry, 1⟩

/-- The EVT bits a block lists (R46); a block that lists none has every bit RSV. -/
def evtMask : Tag → Nat
  | .alc => 0x701FF
  | .cle => 0x3
  | .str => 0x1FF003F
  | .aux => 0x7
  | .out => 0x7F001F
  | .ctm => 0x1F
  | .skn => 0x3FF
  | .thm => 0xF
  | .cbl => 0xFF
  | .dtm => 0xF
  | .lsw => 0xFF
  | .vcm => 0x3FF
  | .ses => 0xFF
  | .plc => 0x7FF
  | .mtr => 0xFF
  | .lgl => 0x1FF
  | .tmp => 0xFFF
  | .trf => 0x7F
  | .saf => 0x1FF
  | .sfc => 0xF
  | .ply => 0xFFFF
  | .frc => 0x1F
  | .clk => 0xFF
  | .pwr => 0x7
  | .aon => 0x7
  | .sys => 0x1F
  | .rst => 0x1
  | .rtc => 0x1F
  | .ope => 0x3F
  | .jnl => 0x7
  | .key => 0xFF
  | .cry => 0x3
  | .hif | .evt => 0

end Sys2Proof.Machine
end

