-- ==== Sys2Proof/Machine/RegTable.lean ====
section
/-!
DEFINITION. The register table: for every page, each register family of the field tables of spec/ with its place,
its repetitions and, field by field, bits, access code (R12), reset value (R14) and the field's own range (R52).
Ranges that depend on another field are in the blocks' own commit and write checks.
-/

namespace Sys2Proof.Machine

/-- Registers of the SYS page, Table SYS-3. -/
def regsSYS : List RegFam := [
  ⟨0x40, 4, 1, 4, 1, [⟨31, 16, .ro, 0x9420, .any⟩, ⟨7, 0, .ro, 0xB1, .any⟩]⟩,
  ⟨0x44, 4, 1, 4, 1, [⟨31, 0, .roh, 0, .any⟩]⟩,
  ⟨0x48, 4, 1, 4, 1, [⟨31, 28, .roh, 0, .any⟩, ⟨3, 3, .roh, 0, .any⟩, ⟨2, 2, .roh, 0, .any⟩, ⟨1, 1, .roh, 0, .any⟩, ⟨0, 0, .roh, 0, .any⟩]⟩,
  ⟨0x4C, 4, 1, 4, 1, [⟨7, 0, .roh, 0xFF, .any⟩]⟩,
  ⟨0x50, 4, 1, 4, 1, [⟨0, 0, .wo, 0, .any⟩]⟩,
  ⟨0x54, 4, 1, 4, 1, [⟨31, 0, .roh, 0, .any⟩]⟩]

/-- Registers of the PWR page, Table PWR-7. -/
def regsPWR : List RegFam := [
  ⟨0x40, 4, 1, 4, 1, [⟨1, 0, .rws, 0, .u 0 2⟩, ⟨3, 2, .rws, 0, .u 0 2⟩, ⟨5, 4, .rws, 0, .u 0 2⟩, ⟨7, 6, .rws, 0, .u 0 2⟩, ⟨9, 8, .rws, 0, .u 0 2⟩, ⟨11, 10, .rws, 0, .u 0 2⟩, ⟨13, 12, .rws, 0, .u 0 2⟩, ⟨15, 14, .rws, 0, .u 0 2⟩, ⟨17, 16, .rws, 0, .u 0 2⟩, ⟨19, 18, .rws, 0, .u 0 2⟩, ⟨21, 20, .rws, 0, .u 0 2⟩, ⟨23, 22, .rws, 0, .u 0 2⟩, ⟨25, 24, .rws, 0, .u 0 2⟩, ⟨27, 26, .rws, 0, .u 0 2⟩, ⟨29, 28, .rws, 0, .u 0 2⟩, ⟨31, 30, .rws, 0, .u 0 2⟩]⟩,
  ⟨0x44, 4, 1, 4, 1, [⟨1, 0, .rws, 0, .u 0 2⟩, ⟨3, 2, .rws, 0, .u 0 2⟩]⟩,
  ⟨0x48, 4, 1, 4, 1, [⟨15, 0, .rws, 0xA, .u 1 1000⟩]⟩,
  ⟨0x60, 4, 5, 4, 1, [⟨17, 0, .rws, 0x3FFFF, .any⟩]⟩,
  ⟨0x440, 4, 1, 4, 1, [⟨1, 0, .roh, 0, .any⟩, ⟨3, 2, .roh, 0, .any⟩, ⟨5, 4, .roh, 0, .any⟩, ⟨7, 6, .roh, 0, .any⟩, ⟨9, 8, .roh, 0, .any⟩, ⟨11, 10, .roh, 0, .any⟩, ⟨13, 12, .roh, 0, .any⟩, ⟨15, 14, .roh, 0, .any⟩, ⟨17, 16, .roh, 0, .any⟩, ⟨19, 18, .roh, 0, .any⟩, ⟨21, 20, .roh, 0, .any⟩, ⟨23, 22, .roh, 0, .any⟩, ⟨25, 24, .roh, 0, .any⟩, ⟨27, 26, .roh, 0, .any⟩, ⟨29, 28, .roh, 0, .any⟩, ⟨31, 30, .roh, 0, .any⟩]⟩,
  ⟨0x444, 4, 1, 4, 1, [⟨1, 0, .roh, 0, .any⟩, ⟨3, 2, .roh, 0, .any⟩]⟩,
  ⟨0x448, 4, 1, 4, 1, [⟨31, 28, .roh, 0, .any⟩, ⟨18, 16, .roh, 0, .any⟩, ⟨15, 8, .roh, 0, .any⟩]⟩,
  ⟨0x44C, 4, 1, 4, 1, [⟨31, 0, .roh, 0, .any⟩]⟩,
  ⟨0x450, 4, 1, 4, 1, [⟨31, 0, .roh, 0, .any⟩]⟩]

/-- Registers of the CLK page, Table CLK-3. -/
def regsCLK : List RegFam := [
  ⟨0x40, 4, 1, 4, 1, [⟨5, 4, .rws, 0, .u 0 2⟩, ⟨1, 0, .rws, 0, .u 0 2⟩]⟩,
  ⟨0x80, 4, 8, 4, 1, [⟨30, 28, .rws, 0, .u 0 5⟩, ⟨25, 24, .rws, 0, .u 0 2⟩, ⟨9, 0, .rws, 1, .u 1 1023⟩]⟩,
  ⟨0x440, 4, 1, 4, 1, [⟨12, 12, .roh, 1, .any⟩, ⟨8, 8, .roh, 0, .any⟩, ⟨6, 4, .roh, 0, .any⟩, ⟨2, 0, .roh, 0, .any⟩]⟩,
  ⟨0x444, 4, 1, 4, 1, [⟨13, 8, .roh, 0, .any⟩, ⟨5, 0, .roh, 0, .any⟩]⟩,
  ⟨0x448, 4, 1, 4, 1, [⟨15, 8, .roh, 0, .any⟩, ⟨7, 0, .roh, 0, .any⟩]⟩,
  ⟨0x44C, 4, 1, 4, 1, [⟨31, 0, .roh, 0, .any⟩]⟩,
  ⟨0x450, 4, 1, 4, 1, [⟨31, 28, .roh, 0, .any⟩, ⟨15, 0, .roh, 0, .any⟩]⟩,
  ⟨0x454, 4, 1, 4, 1, [⟨31, 0, .roh, 0, .any⟩]⟩,
  ⟨0x458, 4, 1, 4, 1, [⟨31, 0, .roh, 0, .any⟩]⟩]

/-- Registers of the RST page, Table RST-4. -/
def regsRST : List RegFam := [
  ⟨0x40, 4, 1, 4, 1, [⟨16, 16, .rws, 1, .any⟩, ⟨9, 0, .rws, 0x64, .u 10 1000⟩]⟩,
  ⟨0x440, 4, 1, 4, 1, [⟨15, 0, .wo, 0, .any⟩]⟩,
  ⟨0x444, 4, 1, 4, 1, [⟨31, 31, .roh, 0, .any⟩, ⟨30, 30, .roh, 0, .any⟩, ⟨10, 8, .roh, 0, .any⟩, ⟨7, 0, .roh, 0, .any⟩]⟩,
  ⟨0x448, 4, 1, 4, 1, [⟨7, 0, .roh, 0, .any⟩, ⟨15, 8, .roh, 0, .any⟩, ⟨23, 16, .roh, 0, .any⟩, ⟨31, 24, .roh, 0, .any⟩]⟩,
  ⟨0x44C, 4, 1, 4, 1, [⟨31, 0, .roh, 0, .any⟩]⟩]

/-- Registers of the HIF page, Table HIF-5. -/
def regsHIF : List RegFam := [
  ⟨0x40, 4, 1, 4, 1, [⟨8, 8, .roh, 0, .any⟩, ⟨7, 4, .roh, 0, .any⟩, ⟨3, 0, .roh, 0, .any⟩]⟩,
  ⟨0x44, 4, 1, 4, 1, [⟨15, 8, .rw, 1, .u 1 64⟩, ⟨1, 1, .rw, 0, .any⟩, ⟨0, 0, .rw, 0, .any⟩]⟩,
  ⟨0x48, 4, 1, 4, 1, [⟨31, 0, .rws, 0, .al 4096⟩]⟩,
  ⟨0x4C, 4, 1, 4, 1, [⟨31, 0, .rws, 0, .any⟩]⟩,
  ⟨0x50, 4, 1, 4, 1, [⟨31, 0, .rws, 0, .al 4096⟩]⟩,
  ⟨0x54, 4, 1, 4, 1, [⟨31, 0, .rws, 0, .any⟩]⟩,
  ⟨0x58, 4, 1, 4, 1, [⟨9, 0, .rw, 0, .any⟩]⟩,
  ⟨0x5C, 4, 1, 4, 1, [⟨16, 16, .roh, 1, .any⟩, ⟨9, 0, .roh, 0, .any⟩]⟩,
  ⟨0x60, 4, 1, 4, 1, [⟨11, 0, .rw, 0, .any⟩]⟩,
  ⟨0x64, 4, 1, 4, 1, [⟨16, 16, .roh, 1, .any⟩, ⟨11, 0, .roh, 0, .any⟩]⟩,
  ⟨0x68, 4, 1, 4, 1, [⟨31, 0, .roh, 0, .any⟩]⟩,
  ⟨0x6C, 4, 1, 4, 1, [⟨9, 9, .rw, 1, .any⟩, ⟨8, 8, .rw, 0, .any⟩, ⟨6, 0, .rw, 0x4A, .u 8 119⟩]⟩,
  ⟨0x70, 4, 1, 4, 1, [⟨31, 0, .roh, 0, .any⟩]⟩,
  ⟨0x74, 4, 1, 4, 1, [⟨15, 8, .roh, 0, .any⟩, ⟨7, 0, .roh, 0, .any⟩]⟩]

/-- Registers of the EVT page, Table EVT-1. -/
def regsEVT : List RegFam := [
  ⟨0x40, 4, 6, 4, 1, [⟨7, 0, .rw, 1, .vec⟩, ⟨15, 8, .rw, 1, .vec⟩, ⟨23, 16, .rw, 1, .vec⟩, ⟨31, 24, .rw, 1, .vec⟩]⟩,
  ⟨0x58, 4, 1, 4, 1, [⟨7, 0, .rw, 1, .vec⟩, ⟨15, 8, .ro, 3, .any⟩, ⟨23, 16, .ro, 3, .any⟩, ⟨31, 24, .rw, 1, .vec⟩]⟩,
  ⟨0x5C, 4, 1, 4, 1, [⟨7, 0, .rw, 1, .vec⟩, ⟨15, 8, .rw, 1, .vec⟩, ⟨23, 16, .rw, 1, .vec⟩, ⟨31, 24, .rw, 1, .vec⟩]⟩,
  ⟨0x60, 4, 1, 4, 1, [⟨7, 0, .rw, 1, .vec⟩, ⟨15, 8, .rw, 1, .vec⟩]⟩]

/-- Registers of the AON page, Table AON-1. -/
def regsAON : List RegFam := [
  ⟨0x40, 4, 1, 4, 1, [⟨5, 5, .rw, 1, .any⟩, ⟨4, 4, .rw, 1, .any⟩, ⟨3, 3, .rw, 1, .any⟩, ⟨2, 2, .rw, 1, .any⟩, ⟨1, 1, .ro, 1, .any⟩, ⟨0, 0, .rw, 1, .any⟩]⟩,
  ⟨0x44, 4, 1, 4, 1, [⟨31, 0, .rw, 0xFFFFFFFF, .any⟩]⟩,
  ⟨0x440, 4, 1, 4, 1, [⟨31, 31, .w1c, 0, .any⟩, ⟨27, 16, .w1c, 0, .any⟩, ⟨4, 0, .w1c, 0, .any⟩]⟩,
  ⟨0x444, 4, 1, 4, 1, [⟨30, 28, .roh, 0, .any⟩, ⟨20, 16, .roh, 0, .any⟩, ⟨15, 0, .roh, 0, .any⟩]⟩,
  ⟨0x448, 4, 1, 4, 1, [⟨23, 0, .w1c, 0, .any⟩]⟩,
  ⟨0x44C, 4, 1, 4, 1, [⟨15, 0, .w1c, 0, .any⟩]⟩,
  ⟨0x450, 4, 1, 4, 1, [⟨31, 0, .roh, 0, .any⟩]⟩,
  ⟨0x454, 4, 1, 4, 1, [⟨31, 0, .roh, 0, .any⟩]⟩,
  ⟨0x458, 4, 1, 4, 1, [⟨31, 0, .roh, 0, .any⟩]⟩]

/-- Registers of the RTC page, Table RTC-1. -/
def regsRTC : List RegFam := [
  ⟨0x40, 4, 1, 4, 1, [⟨31, 0, .rw, 0, .any⟩]⟩,
  ⟨0x44, 4, 1, 4, 1, [⟨0, 0, .rw, 0, .any⟩]⟩,
  ⟨0x440, 4, 1, 4, 1, [⟨31, 0, .roh, 0, .any⟩]⟩,
  ⟨0x444, 4, 1, 4, 1, [⟨31, 16, .roh, 0, .any⟩, ⟨12, 8, .roh, 1, .any⟩, ⟨4, 4, .roh, 0, .any⟩, ⟨3, 3, .roh, 0, .any⟩, ⟨2, 2, .roh, 0, .any⟩, ⟨1, 1, .roh, 0, .any⟩, ⟨0, 0, .roh, 0, .any⟩]⟩,
  ⟨0x448, 4, 1, 4, 1, [⟨31, 0, .roh, 0, .any⟩]⟩,
  ⟨0x44C, 4, 1, 4, 1, [⟨31, 0, .roh, 0, .any⟩]⟩,
  ⟨0x450, 4, 1, 4, 1, [⟨31, 0, .roh, 0, .any⟩]⟩,
  ⟨0x454, 4, 1, 4, 1, [⟨31, 0, .roh, 0, .any⟩]⟩]

/-- Registers of the DTM page, Table DTM-2. -/
def regsDTM : List RegFam := [
  ⟨0x40, 4, 1, 4, 1, [⟨31, 24, .rws, 0x14, .u 5 100⟩, ⟨23, 16, .rws, 0xF, .u 5 50⟩, ⟨15, 0, .rws, 0x41A, .u 850 1150⟩]⟩,
  ⟨0x44, 4, 1, 4, 1, [⟨31, 24, .rws, 0xA, .u 1 255⟩, ⟨23, 16, .rws, 0x96, .u 50 250⟩, ⟨15, 0, .rws, 0x4E2, .u 1150 1250⟩]⟩,
  ⟨0x440, 4, 8, 4, 1, [⟨31, 31, .roh, 0, .any⟩, ⟨15, 0, .roh, 0, .any⟩]⟩,
  ⟨0x460, 4, 1, 4, 1, [⟨31, 16, .roh, 0, .any⟩, ⟨10, 8, .roh, 0, .any⟩, ⟨2, 0, .roh, 0, .any⟩]⟩,
  ⟨0x464, 4, 1, 4, 1, [⟨31, 0, .roh, 0, .any⟩]⟩,
  ⟨0x468, 4, 1, 4, 1, [⟨15, 0, .roh, 0, .any⟩]⟩]

/-- Registers of the OPE page, Table OPE-4. -/
def regsOPE : List RegFam := [
  ⟨0x40, 4, 1, 4, 1, [⟨9, 0, .rws, 0, .any⟩]⟩,
  ⟨0x44, 4, 1, 4, 1, [⟨10, 0, .rws, 0x40, .u 16 1024⟩]⟩,
  ⟨0x440, 4, 1, 4, 1, [⟨0, 0, .rw, 0, .any⟩]⟩,
  ⟨0x444, 4, 1, 4, 1, [⟨9, 0, .rw, 0, .any⟩]⟩,
  ⟨0x448, 4, 1, 4, 1, [⟨9, 0, .roh, 0, .any⟩]⟩,
  ⟨0x44C, 4, 1, 4, 1, [⟨24, 16, .roh, 0, .any⟩, ⟨8, 0, .roh, 0, .any⟩]⟩,
  ⟨0x450, 4, 1, 4, 1, [⟨10, 0, .roh, 0x400, .any⟩]⟩,
  ⟨0x454, 4, 1, 4, 1, [⟨31, 0, .roh, 0, .any⟩]⟩,
  ⟨0x458, 4, 1, 4, 1, [⟨31, 0, .roh, 0, .any⟩]⟩,
  ⟨0x45C, 4, 1, 4, 1, [⟨31, 0, .roh, 0, .any⟩]⟩,
  ⟨0x460, 4, 1, 4, 1, [⟨31, 0, .roh, 0, .any⟩]⟩,
  ⟨0x464, 4, 1, 4, 1, [⟨31, 0, .roh, 0, .any⟩]⟩,
  ⟨0x468, 4, 1, 4, 1, [⟨29, 20, .roh, 0, .any⟩, ⟨19, 10, .roh, 0, .any⟩, ⟨9, 0, .roh, 0, .any⟩]⟩,
  ⟨0x480, 4, 12, 4, 1, [⟨31, 0, .roh, 0, .any⟩]⟩]

/-- Registers of the JNL page, Table JNL-2. -/
def regsJNL : List RegFam := [
  ⟨0x40, 4, 1, 4, 1, [⟨15, 0, .rws, 0x2000, .u 1024 32768⟩]⟩,
  ⟨0x440, 4, 1, 4, 1, [⟨15, 0, .roh, 0x40, .any⟩]⟩,
  ⟨0x444, 4, 1, 4, 1, [⟨15, 0, .roh, 0x40, .any⟩]⟩,
  ⟨0x448, 4, 1, 4, 1, [⟨31, 0, .roh, 0, .any⟩]⟩,
  ⟨0x44C, 4, 1, 4, 1, [⟨31, 0, .roh, 0, .any⟩]⟩,
  ⟨0x450, 4, 1, 4, 1, [⟨15, 0, .roh, 0xFFC0, .any⟩]⟩,
  ⟨0x454, 4, 1, 4, 1, [⟨15, 0, .roh, 0x168, .any⟩]⟩,
  ⟨0x458, 4, 1, 4, 1, [⟨15, 0, .roh, 0, .any⟩]⟩,
  ⟨0x45C, 4, 1, 4, 1, [⟨31, 0, .roh, 0, .any⟩]⟩,
  ⟨0x460, 4, 1, 4, 1, [⟨15, 0, .roh, 0, .any⟩]⟩,
  ⟨0x464, 4, 1, 4, 1, [⟨8, 8, .roh, 0, .any⟩, ⟨5, 0, .roh, 0, .any⟩]⟩,
  ⟨0x468, 4, 1, 4, 1, [⟨15, 0, .rw, 0, .any⟩]⟩,
  ⟨0x480, 4, 16, 4, 1, [⟨31, 0, .roh, 0, .any⟩]⟩]

/-- Registers of the ALC page, Table ALC-13; Table ALC-9. -/
def regsALC : List RegFam := [
  ⟨0x40, 4, 1, 4, 1, [⟨23, 16, .rws, 0x32, .u 0 255⟩, ⟨10, 8, .rws, 2, .u 1 4⟩, ⟨1, 1, .rws, 1, .any⟩, ⟨0, 0, .rws, 0, .any⟩]⟩,
  ⟨0x44, 4, 1, 4, 1, [⟨19, 16, .rws, 4, .u 0 4⟩, ⟨13, 0, .rws, 0x3E8, .mul 500 10000 100⟩]⟩,
  ⟨0x48, 4, 1, 4, 1, [⟨31, 0, .rws, 0, .u 0 120000000⟩]⟩,
  ⟨0x4C, 4, 1, 4, 1, [⟨31, 0, .rws, 0, .u 0 10000000⟩]⟩,
  ⟨0x50, 4, 1, 4, 1, [⟨13, 0, .rws, 0x25B2, .u 8000 10000⟩]⟩,
  ⟨0x54, 4, 1, 4, 1, [⟨31, 0, .rws, 0, .u 0 120000000⟩]⟩,
  ⟨0x58, 4, 1, 4, 1, [⟨15, 0, .rws, 0, .z 100 60000⟩]⟩,
  ⟨0x5C, 4, 1, 4, 1, [⟨31, 0, .rws, 0, .any⟩]⟩,
  ⟨0x60, 4, 1, 4, 1, [⟨7, 0, .rws, 0x14, .u 5 200⟩]⟩,
  ⟨0x80, 4, 1, 4, 1, [⟨31, 16, .rws, 0x3E8, .u 0 4000⟩, ⟨7, 0, .rws, 8, .u 1 255⟩]⟩,
  ⟨0x88, 4, 1, 4, 1, [⟨31, 16, .rws, 0x1F4, .u 0 4000⟩, ⟨7, 0, .rws, 4, .u 1 255⟩]⟩,
  ⟨0x90, 4, 1, 4, 1, [⟨31, 16, .rws, 0xFA, .u 0 4000⟩, ⟨7, 0, .rws, 2, .u 1 255⟩]⟩,
  ⟨0x98, 4, 1, 4, 1, [⟨31, 16, .rws, 0, .u 0 4000⟩, ⟨7, 0, .rws, 1, .u 1 255⟩]⟩,
  ⟨0x84, 8, 4, 4, 1, [⟨31, 0, .rws, 0xFFFFFFFF, .any⟩]⟩,
  ⟨0xC0, 4, 16, 4, 1, [⟨31, 16, .rws, 0x2EE, .any⟩, ⟨15, 0, .rws, 0x258, .any⟩]⟩,
  ⟨0x100, 4, 16, 4, 1, [⟨15, 8, .rws, 0x32, .u 0 100⟩, ⟨7, 7, .rws, 0, .any⟩, ⟨5, 0, .rws, 0, .u 0 63⟩]⟩,
  ⟨0x140, 4, 6, 4, 1, [⟨3, 0, .rws, 0, .any⟩, ⟨7, 4, .rws, 0, .any⟩, ⟨11, 8, .rws, 0, .any⟩, ⟨15, 12, .rws, 0, .any⟩, ⟨19, 16, .rws, 0, .any⟩, ⟨23, 20, .rws, 0, .any⟩, ⟨27, 24, .rws, 0, .any⟩, ⟨31, 28, .rws, 0, .any⟩]⟩,
  ⟨0x160, 4, 32, 4, 1, [⟨19, 16, .rws, 8, .u 1 8⟩, ⟨15, 0, .rws, 0x64, .u 1 10000⟩]⟩,
  ⟨0x440, 4, 1, 4, 1, [⟨31, 0, .rw, 0, .u 0 120000000⟩]⟩,
  ⟨0x444, 4, 1, 4, 1, [⟨31, 0, .roh, 0, .any⟩]⟩,
  ⟨0x448, 4, 1, 4, 1, [⟨31, 16, .roh, 0, .any⟩, ⟨4, 4, .roh, 0, .any⟩, ⟨3, 3, .roh, 0, .any⟩, ⟨2, 2, .roh, 0, .any⟩, ⟨1, 1, .roh, 0, .any⟩, ⟨0, 0, .roh, 0, .any⟩]⟩,
  ⟨0x44C, 4, 1, 4, 1, [⟨31, 0, .roh, 0, .any⟩]⟩,
  ⟨0x450, 4, 1, 4, 1, [⟨31, 0, .roh, 0, .any⟩]⟩,
  ⟨0x454, 4, 1, 4, 1, [⟨31, 0, .roh, 0, .any⟩]⟩,
  ⟨0x458, 4, 1, 4, 1, [⟨31, 0, .roh, 0, .any⟩]⟩,
  ⟨0x45C, 4, 1, 4, 1, [⟨31, 0, .roh, 0, .any⟩]⟩,
  ⟨0x460, 4, 1, 4, 1, [⟨31, 31, .wo, 0, .any⟩, ⟨23, 20, .wo, 0, .any⟩, ⟨13, 8, .wo, 0, .u 0 47⟩, ⟨4, 0, .wo, 0, .any⟩]⟩,
  ⟨0x464, 4, 4, 4, 1, [⟨31, 28, .roh, 0, .any⟩, ⟨27, 24, .roh, 0, .any⟩, ⟨20, 16, .roh, 0, .any⟩, ⟨13, 8, .roh, 0, .any⟩, ⟨4, 0, .roh, 0, .any⟩]⟩,
  ⟨0x480, 4, 12, 4, 1, [⟨7, 5, .roh, 0, .any⟩, ⟨15, 13, .roh, 0, .any⟩, ⟨23, 21, .roh, 0, .any⟩, ⟨31, 29, .roh, 0, .any⟩, ⟨4, 0, .roh, 0, .any⟩, ⟨12, 8, .roh, 0, .any⟩, ⟨20, 16, .roh, 0, .any⟩, ⟨28, 24, .roh, 0, .any⟩]⟩,
  ⟨0x500, 4, 32, 4, 1, [⟨31, 0, .roh, 0, .any⟩]⟩,
  ⟨0x580, 4, 32, 4, 1, [⟨31, 28, .roh, 0, .any⟩, ⟨27, 24, .roh, 0, .any⟩, ⟨23, 22, .roh, 0, .any⟩, ⟨21, 21, .roh, 0, .any⟩, ⟨15, 0, .roh, 0, .any⟩]⟩,
  ⟨0xC00, 0xA0, 4, 4, 1, [⟨31, 28, .roh, 0, .any⟩, ⟨27, 24, .roh, 0, .any⟩, ⟨23, 20, .roh, 0, .any⟩, ⟨13, 8, .roh, 0, .any⟩, ⟨4, 0, .roh, 0, .any⟩]⟩,
  ⟨0xC04, 0xA0, 4, 4, 1, [⟨31, 0, .roh, 0, .any⟩]⟩,
  ⟨0xC08, 0xA0, 4, 4, 1, [⟨31, 0, .roh, 0, .any⟩]⟩,
  ⟨0xC0C, 0xA0, 4, 4, 1, [⟨31, 0, .roh, 0, .any⟩]⟩,
  ⟨0xC10, 0xA0, 4, 4, 1, [⟨31, 0, .roh, 0, .any⟩]⟩,
  ⟨0xC14, 0xA0, 4, 4, 1, [⟨31, 0, .roh, 0, .any⟩]⟩,
  ⟨0xC20, 0xA0, 4, 4, 32, [⟨31, 0, .roh, 0, .any⟩]⟩,
  ⟨0xF00, 4, 1, 4, 1, [⟨31, 0, .roh, 0, .any⟩]⟩,
  ⟨0xF04, 4, 1, 4, 1, [⟨31, 0, .roh, 0, .any⟩]⟩,
  ⟨0xF08, 4, 5, 4, 1, [⟨31, 0, .roh, 0, .any⟩]⟩,
  ⟨0xF20, 4, 4, 4, 1, [⟨31, 0, .roh, 0, .any⟩]⟩,
  ⟨0xF40, 4, 1, 4, 1, [⟨31, 31, .roh, 0, .any⟩, ⟨23, 20, .roh, 0, .any⟩, ⟨17, 16, .roh, 0, .any⟩]⟩,
  ⟨0xF44, 4, 1, 4, 1, [⟨31, 0, .roh, 0, .any⟩]⟩]

/-- Registers of the CLE page, Table CLE-3. -/
def regsCLE : List RegFam := [
  ⟨0x40, 4, 1, 4, 1, [⟨11, 8, .rws, 4, .u 1 8⟩, ⟨7, 0, .rws, 0x1E, .u 10 40⟩]⟩,
  ⟨0x440, 4, 1, 4, 1, [⟨31, 0, .roh, 0, .any⟩]⟩,
  ⟨0x444, 4, 1, 4, 1, [⟨31, 0, .roh, 0, .any⟩]⟩,
  ⟨0x448, 4, 1, 4, 1, [⟨7, 0, .roh, 0, .any⟩]⟩]

/-- Registers of the STR page, Table STR-1; Table STR-4; Table STR-9. -/
def regsSTR : List RegFam := [
  ⟨0xC00, 4, 1, 4, 1, [⟨31, 28, .roh, 0, .any⟩, ⟨27, 24, .roh, 0, .any⟩, ⟨10, 8, .roh, 0, .any⟩, ⟨3, 0, .roh, 0, .any⟩]⟩,
  ⟨0xC04, 4, 1, 4, 1, [⟨31, 0, .roh, 0, .any⟩]⟩,
  ⟨0xC08, 4, 1, 4, 1, [⟨31, 0, .roh, 0, .any⟩]⟩,
  ⟨0xC10, 4, 8, 4, 1, [⟨15, 0, .roh, 0, .any⟩]⟩,
  ⟨0xC30, 4, 1, 4, 1, [⟨31, 0, .roh, 0, .any⟩]⟩,
  ⟨0xC40, 4, 1, 4, 1, [⟨31, 0, .roh, 0, .any⟩]⟩,
  ⟨0xC44, 4, 1, 4, 1, [⟨31, 0, .roh, 0, .any⟩]⟩,
  ⟨0x40, 4, 1, 4, 1, [⟨5, 5, .rws, 0, .any⟩, ⟨4, 4, .rws, 0, .any⟩, ⟨3, 0, .rws, 8, .u 1 8⟩]⟩,
  ⟨0x44, 4, 1, 4, 1, [⟨17, 0, .rws, 0x6400, .u 10240 128000⟩]⟩,
  ⟨0x48, 4, 1, 4, 1, [⟨0, 0, .rws, 0, .any⟩]⟩,
  ⟨0x4C, 4, 1, 4, 1, [⟨31, 0, .rws, 0x7A120, .any⟩]⟩,
  ⟨0x50, 4, 1, 4, 1, [⟨31, 0, .rws, 0x7A120, .u 0 1000000⟩]⟩,
  ⟨0x54, 4, 1, 4, 1, [⟨31, 0, .rws, 0xF333333, .s (0) 268435456⟩]⟩,
  ⟨0x58, 4, 1, 4, 1, [⟨31, 0, .rws, 0, .any⟩]⟩,
  ⟨0x5C, 4, 1, 4, 1, [⟨31, 16, .rws, 0xCCD, .any⟩, ⟨15, 0, .rws, 0x800, .u 0 32767⟩]⟩,
  ⟨0x60, 4, 1, 4, 1, [⟨31, 0, .rws, 0x7A120, .any⟩]⟩,
  ⟨0x64, 4, 1, 4, 1, [⟨14, 0, .rws, 0x2710, .u 1 32767⟩]⟩,
  ⟨0x68, 4, 1, 4, 1, [⟨11, 8, .rws, 0, .u 0 11⟩, ⟨2, 0, .rws, 0, .u 0 7⟩]⟩,
  ⟨0x80, 0x40, 2, 4, 1, [⟨31, 0, .rws, 0, .any⟩]⟩,
  ⟨0x84, 0x40, 2, 4, 1, [⟨31, 0, .rws, 0, .any⟩]⟩,
  ⟨0x88, 0x40, 2, 4, 1, [⟨31, 0, .rws, 0, .s (0) 268435456⟩]⟩,
  ⟨0x8C, 0x40, 2, 4, 1, [⟨31, 0, .rws, 0, .any⟩]⟩,
  ⟨0x90, 0x40, 2, 4, 1, [⟨31, 0, .rws, 0, .any⟩]⟩,
  ⟨0x94, 0x40, 2, 4, 1, [⟨31, 0, .rws, 0, .any⟩]⟩,
  ⟨0x98, 0x40, 2, 4, 1, [⟨31, 0, .rws, 0, .s (0) 268435456⟩]⟩,
  ⟨0x9C, 0x40, 2, 4, 1, [⟨31, 0, .rws, 0, .any⟩]⟩,
  ⟨0xA0, 0x40, 2, 4, 1, [⟨31, 0, .rws, 0x10000000, .any⟩]⟩,
  ⟨0xA4, 0x40, 2, 4, 1, [⟨31, 0, .rws, 0, .any⟩]⟩,
  ⟨0xA8, 0x40, 2, 4, 1, [⟨20, 16, .rws, 0x16, .any⟩, ⟨12, 8, .rws, 0x10, .any⟩, ⟨4, 0, .rws, 0x14, .any⟩]⟩,
  ⟨0x440, 4, 1, 4, 1, [⟨31, 28, .roh, 0, .any⟩, ⟨8, 8, .roh, 0, .any⟩, ⟨7, 4, .roh, 0, .any⟩, ⟨0, 0, .roh, 0, .any⟩]⟩,
  ⟨0x444, 4, 1, 4, 1, [⟨7, 0, .roh, 0, .any⟩]⟩,
  ⟨0x448, 4, 1, 4, 1, [⟨7, 0, .wo, 0, .any⟩]⟩,
  ⟨0x44C, 4, 1, 4, 1, [⟨31, 0, .roh, 0, .any⟩]⟩,
  ⟨0x450, 4, 1, 4, 1, [⟨31, 0, .roh, 0, .any⟩]⟩,
  ⟨0x454, 4, 1, 4, 1, [⟨31, 0, .roh, 0, .any⟩]⟩,
  ⟨0x458, 4, 1, 4, 1, [⟨31, 0, .roh, 0, .any⟩]⟩,
  ⟨0x45C, 4, 1, 4, 1, [⟨31, 0, .roh, 0, .any⟩]⟩,
  ⟨0x460, 4, 1, 4, 1, [⟨31, 0, .roh, 0, .any⟩]⟩,
  ⟨0x480, 4, 8, 4, 1, [⟨15, 0, .roh, 0, .any⟩]⟩,
  ⟨0x4A0, 4, 8, 4, 1, [⟨15, 0, .roh, 0, .any⟩]⟩,
  ⟨0x100, 4, 1, 4, 1, [⟨2, 0, .rws, 0, .any⟩, ⟨6, 4, .rws, 1, .any⟩, ⟨10, 8, .rws, 2, .any⟩, ⟨14, 12, .rws, 3, .any⟩, ⟨18, 16, .rws, 4, .any⟩, ⟨22, 20, .rws, 5, .any⟩, ⟨26, 24, .rws, 6, .any⟩, ⟨30, 28, .rws, 7, .any⟩]⟩,
  ⟨0x104, 4, 1, 4, 1, [⟨31, 16, .rws, 0x200, .u 0 4096⟩, ⟨15, 0, .rws, 0x200, .u 0 4096⟩]⟩,
  ⟨0x108, 4, 1, 4, 1, [⟨15, 8, .rws, 0x40, .u 1 255⟩, ⟨7, 0, .rws, 8, .u 1 255⟩]⟩,
  ⟨0x10C, 4, 1, 4, 1, [⟨31, 31, .rws, 0, .any⟩, ⟨19, 16, .rws, 2, .any⟩, ⟨15, 0, .rws, 0x7D0, .u 0 65535⟩]⟩,
  ⟨0x110, 4, 1, 4, 1, [⟨31, 16, .rws, 0xA, .u 0 1000⟩, ⟨15, 0, .rws, 0x1F4, .u 1 65535⟩]⟩,
  ⟨0x114, 4, 7, 4, 1, [⟨31, 16, .rws, 0x64, .any⟩, ⟨15, 0, .rws, 0x12C, .any⟩]⟩,
  ⟨0x130, 4, 1, 4, 1, [⟨23, 16, .rws, 0x10, .u 1 255⟩, ⟨15, 0, .rws, 0x1F4, .u 10 10000⟩]⟩,
  ⟨0x4C0, 4, 1, 4, 1, [⟨26, 24, .roh, 0, .any⟩, ⟨20, 20, .roh, 0, .any⟩, ⟨16, 16, .roh, 0, .any⟩, ⟨15, 8, .roh, 0, .any⟩, ⟨7, 0, .roh, 0, .any⟩]⟩,
  ⟨0x4C4, 4, 1, 4, 1, [⟨31, 0, .roh, 0, .any⟩]⟩,
  ⟨0x4C8, 4, 1, 4, 1, [⟨31, 0, .roh, 0, .any⟩]⟩,
  ⟨0x4CC, 4, 1, 4, 1, [⟨31, 0, .roh, 0, .any⟩]⟩]

/-- Registers of the AUX page, Table AUX-1. -/
def regsAUX : List RegFam := [
  ⟨0x40, 4, 1, 4, 1, [⟨16, 16, .rws, 0, .any⟩, ⟨13, 8, .rws, 0, .u 0 63⟩, ⟨1, 1, .rws, 0, .any⟩, ⟨0, 0, .rws, 1, .any⟩]⟩,
  ⟨0x44, 4, 1, 4, 1, [⟨23, 16, .rws, 0, .any⟩, ⟨11, 8, .rws, 0, .u 0 11⟩, ⟨2, 0, .rws, 0, .u 0 7⟩]⟩,
  ⟨0x48, 4, 1, 4, 1, [⟨31, 31, .rws, 0, .any⟩, ⟨23, 16, .rws, 0, .any⟩, ⟨14, 12, .rws, 0, .u 0 7⟩, ⟨11, 8, .rws, 0, .u 0 11⟩, ⟨4, 0, .rws, 0, .u 0 23⟩]⟩,
  ⟨0x4C, 4, 1, 4, 1, [⟨31, 0, .rws, 0x10000000, .s (0) 268435456⟩]⟩,
  ⟨0x50, 4, 1, 4, 1, [⟨31, 0, .rws, 0, .any⟩]⟩,
  ⟨0x54, 4, 1, 4, 1, [⟨31, 0, .rws, 0x10000000, .s (0) 268435456⟩]⟩,
  ⟨0x60, 0x20, 2, 4, 1, [⟨31, 0, .rws, 0, .any⟩]⟩,
  ⟨0x64, 0x20, 2, 4, 1, [⟨31, 0, .rws, 0, .any⟩]⟩,
  ⟨0x68, 0x20, 2, 4, 1, [⟨31, 0, .rws, 0, .s (0) 268435456⟩]⟩,
  ⟨0x6C, 0x20, 2, 4, 1, [⟨31, 0, .rws, 0, .any⟩]⟩,
  ⟨0x70, 0x20, 2, 4, 1, [⟨4, 0, .rws, 0xC, .any⟩]⟩,
  ⟨0x440, 4, 1, 4, 1, [⟨31, 0, .rw, 0, .any⟩]⟩,
  ⟨0x444, 4, 1, 4, 1, [⟨3, 3, .roh, 0, .any⟩, ⟨2, 2, .roh, 0, .any⟩, ⟨1, 1, .roh, 0, .any⟩, ⟨0, 0, .roh, 0, .any⟩]⟩,
  ⟨0x448, 4, 1, 4, 1, [⟨31, 0, .roh, 0, .any⟩]⟩,
  ⟨0x44C, 4, 1, 4, 1, [⟨31, 0, .roh, 0, .any⟩]⟩]

/-- Registers of the OUT page, Table OUT-11; Table OUT-2; Table OUT-7. -/
def regsOUT : List RegFam := [
  ⟨0x300, 4, 1, 4, 1, [⟨0, 0, .rws, 0, .any⟩]⟩,
  ⟨0x304, 4, 1, 4, 1, [⟨31, 16, .rws, 0x1388, .u 1 65535⟩, ⟨15, 0, .rws, 0x3E8, .u 1 65535⟩]⟩,
  ⟨0x308, 4, 1, 4, 1, [⟨31, 0, .rws, 0x8000000, .s (-268435456) 268435456⟩]⟩,
  ⟨0x30C, 4, 1, 4, 1, [⟨31, 0, .rws, 0xF8000000, .any⟩]⟩,
  ⟨0x310, 0x40, 2, 4, 1, [⟨31, 0, .rws, 0, .any⟩]⟩,
  ⟨0x314, 0x40, 2, 4, 1, [⟨31, 0, .rws, 0, .any⟩]⟩,
  ⟨0x318, 0x40, 2, 4, 1, [⟨31, 0, .rws, 0, .s (0) 268435456⟩]⟩,
  ⟨0x31C, 0x40, 2, 4, 1, [⟨31, 0, .rws, 0, .any⟩]⟩,
  ⟨0x320, 0x40, 2, 4, 1, [⟨31, 0, .rws, 0, .any⟩]⟩,
  ⟨0x324, 0x40, 2, 4, 1, [⟨31, 0, .rws, 0, .any⟩]⟩,
  ⟨0x328, 0x40, 2, 4, 1, [⟨31, 0, .rws, 0, .s (0) 268435456⟩]⟩,
  ⟨0x32C, 0x40, 2, 4, 1, [⟨31, 0, .rws, 0, .any⟩]⟩,
  ⟨0x330, 0x40, 2, 4, 1, [⟨12, 8, .rws, 0x15, .any⟩, ⟨4, 0, .rws, 0x16, .any⟩]⟩,
  ⟨0x700, 4, 1, 4, 1, [⟨20, 16, .roh, 0, .any⟩, ⟨12, 12, .roh, 0, .any⟩, ⟨8, 8, .roh, 0, .any⟩, ⟨5, 4, .roh, 0, .any⟩, ⟨1, 0, .roh, 3, .any⟩]⟩,
  ⟨0x704, 4, 1, 4, 1, [⟨31, 0, .roh, 0, .any⟩]⟩,
  ⟨0x708, 4, 1, 4, 1, [⟨31, 0, .roh, 0, .any⟩]⟩,
  ⟨0x70C, 4, 1, 4, 1, [⟨31, 0, .roh, 0, .any⟩]⟩,
  ⟨0x710, 4, 1, 4, 1, [⟨31, 0, .roh, 0, .any⟩]⟩,
  ⟨0x714, 4, 1, 4, 1, [⟨31, 0, .roh, 0, .any⟩]⟩,
  ⟨0x718, 4, 1, 4, 1, [⟨31, 0, .roh, 0, .any⟩]⟩,
  ⟨0x380, 4, 1, 4, 1, [⟨31, 16, .rws, 0xC8, .u 10 2000⟩, ⟨15, 8, .rws, 5, .u 1 50⟩, ⟨7, 0, .rws, 0x14, .u 1 255⟩]⟩,
  ⟨0x384, 4, 1, 4, 1, [⟨31, 24, .rws, 2, .u 2 20⟩, ⟨15, 0, .rws, 0x64, .u 1 500⟩]⟩,
  ⟨0x388, 4, 1, 4, 1, [⟨31, 16, .rws, 0x7D0, .u 10 10000⟩, ⟨15, 0, .rws, 0x3E8, .u 1 10000⟩]⟩,
  ⟨0x38C, 4, 1, 4, 1, [⟨31, 16, .rws, 0x64, .u 0 2000⟩, ⟨15, 0, .rws, 5, .u 1 500⟩]⟩,
  ⟨0x390, 4, 1, 4, 1, [⟨31, 31, .rws, 0, .any⟩, ⟨25, 16, .rws, 0x12C, .u 100 1000⟩, ⟨15, 8, .rws, 0x3C, .u 20 60⟩, ⟨7, 0, .rws, 0x32, .u 1 255⟩]⟩,
  ⟨0x394, 4, 1, 4, 1, [⟨23, 16, .rws, 0, .any⟩, ⟨11, 8, .rws, 0, .u 0 11⟩, ⟨2, 0, .rws, 0, .u 0 7⟩]⟩,
  ⟨0x720, 4, 1, 4, 1, [⟨31, 28, .roh, 0, .any⟩, ⟨3, 0, .roh, 0, .any⟩]⟩,
  ⟨0x724, 4, 1, 4, 1, [⟨3, 0, .wo, 0, .any⟩]⟩,
  ⟨0x728, 4, 1, 4, 1, [⟨31, 16, .roh, 0, .any⟩, ⟨15, 0, .roh, 0, .any⟩]⟩,
  ⟨0x40, 4, 1, 4, 1, [⟨0, 0, .rws, 0, .any⟩]⟩,
  ⟨0x44, 4, 1, 4, 1, [⟨31, 0, .rws, 0, .any⟩]⟩,
  ⟨0x48, 4, 1, 4, 1, [⟨31, 0, .rws, 0, .any⟩]⟩,
  ⟨0x4C, 4, 1, 4, 1, [⟨31, 0, .rws, 0, .any⟩]⟩,
  ⟨0x50, 4, 1, 4, 1, [⟨23, 16, .rws, 0, .u 0 249⟩, ⟨11, 8, .rws, 0, .u 0 11⟩, ⟨2, 0, .rws, 0, .u 0 7⟩]⟩,
  ⟨0x54, 4, 1, 4, 1, [⟨31, 16, .rws, 0x1F4, .u 200 5000⟩, ⟨15, 0, .rws, 0x64, .u 100 1000⟩]⟩,
  ⟨0x58, 4, 1, 4, 1, [⟨15, 0, .rws, 0x64, .u 10 10000⟩]⟩,
  ⟨0x5C, 4, 1, 4, 1, [⟨15, 8, .rws, 0xA, .u 5 60⟩, ⟨7, 0, .rws, 5, .u 1 30⟩]⟩,
  ⟨0x440, 4, 1, 4, 1, [⟨31, 0, .roh, 0x7FFFFFFF, .any⟩]⟩,
  ⟨0x444, 4, 1, 4, 1, [⟨2, 2, .roh, 0, .any⟩, ⟨1, 1, .roh, 0, .any⟩, ⟨0, 0, .roh, 0, .any⟩]⟩,
  ⟨0x448, 4, 1, 4, 1, [⟨9, 8, .roh, 0, .any⟩, ⟨3, 2, .roh, 0, .any⟩, ⟨1, 0, .roh, 0, .any⟩]⟩,
  ⟨0x44C, 4, 1, 4, 1, [⟨1, 1, .roh, 0, .any⟩, ⟨0, 0, .roh, 0, .any⟩]⟩]

/-- Registers of the CTM page, Table CTM-3. -/
def regsCTM : List RegFam := [
  ⟨0x40, 8, 64, 4, 1, [⟨31, 31, .rws, 0, .any⟩, ⟨29, 28, .rws, 0, .u 0 1⟩, ⟨25, 24, .rws, 0, .u 0 2⟩, ⟨20, 16, .rws, 0, .u 0 31⟩, ⟨13, 8, .rws, 0, .u 0 47⟩, ⟨7, 7, .rws, 0, .any⟩, ⟨6, 4, .rws, 0, .u 0 7⟩, ⟨3, 0, .rws, 0, .u 0 11⟩]⟩,
  ⟨0x44, 8, 64, 4, 1, [⟨31, 24, .rws, 0, .any⟩, ⟨23, 16, .rws, 0, .any⟩, ⟨15, 8, .rws, 0x32, .u 5 255⟩, ⟨7, 0, .rws, 0x32, .u 5 255⟩]⟩,
  ⟨0x240, 4, 1, 4, 1, [⟨3, 0, .rws, 3, .u 1 15⟩]⟩,
  ⟨0x440, 4, 64, 4, 1, [⟨31, 28, .roh, 0, .any⟩, ⟨8, 8, .roh, 0, .any⟩, ⟨4, 4, .roh, 0, .any⟩, ⟨0, 0, .roh, 0, .any⟩]⟩,
  ⟨0x540, 4, 1, 4, 1, [⟨31, 0, .roh, 0, .any⟩]⟩,
  ⟨0x544, 4, 1, 4, 1, [⟨31, 0, .roh, 0, .any⟩]⟩]

/-- Registers of the SKN page, Table SKN-9. -/
def regsSKN : List RegFam := [
  ⟨0x40, 4, 1, 4, 1, [⟨17, 16, .rws, 0, .u 0 2⟩, ⟨11, 8, .rws, 0, .any⟩, ⟨1, 0, .rws, 0, .u 0 2⟩]⟩,
  ⟨0x44, 4, 1, 4, 1, [⟨15, 0, .rws, 0x32, .u 10 1000⟩]⟩,
  ⟨0x48, 4, 1, 4, 1, [⟨31, 16, .rws, 0x64, .u 50 10000⟩, ⟨14, 12, .rws, 3, .u 0 7⟩, ⟨11, 0, .rws, 0xC8, .u 20 4000⟩]⟩,
  ⟨0x4C, 4, 1, 4, 1, [⟨7, 0, .rws, 0xA, .u 1 100⟩]⟩,
  ⟨0x50, 4, 1, 4, 1, [⟨3, 0, .rws, 0, .u 0 3⟩, ⟨7, 4, .rws, 0, .u 0 3⟩, ⟨11, 8, .rws, 0, .u 0 3⟩, ⟨15, 12, .rws, 0, .u 0 3⟩, ⟨19, 16, .rws, 0, .u 0 3⟩, ⟨23, 20, .rws, 0, .u 0 3⟩, ⟨27, 24, .rws, 0, .u 0 3⟩, ⟨31, 28, .rws, 0, .u 0 3⟩]⟩,
  ⟨0x440, 4, 1, 4, 1, [⟨19, 16, .roh, 0, .any⟩, ⟨2, 2, .roh, 0, .any⟩, ⟨1, 1, .roh, 0, .any⟩, ⟨0, 0, .roh, 0, .any⟩]⟩,
  ⟨0x444, 4, 1, 4, 1, [⟨3, 0, .roh, 0, .any⟩, ⟨7, 4, .roh, 0, .any⟩, ⟨11, 8, .roh, 0, .any⟩, ⟨15, 12, .roh, 0, .any⟩, ⟨19, 16, .roh, 0, .any⟩, ⟨23, 20, .roh, 0, .any⟩, ⟨27, 24, .roh, 0, .any⟩, ⟨31, 28, .roh, 0, .any⟩]⟩,
  ⟨0x448, 4, 1, 4, 1, [⟨31, 16, .roh, 0, .any⟩, ⟨15, 0, .roh, 0, .any⟩]⟩,
  ⟨0x44C, 4, 1, 4, 1, [⟨31, 0, .roh, 0, .any⟩]⟩,
  ⟨0x450, 4, 1, 4, 1, [⟨31, 0, .roh, 0, .any⟩]⟩,
  ⟨0x454, 4, 1, 4, 1, [⟨31, 0, .roh, 0, .any⟩]⟩,
  ⟨0x458, 4, 1, 4, 1, [⟨31, 0, .roh, 0, .any⟩]⟩,
  ⟨0x45C, 4, 1, 4, 1, [⟨1, 0, .roh, 0, .any⟩]⟩,
  ⟨0x460, 4, 8, 4, 1, [⟨31, 0, .roh, 0, .any⟩]⟩,
  ⟨0x480, 4, 8, 4, 1, [⟨31, 16, .roh, 0, .any⟩, ⟨7, 4, .roh, 0, .any⟩, ⟨1, 1, .roh, 0, .any⟩, ⟨0, 0, .roh, 0, .any⟩]⟩]

/-- Registers of the PLY page, Table PLY-8. -/
def regsPLY : List RegFam := [
  ⟨0x40, 4, 1, 4, 1, [⟨31, 24, .rws, 0x32, .u 10 90⟩, ⟨8, 8, .rws, 0, .any⟩, ⟨4, 4, .rws, 0, .any⟩, ⟨1, 0, .rws, 0, .u 0 2⟩]⟩,
  ⟨0x44, 4, 1, 4, 1, [⟨31, 0, .rws, 0, .any⟩]⟩,
  ⟨0x48, 4, 1, 4, 1, [⟨31, 16, .rws, 0x12C, .u 30 3600⟩, ⟨7, 0, .rws, 5, .u 1 100⟩]⟩,
  ⟨0x440, 4, 1, 4, 1, [⟨31, 28, .roh, 0, .any⟩, ⟨12, 12, .roh, 0, .any⟩, ⟨11, 11, .roh, 0, .any⟩, ⟨10, 10, .roh, 0, .any⟩, ⟨9, 9, .roh, 0, .any⟩, ⟨8, 8, .roh, 0, .any⟩, ⟨5, 5, .roh, 0, .any⟩, ⟨4, 4, .roh, 0, .any⟩, ⟨0, 0, .roh, 0, .any⟩]⟩,
  ⟨0x444, 4, 1, 4, 1, [⟨31, 0, .roh, 0, .any⟩]⟩,
  ⟨0x448, 4, 1, 4, 1, [⟨31, 16, .roh, 0, .any⟩, ⟨7, 0, .roh, 0, .any⟩]⟩,
  ⟨0x44C, 4, 1, 4, 1, [⟨31, 0, .roh, 0, .any⟩]⟩,
  ⟨0x450, 4, 1, 4, 1, [⟨31, 28, .roh, 0, .any⟩, ⟨15, 0, .roh, 0, .any⟩]⟩,
  ⟨0x454, 4, 1, 4, 1, [⟨15, 0, .roh, 0, .any⟩]⟩,
  ⟨0x458, 4, 1, 4, 1, [⟨1, 0, .rw, 0, .u 0 2⟩]⟩,
  ⟨0x45C, 4, 1, 4, 1, [⟨31, 31, .wo, 0, .any⟩, ⟨3, 0, .wo, 0, .any⟩]⟩,
  ⟨0x460, 4, 1, 4, 1, [⟨31, 0, .roh, 0, .any⟩]⟩,
  ⟨0x464, 4, 1, 4, 1, [⟨3, 0, .roh, 0, .any⟩]⟩,
  ⟨0x468, 4, 1, 4, 1, [⟨31, 0, .roh, 0, .any⟩]⟩,
  ⟨0x480, 4, 1, 4, 1, [⟨1, 1, .roh, 0, .any⟩, ⟨0, 0, .roh, 0, .any⟩]⟩,
  ⟨0x484, 4, 1, 4, 1, [⟨31, 0, .roh, 0, .any⟩]⟩,
  ⟨0x488, 4, 1, 4, 1, [⟨31, 0, .roh, 0, .any⟩]⟩]

/-- Registers of the THM page, Table THM-1. -/
def regsTHM : List RegFam := [
  ⟨0x40, 4, 1, 4, 1, [⟨12, 8, .rws, 0, .u 0 31⟩, ⟨4, 4, .rws, 0, .any⟩, ⟨1, 0, .rws, 0, .u 0 2⟩]⟩,
  ⟨0x44, 4, 1, 4, 1, [⟨31, 16, .rws, 0, .u 0 10000⟩, ⟨15, 0, .rws, 0x2760, .u 9500 11000⟩]⟩,
  ⟨0x48, 4, 1, 4, 1, [⟨31, 0, .rws, 0x2710, .u 100 1000000⟩]⟩,
  ⟨0x4C, 4, 1, 4, 1, [⟨15, 0, .rws, 0xD6B, .u 2000 6000⟩]⟩,
  ⟨0x50, 4, 1, 4, 1, [⟨31, 0, .rws, 0x2710, .u 1000 100000⟩]⟩,
  ⟨0x54, 4, 1, 4, 1, [⟨15, 0, .rws, 0, .s (-1000) 1000⟩]⟩,
  ⟨0x58, 4, 1, 4, 1, [⟨31, 16, .rws, 0x320, .any⟩, ⟨15, 0, .rws, 0x3E8, .s (400) 1500⟩]⟩,
  ⟨0x5C, 4, 1, 4, 1, [⟨15, 0, .rws, 0x3C, .u 10 3600⟩]⟩,
  ⟨0x440, 4, 1, 4, 1, [⟨31, 31, .roh, 0, .any⟩, ⟨15, 0, .roh, 0, .any⟩]⟩,
  ⟨0x444, 4, 1, 4, 1, [⟨31, 16, .roh, 0, .any⟩, ⟨9, 8, .roh, 0, .any⟩, ⟨4, 4, .roh, 0, .any⟩]⟩,
  ⟨0x448, 4, 1, 4, 1, [⟨31, 0, .roh, 0, .any⟩]⟩,
  ⟨0x44C, 4, 1, 4, 1, [⟨31, 0, .roh, 0, .any⟩]⟩]

/-- Registers of the CBL page, Table CBL-2. -/
def regsCBL : List RegFam := [
  ⟨0x40, 4, 1, 4, 1, [⟨31, 31, .rws, 0, .any⟩, ⟨27, 24, .rws, 2, .u 1 4⟩, ⟨20, 20, .rws, 0, .any⟩, ⟨19, 16, .rws, 0, .u 0 15⟩]⟩,
  ⟨0x44, 4, 1, 4, 1, [⟨7, 7, .rws, 0, .any⟩, ⟨15, 15, .rws, 0, .any⟩, ⟨23, 23, .rws, 0, .any⟩, ⟨31, 31, .rws, 0, .any⟩, ⟨5, 0, .rws, 0, .u 0 63⟩, ⟨13, 8, .rws, 0, .u 0 63⟩, ⟨21, 16, .rws, 0, .u 0 63⟩, ⟨29, 24, .rws, 0, .u 0 63⟩]⟩,
  ⟨0x48, 4, 1, 4, 1, [⟨23, 23, .rws, 0, .any⟩, ⟨21, 16, .rws, 0, .any⟩, ⟨15, 15, .rws, 0, .any⟩, ⟨13, 8, .rws, 0, .any⟩, ⟨7, 7, .rws, 0, .any⟩, ⟨5, 0, .rws, 0, .any⟩]⟩,
  ⟨0x4C, 4, 1, 4, 1, [⟨31, 0, .rws, 0, .u 1 100000⟩]⟩,
  ⟨0x50, 4, 1, 4, 1, [⟨15, 0, .rws, 0xF5A, .u 0 10000⟩]⟩,
  ⟨0x54, 4, 1, 4, 1, [⟨31, 0, .rws, 0, .u 0 10000⟩]⟩,
  ⟨0x58, 4, 1, 4, 1, [⟨31, 0, .rws, 0, .u 0 100000⟩]⟩,
  ⟨0x5C, 4, 1, 4, 1, [⟨31, 0, .rws, 0, .u 1 100000000⟩]⟩,
  ⟨0x60, 4, 1, 4, 1, [⟨31, 0, .rws, 0, .u 1 100000000⟩]⟩,
  ⟨0x64, 4, 1, 4, 1, [⟨31, 0, .rws, 0, .u 1 100000000⟩]⟩,
  ⟨0x68, 4, 1, 4, 1, [⟨31, 0, .rws, 0, .u 0 10000000⟩]⟩,
  ⟨0x6C, 4, 1, 4, 1, [⟨31, 0, .rws, 0, .u 0 10000000⟩]⟩,
  ⟨0x70, 4, 1, 4, 1, [⟨31, 0, .rws, 0, .u 0 10000000⟩]⟩,
  ⟨0x74, 4, 1, 4, 1, [⟨31, 0, .rws, 0, .u 0 10000000⟩]⟩,
  ⟨0x78, 4, 1, 4, 1, [⟨31, 0, .rws, 0, .u 0 10000000⟩]⟩,
  ⟨0x7C, 4, 1, 4, 1, [⟨15, 0, .rws, 0x7D0, .u 10 60000⟩]⟩,
  ⟨0x80, 4, 1, 4, 1, [⟨31, 16, .rws, 0x1C2, .any⟩, ⟨15, 0, .rws, 0x384, .u 400 1200⟩]⟩,
  ⟨0x84, 4, 1, 4, 1, [⟨31, 0, .rws, 0, .any⟩]⟩,
  ⟨0x88, 4, 1, 4, 1, [⟨31, 16, .rws, 0x64, .any⟩, ⟨15, 0, .rws, 0x32, .any⟩]⟩,
  ⟨0x8C, 4, 1, 4, 1, [⟨31, 24, .rws, 0x50, .u 10 100⟩, ⟨23, 16, .rws, 0x1E, .any⟩, ⟨15, 0, .rws, 0xC8, .any⟩]⟩,
  ⟨0x90, 4, 1, 4, 1, [⟨31, 16, .rws, 0x190, .any⟩, ⟨15, 0, .rws, 0xFA, .any⟩]⟩,
  ⟨0x94, 4, 1, 4, 1, [⟨15, 0, .rws, 0x2BC, .any⟩]⟩,
  ⟨0x98, 4, 1, 4, 1, [⟨7, 0, .rws, 0xF, .u 1 100⟩]⟩,
  ⟨0x440, 4, 1, 4, 1, [⟨31, 0, .roh, 0, .any⟩]⟩,
  ⟨0x444, 4, 1, 4, 1, [⟨31, 0, .roh, 0, .any⟩]⟩,
  ⟨0x448, 4, 1, 4, 1, [⟨31, 0, .roh, 0, .any⟩]⟩,
  ⟨0x44C, 4, 1, 4, 1, [⟨31, 0, .roh, 0, .any⟩]⟩,
  ⟨0x450, 4, 1, 4, 1, [⟨31, 0, .roh, 0, .any⟩]⟩,
  ⟨0x454, 4, 1, 4, 1, [⟨31, 0, .roh, 0, .any⟩]⟩,
  ⟨0x458, 4, 1, 4, 1, [⟨9, 8, .roh, 0, .any⟩, ⟨6, 4, .roh, 0, .any⟩, ⟨3, 3, .roh, 0, .any⟩, ⟨2, 2, .roh, 0, .any⟩, ⟨1, 1, .roh, 0, .any⟩, ⟨0, 0, .roh, 0, .any⟩]⟩,
  ⟨0x45C, 4, 1, 4, 1, [⟨15, 0, .roh, 0, .any⟩]⟩,
  ⟨0x460, 4, 1, 4, 1, [⟨12, 8, .roh, 0, .any⟩, ⟨4, 0, .roh, 0, .any⟩]⟩,
  ⟨0x464, 4, 1, 4, 1, [⟨31, 0, .roh, 0, .any⟩]⟩,
  ⟨0x468, 4, 1, 4, 1, [⟨31, 0, .roh, 0, .any⟩]⟩,
  ⟨0x46C, 4, 1, 4, 1, [⟨31, 0, .roh, 0, .any⟩]⟩,
  ⟨0x470, 4, 1, 4, 1, [⟨31, 0, .roh, 0, .any⟩]⟩,
  ⟨0x474, 4, 1, 4, 1, [⟨31, 0, .roh, 0, .any⟩]⟩,
  ⟨0x478, 4, 1, 4, 1, [⟨15, 0, .roh, 0, .any⟩]⟩,
  ⟨0x47C, 4, 1, 4, 1, [⟨0, 0, .wo, 0, .any⟩]⟩]

/-- Registers of the LSW page, Table LSW-3. -/
def regsLSW : List RegFam := [
  ⟨0x40, 4, 1, 4, 1, [⟨31, 31, .rws, 0, .any⟩, ⟨25, 24, .rws, 1, .any⟩, ⟨20, 20, .rws, 0, .any⟩, ⟨16, 16, .rws, 0, .any⟩]⟩,
  ⟨0x44, 4, 1, 4, 1, [⟨31, 0, .rws, 0xC8, .u 50 100000⟩]⟩,
  ⟨0x48, 4, 1, 4, 1, [⟨15, 0, .rws, 0x64, .u 1 65535⟩]⟩,
  ⟨0x4C, 4, 1, 4, 1, [⟨13, 8, .rws, 0, .u 0 63⟩, ⟨5, 0, .rws, 0, .u 0 63⟩]⟩,
  ⟨0x50, 4, 1, 4, 1, [⟨31, 16, .rws, 0x5DC, .u 800 1750⟩, ⟨15, 8, .rws, 0xA, .u 1 50⟩, ⟨7, 0, .rws, 0x3C, .u 10 150⟩]⟩,
  ⟨0x54, 4, 1, 4, 1, [⟨15, 0, .rws, 0xFA, .any⟩]⟩,
  ⟨0x58, 4, 1, 4, 1, [⟨31, 16, .rws, 0x3E8, .u 10 60000⟩, ⟨15, 12, .rws, 3, .u 0 15⟩, ⟨11, 8, .rws, 5, .u 1 15⟩, ⟨7, 0, .rws, 0x32, .u 10 90⟩]⟩,
  ⟨0x5C, 4, 1, 4, 1, [⟨15, 0, .rws, 0x3C, .u 1 3600⟩]⟩,
  ⟨0x60, 4, 1, 4, 1, [⟨15, 0, .rws, 0x3E8, .u 100 25000⟩]⟩,
  ⟨0x64, 4, 1, 4, 1, [⟨15, 0, .rws, 0x12C, .u 1 3600⟩]⟩,
  ⟨0x80, 8, 8, 4, 1, [⟨31, 0, .rws, 0, .any⟩]⟩,
  ⟨0x84, 8, 8, 4, 1, [⟨31, 0, .rws, 0, .any⟩]⟩,
  ⟨0x440, 4, 1, 4, 1, [⟨15, 0, .rw, 0, .any⟩]⟩,
  ⟨0x444, 4, 1, 4, 1, [⟨31, 28, .roh, 0, .any⟩, ⟨19, 16, .roh, 0, .any⟩, ⟨15, 12, .roh, 0, .any⟩, ⟨8, 8, .roh, 0, .any⟩, ⟨7, 4, .roh, 0, .any⟩, ⟨2, 2, .roh, 0, .any⟩, ⟨1, 1, .roh, 0, .any⟩, ⟨0, 0, .roh, 0, .any⟩]⟩,
  ⟨0x448, 4, 1, 4, 1, [⟨31, 0, .roh, 0, .any⟩]⟩,
  ⟨0x44C, 4, 1, 4, 1, [⟨30, 0, .roh, 0, .any⟩]⟩,
  ⟨0x450, 4, 1, 4, 1, [⟨31, 16, .roh, 0, .any⟩, ⟨15, 0, .roh, 0, .any⟩]⟩,
  ⟨0x454, 4, 1, 4, 1, [⟨3, 0, .wo, 0, .any⟩]⟩,
  ⟨0x458, 4, 1, 4, 1, [⟨31, 0, .roh, 0, .any⟩]⟩,
  ⟨0x45C, 4, 1, 4, 1, [⟨15, 0, .roh, 0, .any⟩]⟩]

/-- Registers of the VCM page, Table VCM-4. -/
def regsVCM : List RegFam := [
  ⟨0x40, 4, 1, 4, 1, [⟨23, 16, .rws, 0x14, .u 5 200⟩, ⟨7, 0, .rws, 4, .u 1 50⟩]⟩,
  ⟨0x44, 4, 1, 4, 1, [⟨31, 16, .rws, 0x190, .any⟩, ⟨15, 0, .rws, 0xC8, .any⟩]⟩,
  ⟨0x48, 4, 1, 4, 1, [⟨15, 0, .rws, 0x258, .any⟩]⟩,
  ⟨0x4C, 4, 1, 4, 1, [⟨31, 16, .rws, 0x190, .any⟩, ⟨15, 0, .rws, 0xA, .u 1 1000⟩]⟩,
  ⟨0x50, 4, 1, 4, 1, [⟨15, 8, .rws, 3, .u 0 20⟩, ⟨7, 0, .rws, 0x32, .u 10 90⟩]⟩,
  ⟨0x54, 4, 1, 4, 1, [⟨23, 16, .rws, 0, .any⟩, ⟨15, 8, .rws, 0x20, .u 1 255⟩, ⟨3, 0, .rws, 8, .u 1 8⟩]⟩,
  ⟨0x58, 4, 1, 4, 1, [⟨25, 16, .rws, 0x40, .u 16 1023⟩, ⟨9, 0, .rws, 0, .any⟩]⟩,
  ⟨0x80, 8, 32, 4, 1, [⟨31, 31, .rws, 0, .any⟩, ⟨28, 28, .rws, 0, .any⟩, ⟨26, 24, .rws, 0, .u 0 7⟩, ⟨23, 16, .rws, 0, .any⟩, ⟨11, 8, .rws, 0, .u 0 11⟩, ⟨2, 0, .rws, 0, .u 0 7⟩]⟩,
  ⟨0x84, 8, 32, 4, 1, [⟨29, 28, .rws, 0, .any⟩, ⟨26, 24, .rws, 0, .any⟩, ⟨11, 8, .rws, 0, .u 0 11⟩, ⟨2, 0, .rws, 0, .any⟩]⟩,
  ⟨0x440, 4, 32, 4, 1, [⟨31, 28, .roh, 0, .any⟩, ⟨25, 24, .roh, 0, .any⟩, ⟨21, 20, .roh, 0, .any⟩, ⟨17, 16, .roh, 0, .any⟩, ⟨15, 0, .roh, 0, .any⟩]⟩,
  ⟨0x4C0, 4, 1, 4, 1, [⟨31, 0, .roh, 0, .any⟩]⟩,
  ⟨0x4C4, 4, 1, 4, 1, [⟨31, 0, .ro, 0, .any⟩]⟩,
  ⟨0x4C8, 4, 1, 4, 1, [⟨15, 0, .ro, 0, .any⟩]⟩,
  ⟨0x4CC, 4, 1, 4, 1, [⟨9, 0, .rw, 0, .any⟩]⟩,
  ⟨0x4D0, 4, 1, 4, 1, [⟨16, 16, .roh, 1, .any⟩, ⟨9, 0, .roh, 0, .any⟩]⟩,
  ⟨0x4D4, 4, 1, 4, 1, [⟨31, 0, .roh, 0, .any⟩]⟩,
  ⟨0x4E0, 4, 4, 4, 1, [⟨31, 28, .roh, 0, .any⟩, ⟨15, 8, .roh, 0, .any⟩, ⟨5, 0, .roh, 0, .any⟩]⟩]

/-- Registers of the SES page, Table SES-5. -/
def regsSES : List RegFam := [
  ⟨0x40, 4, 1, 4, 1, [⟨31, 16, .rws, 0x1F4, .u 100 5000⟩, ⟨15, 8, .rws, 0x3C, .u 5 255⟩, ⟨7, 0, .rws, 0, .z 10 255⟩]⟩,
  ⟨0x440, 4, 1, 4, 1, [⟨5, 0, .rw, 0, .any⟩]⟩,
  ⟨0x444, 4, 1, 4, 1, [⟨31, 28, .wo, 0, .any⟩, ⟨21, 16, .wo, 0, .any⟩, ⟨15, 0, .wo, 0, .any⟩]⟩,
  ⟨0x480, 4, 1, 4, 1, [⟨31, 0, .rw, 0, .any⟩]⟩,
  ⟨0x484, 4, 1, 4, 1, [⟨31, 0, .rw, 0, .any⟩]⟩,
  ⟨0x488, 4, 1, 4, 1, [⟨31, 0, .rw, 0, .any⟩]⟩,
  ⟨0x48C, 4, 1, 4, 1, [⟨31, 0, .rw, 0, .any⟩]⟩,
  ⟨0x490, 4, 1, 4, 1, [⟨1, 0, .rw, 2, .any⟩]⟩,
  ⟨0x494, 4, 1, 4, 1, [⟨15, 0, .roh, 0, .any⟩]⟩,
  ⟨0x4A0, 4, 1, 4, 1, [⟨31, 0, .roh, 0, .any⟩]⟩,
  ⟨0x4A4, 4, 1, 4, 1, [⟨31, 0, .roh, 0, .any⟩]⟩,
  ⟨0x4A8, 4, 1, 4, 1, [⟨31, 0, .roh, 0, .any⟩]⟩,
  ⟨0x4AC, 4, 1, 4, 1, [⟨31, 0, .roh, 0, .any⟩]⟩,
  ⟨0x4B0, 4, 1, 4, 1, [⟨1, 0, .roh, 2, .any⟩]⟩,
  ⟨0x4B4, 4, 1, 4, 1, [⟨31, 0, .roh, 0, .any⟩]⟩,
  ⟨0x4B8, 4, 1, 4, 1, [⟨31, 16, .roh, 0, .any⟩, ⟨7, 0, .roh, 0, .any⟩]⟩,
  ⟨0x500, 4, 64, 4, 1, [⟨31, 28, .roh, 0, .any⟩, ⟨27, 27, .roh, 0, .any⟩, ⟨26, 26, .roh, 0, .any⟩, ⟨25, 25, .roh, 0, .any⟩, ⟨20, 16, .roh, 0, .any⟩, ⟨15, 8, .roh, 0, .any⟩, ⟨7, 0, .roh, 0, .any⟩]⟩]

/-- Registers of the PLC page, Table PLC-7. -/
def regsPLC : List RegFam := [
  ⟨0x40, 4, 1, 4, 1, [⟨31, 31, .rws, 0, .any⟩, ⟨27, 24, .rws, 0, .any⟩, ⟨20, 16, .rws, 0, .u 0 31⟩, ⟨9, 8, .rws, 3, .u 1 3⟩, ⟨6, 0, .rws, 0, .u 0 80⟩]⟩,
  ⟨0x44, 4, 1, 4, 1, [⟨21, 16, .rws, 0x10, .u 2 36⟩, ⟨10, 8, .rws, 3, .u 0 7⟩, ⟨7, 0, .rws, 0x14, .u 5 100⟩]⟩,
  ⟨0x48, 4, 1, 4, 1, [⟨31, 24, .rws, 0x40, .u 2 255⟩, ⟨23, 16, .rws, 0x20, .u 2 255⟩, ⟨15, 8, .rws, 0x10, .u 2 255⟩, ⟨7, 0, .rws, 8, .u 2 255⟩]⟩,
  ⟨0x4C, 4, 1, 4, 1, [⟨31, 16, .rws, 0, .u 0 2000⟩, ⟨15, 0, .rws, 0xC8, .u 10 2000⟩]⟩,
  ⟨0x50, 4, 1, 4, 1, [⟨7, 0, .rws, 0xA, .u 3 30⟩]⟩,
  ⟨0x54, 4, 1, 4, 1, [⟨15, 8, .rws, 8, .u 4 64⟩, ⟨7, 0, .rws, 0x14, .u 0 50⟩]⟩,
  ⟨0x58, 4, 1, 4, 1, [⟨15, 0, .rws, 0x41A, .u 800 1250⟩]⟩,
  ⟨0x60, 4, 8, 4, 1, [⟨31, 31, .rws, 0, .any⟩, ⟨26, 16, .rws, 0, .u 82 1146⟩, ⟨10, 0, .rws, 0, .u 82 1146⟩]⟩,
  ⟨0x100, 8, 64, 4, 1, [⟨31, 0, .rws, 0, .any⟩]⟩,
  ⟨0x104, 8, 64, 4, 1, [⟨31, 31, .rws, 0, .any⟩, ⟨16, 16, .rws, 0, .any⟩, ⟨15, 0, .rws, 0, .any⟩]⟩,
  ⟨0x440, 4, 1, 4, 1, [⟨8, 8, .roh, 0, .any⟩, ⟨4, 4, .roh, 0, .any⟩, ⟨1, 1, .roh, 0, .any⟩, ⟨0, 0, .roh, 0, .any⟩]⟩,
  ⟨0x444, 4, 1, 4, 1, [⟨31, 16, .roh, 0, .any⟩, ⟨15, 0, .roh, 0, .any⟩]⟩,
  ⟨0x448, 4, 1, 4, 1, [⟨31, 0, .roh, 0, .any⟩]⟩,
  ⟨0x44C, 4, 1, 4, 1, [⟨31, 0, .roh, 0, .any⟩]⟩,
  ⟨0x450, 4, 1, 4, 1, [⟨31, 0, .roh, 0, .any⟩]⟩,
  ⟨0x454, 4, 1, 4, 1, [⟨31, 0, .roh, 0, .any⟩]⟩,
  ⟨0x458, 4, 1, 4, 1, [⟨31, 0, .roh, 0, .any⟩]⟩,
  ⟨0x45C, 4, 1, 4, 1, [⟨31, 0, .roh, 0, .any⟩]⟩,
  ⟨0x460, 4, 1, 4, 1, [⟨31, 0, .roh, 0, .any⟩]⟩,
  ⟨0x464, 4, 1, 4, 1, [⟨31, 0, .roh, 0, .any⟩]⟩,
  ⟨0x500, 8, 64, 4, 1, [⟨31, 28, .roh, 0, .any⟩, ⟨27, 26, .roh, 3, .any⟩, ⟨25, 24, .roh, 0, .any⟩, ⟨22, 16, .roh, 0, .any⟩, ⟨15, 0, .roh, 0, .any⟩]⟩,
  ⟨0x504, 8, 64, 4, 1, [⟨31, 20, .roh, 0, .any⟩, ⟨19, 12, .roh, 0, .any⟩, ⟨11, 8, .roh, 0, .any⟩, ⟨2, 0, .roh, 0, .any⟩]⟩]

/-- Registers of the SAF page, Table SAF-4. -/
def regsSAF : List RegFam := [
  ⟨0x40, 4, 1, 4, 1, [⟨31, 16, .rws, 0x3E8, .u 100 10000⟩, ⟨8, 0, .rws, 0x12C, .u 100 500⟩]⟩,
  ⟨0x44, 4, 1, 4, 1, [⟨7, 0, .rws, 0, .any⟩]⟩,
  ⟨0x80, 0xC, 32, 4, 1, [⟨31, 31, .rws, 0, .any⟩, ⟨30, 28, .rws, 0, .u 0 5⟩, ⟨27, 26, .rws, 0, .u 0 2⟩, ⟨25, 25, .rws, 0, .any⟩, ⟨24, 24, .rws, 0, .any⟩, ⟨23, 23, .rws, 0, .any⟩, ⟨19, 16, .rws, 1, .u 1 15⟩, ⟨9, 0, .rws, 0x32, .u 5 1000⟩]⟩,
  ⟨0x84, 0xC, 32, 4, 1, [⟨31, 0, .rws, 0, .any⟩]⟩,
  ⟨0x88, 0xC, 32, 4, 1, [⟨13, 8, .rws, 0, .u 0 63⟩, ⟨4, 0, .rws, 0, .u 0 31⟩]⟩,
  ⟨0x200, 4, 4, 4, 1, [⟨3, 0, .rws, 0xF, .or 0 7 15⟩, ⟨7, 4, .rws, 0xF, .or 0 7 15⟩, ⟨11, 8, .rws, 0xF, .or 0 7 15⟩, ⟨15, 12, .rws, 0xF, .or 0 7 15⟩, ⟨19, 16, .rws, 0xF, .or 0 7 15⟩, ⟨23, 20, .rws, 0xF, .or 0 7 15⟩, ⟨27, 24, .rws, 0xF, .or 0 7 15⟩, ⟨31, 28, .rws, 0xF, .or 0 7 15⟩]⟩,
  ⟨0x440, 4, 1, 4, 1, [⟨31, 24, .roh, 0, .any⟩, ⟨8, 8, .roh, 0, .any⟩, ⟨0, 0, .roh, 0, .any⟩]⟩,
  ⟨0x444, 4, 1, 4, 1, [⟨31, 0, .roh, 0xFFFFFFFF, .any⟩]⟩,
  ⟨0x448, 4, 1, 4, 1, [⟨31, 0, .roh, 0, .any⟩]⟩,
  ⟨0x44C, 4, 1, 4, 1, [⟨31, 16, .roh, 0, .any⟩, ⟨3, 3, .roh, 0, .any⟩, ⟨1, 1, .roh, 0, .any⟩, ⟨0, 0, .roh, 0, .any⟩]⟩,
  ⟨0x450, 4, 1, 4, 1, [⟨31, 0, .roh, 0, .any⟩]⟩,
  ⟨0x454, 4, 1, 4, 1, [⟨31, 0, .roh, 0, .any⟩]⟩,
  ⟨0x458, 4, 1, 4, 1, [⟨31, 0, .roh, 0, .any⟩]⟩,
  ⟨0x460, 4, 32, 4, 1, [⟨31, 28, .roh, 0, .any⟩, ⟨9, 9, .roh, 0, .any⟩, ⟨8, 8, .roh, 0, .any⟩, ⟨2, 2, .roh, 0, .any⟩, ⟨1, 1, .roh, 0, .any⟩, ⟨0, 0, .roh, 0, .any⟩]⟩,
  ⟨0x4E0, 4, 8, 4, 1, [⟨31, 28, .roh, 0, .any⟩, ⟨11, 8, .roh, 0, .any⟩, ⟨1, 1, .roh, 0, .any⟩, ⟨0, 0, .roh, 0, .any⟩]⟩]

/-- Registers of the SFC page, Table SFC-2. -/
def regsSFC : List RegFam := [
  ⟨0x40, 4, 1, 4, 1, [⟨9, 0, .rws, 0, .any⟩]⟩,
  ⟨0x80, 0xC, 64, 4, 1, [⟨31, 31, .rws, 0, .any⟩, ⟨29, 28, .rws, 0, .u 0 2⟩, ⟨25, 24, .rws, 0, .u 0 2⟩, ⟨21, 16, .rws, 0, .u 0 63⟩, ⟨11, 8, .rws, 0, .u 0 11⟩, ⟨2, 0, .rws, 0, .u 0 7⟩]⟩,
  ⟨0x84, 0xC, 64, 4, 1, [⟨25, 16, .rws, 0x64, .u 5 1000⟩, ⟨9, 0, .rws, 0x32, .u 1 500⟩]⟩,
  ⟨0x88, 0xC, 64, 4, 1, [⟨31, 0, .rws, 0, .any⟩]⟩,
  ⟨0x440, 4, 64, 4, 1, [⟨31, 28, .roh, 0, .any⟩, ⟨27, 24, .roh, 0, .any⟩, ⟨17, 17, .roh, 0, .any⟩, ⟨16, 16, .roh, 0, .any⟩, ⟨15, 0, .roh, 0, .any⟩]⟩,
  ⟨0x540, 4, 64, 4, 1, [⟨31, 0, .roh, 0, .any⟩]⟩,
  ⟨0x640, 4, 1, 4, 1, [⟨31, 0, .w1c, 0, .any⟩]⟩,
  ⟨0x644, 4, 1, 4, 1, [⟨31, 0, .w1c, 0, .any⟩]⟩,
  ⟨0x648, 4, 1, 4, 1, [⟨5, 0, .wo, 0, .any⟩]⟩,
  ⟨0x64C, 4, 1, 4, 1, [⟨31, 0, .roh, 0, .any⟩]⟩,
  ⟨0x650, 4, 1, 4, 1, [⟨31, 0, .roh, 0, .any⟩]⟩]

/-- Registers of the KEY page, Table KEY-3. -/
def regsKEY : List RegFam := [
  ⟨0x440, 4, 1, 4, 1, [⟨31, 28, .roh, 0, .any⟩, ⟨9, 9, .roh, 0, .any⟩, ⟨8, 8, .roh, 0, .any⟩, ⟨4, 4, .roh, 0, .any⟩, ⟨0, 0, .roh, 0, .any⟩]⟩,
  ⟨0x444, 4, 1, 4, 1, [⟨21, 16, .roh, 0, .any⟩, ⟨5, 0, .roh, 0, .any⟩]⟩,
  ⟨0x448, 4, 1, 4, 1, [⟨5, 0, .roh, 0, .any⟩]⟩,
  ⟨0x44C, 4, 1, 4, 1, [⟨0, 0, .wo, 0, .any⟩]⟩,
  ⟨0x450, 4, 1, 4, 1, [⟨15, 0, .roh, 0xFFFF, .any⟩]⟩,
  ⟨0x454, 4, 1, 4, 1, [⟨31, 16, .roh, 0, .any⟩, ⟨0, 0, .roh, 0, .any⟩]⟩,
  ⟨0x458, 4, 1, 4, 1, [⟨31, 0, .ro, 0, .any⟩]⟩,
  ⟨0x45C, 4, 1, 4, 1, [⟨31, 0, .ro, 0, .any⟩]⟩,
  ⟨0x460, 4, 12, 4, 1, [⟨31, 0, .roh, 0, .any⟩]⟩,
  ⟨0x4A0, 4, 1, 4, 1, [⟨24, 24, .roh, 0, .any⟩, ⟨17, 16, .roh, 0, .any⟩, ⟨15, 14, .roh, 0, .any⟩, ⟨13, 12, .roh, 0, .any⟩, ⟨11, 10, .roh, 0, .any⟩, ⟨9, 8, .roh, 0, .any⟩]⟩,
  ⟨0x4A4, 4, 1, 4, 1, [⟨31, 0, .roh, 0, .any⟩]⟩,
  ⟨0x500, 4, 32, 4, 1, [⟨31, 30, .roh, 0, .any⟩, ⟨27, 24, .roh, 0, .any⟩, ⟨23, 16, .roh, 0, .any⟩, ⟨12, 8, .roh, 0, .any⟩, ⟨7, 6, .roh, 0, .any⟩, ⟨5, 0, .roh, 0, .any⟩]⟩]

/-- Registers of the CRY page, Table CRY-3. -/
def regsCRY : List RegFam := [
  ⟨0x440, 4, 1, 4, 1, [⟨31, 0, .roh, 0, .any⟩]⟩,
  ⟨0x444, 4, 1, 4, 1, [⟨31, 0, .roh, 0, .any⟩]⟩,
  ⟨0x448, 4, 1, 4, 1, [⟨31, 0, .roh, 0, .any⟩]⟩,
  ⟨0x44C, 4, 1, 4, 1, [⟨31, 0, .roh, 0, .any⟩]⟩,
  ⟨0x450, 4, 1, 4, 1, [⟨23, 16, .roh, 0, .any⟩, ⟨15, 0, .roh, 0, .any⟩]⟩,
  ⟨0x480, 4, 64, 4, 1, [⟨31, 31, .roh, 0, .any⟩, ⟨27, 24, .roh, 0, .any⟩, ⟨23, 16, .roh, 0, .any⟩, ⟨12, 8, .roh, 0, .any⟩, ⟨5, 0, .roh, 0, .any⟩]⟩]

/-- Registers of the FRC page, Table FRC-5. -/
def regsFRC : List RegFam := [
  ⟨0x40, 4, 1, 4, 1, [⟨19, 16, .rws, 0xF, .any⟩, ⟨9, 0, .rws, 0x2EE, .u 0 1000⟩]⟩,
  ⟨0x44, 0x10, 16, 4, 1, [⟨31, 31, .rws, 0, .any⟩, ⟨26, 24, .rws, 0, .any⟩, ⟨21, 16, .rws, 0, .any⟩, ⟨11, 8, .rws, 0, .any⟩]⟩,
  ⟨0x48, 0x10, 16, 4, 1, [⟨31, 16, .rws, 0x10, .any⟩, ⟨15, 0, .rws, 0x10, .any⟩]⟩,
  ⟨0x4C, 0x10, 16, 4, 1, [⟨31, 24, .rws, 0, .any⟩, ⟨23, 16, .rws, 0, .any⟩, ⟨15, 8, .rws, 0, .any⟩, ⟨7, 0, .rws, 0, .any⟩]⟩,
  ⟨0x180, 4, 8, 4, 1, [⟨31, 31, .rws, 0, .any⟩, ⟨28, 24, .rws, 0, .any⟩, ⟨15, 0, .rws, 0, .any⟩]⟩,
  ⟨0x1A0, 4, 4, 4, 1, [⟨31, 31, .rws, 0, .any⟩, ⟨23, 16, .rws, 0, .any⟩, ⟨11, 8, .rws, 0, .u 0 11⟩, ⟨2, 0, .rws, 0, .u 0 7⟩]⟩,
  ⟨0x440, 4, 1, 4, 1, [⟨2, 2, .wo, 0, .any⟩, ⟨1, 1, .wo, 0, .any⟩, ⟨0, 0, .wo, 0, .any⟩]⟩,
  ⟨0x444, 4, 1, 4, 1, [⟨31, 28, .roh, 0, .any⟩, ⟨8, 8, .roh, 0, .any⟩, ⟨6, 6, .roh, 0, .any⟩, ⟨2, 0, .roh, 0, .any⟩]⟩,
  ⟨0x448, 4, 1, 4, 1, [⟨31, 0, .roh, 0, .any⟩]⟩,
  ⟨0x44C, 4, 1, 4, 1, [⟨31, 0, .roh, 0, .any⟩]⟩,
  ⟨0x450, 4, 1, 4, 1, [⟨31, 0, .roh, 0, .any⟩]⟩,
  ⟨0x454, 4, 1, 4, 1, [⟨31, 0, .roh, 0, .any⟩]⟩,
  ⟨0x458, 4, 1, 4, 1, [⟨31, 0, .roh, 0, .any⟩]⟩,
  ⟨0x45C, 4, 1, 4, 1, [⟨31, 0, .roh, 0, .any⟩]⟩,
  ⟨0x480, 0xC, 64, 4, 1, [⟨31, 31, .roh, 0, .any⟩, ⟨30, 30, .roh, 0, .any⟩, ⟨7, 0, .roh, 0, .any⟩]⟩,
  ⟨0x484, 0xC, 64, 4, 1, [⟨18, 0, .roh, 0, .any⟩]⟩,
  ⟨0x488, 0xC, 64, 4, 1, [⟨18, 0, .roh, 0, .any⟩]⟩,
  ⟨0x780, 0xC, 8, 4, 1, [⟨31, 31, .roh, 0, .any⟩, ⟨2, 0, .roh, 0, .any⟩]⟩,
  ⟨0x784, 0xC, 8, 4, 1, [⟨31, 0, .roh, 0, .any⟩]⟩,
  ⟨0x788, 0xC, 8, 4, 1, [⟨31, 0, .roh, 0, .any⟩]⟩]

/-- Registers of the LGL page, Table LGL-8. -/
def regsLGL : List RegFam := [
  ⟨0x40, 4, 1, 4, 1, [⟨31, 28, .roh, 0, .any⟩, ⟨8, 8, .roh, 0, .any⟩, ⟨4, 4, .roh, 0, .any⟩, ⟨2, 2, .roh, 0, .any⟩, ⟨1, 1, .roh, 0, .any⟩, ⟨0, 0, .roh, 0, .any⟩]⟩,
  ⟨0x44, 4, 1, 4, 1, [⟨31, 31, .wo, 0, .any⟩, ⟨10, 0, .wo, 0, .any⟩]⟩,
  ⟨0x48, 4, 1, 4, 1, [⟨31, 28, .roh, 0, .any⟩, ⟨23, 16, .roh, 0, .any⟩, ⟨10, 0, .roh, 0, .any⟩]⟩,
  ⟨0x4C, 4, 1, 4, 1, [⟨31, 0, .roh, 0, .any⟩]⟩,
  ⟨0x50, 4, 1, 4, 1, [⟨23, 16, .roh, 0, .any⟩, ⟨15, 0, .roh, 0, .any⟩]⟩,
  ⟨0x54, 4, 1, 4, 1, [⟨31, 0, .roh, 0, .any⟩]⟩,
  ⟨0x58, 4, 1, 4, 1, [⟨31, 0, .roh, 0, .any⟩]⟩,
  ⟨0x5C, 4, 1, 4, 1, [⟨31, 0, .roh, 0, .any⟩]⟩,
  ⟨0x60, 4, 1, 4, 1, [⟨31, 0, .roh, 0, .any⟩]⟩,
  ⟨0x64, 4, 1, 4, 1, [⟨31, 0, .roh, 0, .any⟩]⟩,
  ⟨0x68, 4, 1, 4, 1, [⟨31, 0, .roh, 0, .any⟩]⟩,
  ⟨0x6C, 4, 1, 4, 1, [⟨31, 16, .roh, 0, .any⟩, ⟨11, 0, .roh, 0, .any⟩]⟩,
  ⟨0x70, 4, 1, 4, 1, [⟨31, 0, .ro, 0x10004, .any⟩]⟩,
  ⟨0x74, 4, 1, 4, 1, [⟨31, 0, .roh, 0, .any⟩]⟩,
  ⟨0x78, 4, 1, 4, 1, [⟨31, 0, .roh, 0, .any⟩]⟩,
  ⟨0x7C, 4, 1, 4, 1, [⟨31, 0, .roh, 0, .any⟩]⟩,
  ⟨0x400, 4, 256, 4, 1, [⟨31, 0, .rw, 0, .any⟩]⟩,
  ⟨0x800, 4, 256, 4, 1, [⟨31, 0, .roh, 0, .any⟩]⟩]

/-- Registers of the MTR page, Table MTR-4. -/
def regsMTR : List RegFam := [
  ⟨0x40, 4, 1, 4, 1, [⟨8, 8, .roh, 0, .any⟩, ⟨3, 0, .roh, 0, .any⟩]⟩,
  ⟨0x44, 4, 1, 4, 1, [⟨1, 1, .roh, 0, .any⟩, ⟨0, 0, .roh, 0, .any⟩]⟩,
  ⟨0x48, 4, 1, 4, 1, [⟨31, 0, .roh, 0, .any⟩]⟩,
  ⟨0x4C, 4, 1, 4, 1, [⟨31, 0, .roh, 0, .any⟩]⟩,
  ⟨0x50, 4, 1, 4, 1, [⟨1, 1, .roh, 0, .any⟩, ⟨3, 3, .roh, 0, .any⟩, ⟨5, 5, .roh, 0, .any⟩, ⟨7, 7, .roh, 0, .any⟩, ⟨0, 0, .roh, 0, .any⟩, ⟨2, 2, .roh, 0, .any⟩, ⟨4, 4, .roh, 0, .any⟩, ⟨6, 6, .roh, 0, .any⟩]⟩,
  ⟨0x60, 4, 6, 4, 1, [⟨1, 0, .roh, 3, .any⟩, ⟨3, 2, .roh, 3, .any⟩, ⟨5, 4, .roh, 3, .any⟩, ⟨7, 6, .roh, 3, .any⟩, ⟨9, 8, .roh, 3, .any⟩, ⟨11, 10, .roh, 3, .any⟩, ⟨13, 12, .roh, 3, .any⟩, ⟨15, 14, .roh, 3, .any⟩, ⟨17, 16, .roh, 3, .any⟩, ⟨19, 18, .roh, 3, .any⟩, ⟨21, 20, .roh, 3, .any⟩, ⟨23, 22, .roh, 3, .any⟩, ⟨25, 24, .roh, 3, .any⟩, ⟨27, 26, .roh, 3, .any⟩, ⟨29, 28, .roh, 3, .any⟩, ⟨31, 30, .roh, 3, .any⟩]⟩,
  ⟨0x80, 0x10, 32, 4, 1, [⟨31, 0, .roh, 0, .any⟩]⟩,
  ⟨0x84, 0x10, 32, 4, 1, [⟨31, 0, .roh, 0, .any⟩]⟩,
  ⟨0x88, 0x10, 32, 4, 1, [⟨31, 0, .roh, 0, .any⟩]⟩,
  ⟨0x8C, 0x10, 32, 4, 1, [⟨31, 31, .roh, 0, .any⟩, ⟨30, 30, .roh, 0, .any⟩, ⟨16, 0, .roh, 0, .any⟩]⟩,
  ⟨0x280, 0x18, 32, 4, 1, [⟨31, 0, .roh, 0, .any⟩]⟩,
  ⟨0x284, 0x18, 32, 4, 1, [⟨31, 0, .roh, 0, .any⟩]⟩,
  ⟨0x288, 0x18, 32, 4, 1, [⟨31, 0, .roh, 0, .any⟩]⟩,
  ⟨0x28C, 0x18, 32, 4, 1, [⟨31, 0, .roh, 0, .any⟩]⟩,
  ⟨0x290, 0x18, 32, 4, 1, [⟨31, 0, .roh, 0, .any⟩]⟩,
  ⟨0x294, 0x18, 32, 4, 1, [⟨31, 0, .roh, 0, .any⟩]⟩,
  ⟨0x580, 0x48, 4, 4, 3, [⟨31, 0, .roh, 0, .any⟩]⟩,
  ⟨0x58C, 0x48, 4, 4, 3, [⟨31, 0, .roh, 0, .any⟩]⟩,
  ⟨0x598, 0x48, 4, 4, 3, [⟨31, 0, .roh, 0, .any⟩]⟩,
  ⟨0x5A4, 0x48, 4, 4, 3, [⟨31, 0, .roh, 0, .any⟩]⟩,
  ⟨0x5B0, 0x48, 4, 4, 1, [⟨31, 0, .roh, 0, .any⟩]⟩,
  ⟨0x5B4, 0x48, 4, 4, 1, [⟨31, 0, .roh, 0, .any⟩]⟩,
  ⟨0x5B8, 0x48, 4, 4, 1, [⟨31, 0, .roh, 0, .any⟩]⟩,
  ⟨0x5BC, 0x48, 4, 4, 1, [⟨31, 16, .roh, 0, .any⟩, ⟨15, 0, .roh, 0, .any⟩]⟩,
  ⟨0x5C0, 0x48, 4, 4, 1, [⟨31, 31, .roh, 0, .any⟩, ⟨30, 30, .roh, 0, .any⟩, ⟨29, 29, .roh, 0, .any⟩, ⟨16, 0, .roh, 0, .any⟩]⟩,
  ⟨0x6A0, 0x48, 4, 0xC, 6, [⟨31, 0, .roh, 0, .any⟩]⟩,
  ⟨0x6A4, 0x48, 4, 0xC, 6, [⟨31, 0, .roh, 0, .any⟩]⟩,
  ⟨0x6A8, 0x48, 4, 0xC, 6, [⟨31, 0, .roh, 0, .any⟩]⟩]

/-- Registers of the TRF page, Table TRF-7. -/
def regsTRF : List RegFam := [
  ⟨0x40, 4, 1, 4, 1, [⟨31, 0, .rws, 0, .any⟩]⟩,
  ⟨0x44, 4, 1, 4, 1, [⟨31, 0, .rws, 0, .any⟩]⟩,
  ⟨0x48, 4, 1, 4, 1, [⟨0, 0, .rws, 0, .any⟩]⟩,
  ⟨0x440, 4, 1, 4, 1, [⟨31, 0, .roh, 0xFFFFFFFF, .any⟩]⟩,
  ⟨0x444, 4, 1, 4, 1, [⟨31, 0, .roh, 0, .any⟩]⟩,
  ⟨0x448, 4, 1, 4, 1, [⟨31, 31, .roh, 0, .any⟩, ⟨30, 30, .roh, 0, .any⟩, ⟨28, 24, .roh, 1, .any⟩, ⟨22, 20, .roh, 0, .any⟩, ⟨19, 16, .roh, 0, .any⟩, ⟨12, 8, .roh, 0, .any⟩, ⟨4, 0, .roh, 0, .any⟩]⟩,
  ⟨0x44C, 4, 1, 4, 1, [⟨31, 0, .roh, 0, .any⟩]⟩,
  ⟨0x450, 4, 1, 4, 1, [⟨31, 0, .roh, 0, .any⟩]⟩,
  ⟨0x454, 4, 1, 4, 1, [⟨31, 0, .roh, 0, .any⟩]⟩,
  ⟨0x458, 4, 1, 4, 1, [⟨31, 0, .roh, 0, .any⟩]⟩,
  ⟨0x45C, 4, 1, 4, 1, [⟨31, 0, .roh, 0, .any⟩]⟩,
  ⟨0x460, 4, 1, 4, 1, [⟨31, 16, .roh, 5, .any⟩, ⟨9, 9, .roh, 1, .any⟩, ⟨8, 8, .roh, 1, .any⟩, ⟨2, 0, .roh, 2, .any⟩]⟩,
  ⟨0x464, 4, 1, 4, 1, [⟨31, 0, .roh, 0, .any⟩]⟩]

/-- Registers of the TMP page, Table TMP-2. -/
def regsTMP : List RegFam := [
  ⟨0x40, 0x20, 12, 4, 1, [⟨31, 0, .roh, 0, .any⟩]⟩,
  ⟨0x44, 0x20, 12, 4, 1, [⟨31, 0, .roh, 0, .any⟩]⟩,
  ⟨0x48, 0x20, 12, 4, 1, [⟨31, 0, .roh, 0, .any⟩]⟩,
  ⟨0x4C, 0x20, 12, 4, 1, [⟨31, 0, .roh, 0, .any⟩]⟩,
  ⟨0x50, 0x20, 12, 4, 1, [⟨31, 0, .roh, 0, .any⟩]⟩,
  ⟨0x54, 0x20, 12, 4, 1, [⟨31, 0, .roh, 0, .any⟩]⟩,
  ⟨0x58, 0x20, 12, 4, 1, [⟨1, 1, .roh, 0, .any⟩, ⟨0, 0, .roh, 0, .any⟩]⟩,
  ⟨0x400, 4, 1, 4, 1, [⟨11, 0, .roh, 0, .any⟩]⟩]

/-- The register families of a block (Table MAP-2). -/
def regFams : Tag → List RegFam
  | .sys => regsSYS
  | .pwr => regsPWR
  | .clk => regsCLK
  | .rst => regsRST
  | .hif => regsHIF
  | .evt => regsEVT
  | .aon => regsAON
  | .rtc => regsRTC
  | .dtm => regsDTM
  | .ope => regsOPE
  | .jnl => regsJNL
  | .alc => regsALC
  | .cle => regsCLE
  | .str => regsSTR
  | .aux => regsAUX
  | .out => regsOUT
  | .ctm => regsCTM
  | .skn => regsSKN
  | .ply => regsPLY
  | .thm => regsTHM
  | .cbl => regsCBL
  | .lsw => regsLSW
  | .vcm => regsVCM
  | .ses => regsSES
  | .plc => regsPLC
  | .saf => regsSAF
  | .sfc => regsSFC
  | .key => regsKEY
  | .cry => regsCRY
  | .frc => regsFRC
  | .lgl => regsLGL
  | .mtr => regsMTR
  | .trf => regsTRF
  | .tmp => regsTMP

end Sys2Proof.Machine
end

