-- ==== Sys2Proof/Machine/RegReset.lean ====
section
/-!
DEFINITION. What every register word holds at reset (R14, R46, R415), and what a page offset is: a header register, a
register of the field tables, a staged copy (R49), a SPEC window word (R53) or a reserved word.
-/

namespace Sys2Proof.Machine

/-- The register family at an offset of a page. PLY1 has the link registers alone (Table MAP-2: 3 registers). -/
def famAt (t : Tag) (n off : Nat) : Option RegFam :=
  if t = .ply && n = 1 && off < 0x480 then none
  else if off % 4 = 0 then (regFams t).find? fun r => r.covers off else none

/-- Whether a family is staged: it has an RWS field (R12, R49). -/
def RegFam.stagedReg (r : RegFam) : Bool := r.fields.any fun f => f.acc = .rws

/-- The reset word of a register's fields. -/
def RegFam.resetVal (r : RegFam) : Word := r.fields.foldl (fun w f => fset f.hi f.lo w f.reset) 0#32

/-- What lies at an offset of a page. -/
inductive Slot where
  | header
  | reg (r : RegFam)
  | staged (r : RegFam)
  | spec
  | rsv
  deriving DecidableEq, Repr

/-- What lies at an offset of a page (R46, R49, R53, R417). -/
def slotAt (t : Tag) (n off : Nat) : Slot :=
  if off < 0x30 then .header
  else
    match famAt t n off with
    | some r => if 0xC00 ≤ off then .spec else .reg r
    | none =>
      if 0xC00 ≤ off then (if t = .alc || t = .str then .spec else .rsv)
      else if 0x840 ≤ off && off < 0xC00 then
        match famAt t n (off - 0x800) with
        | some r => if r.stagedReg then .staged r else .rsv
        | none => .rsv
      else .rsv

/-- Reset words of the header (Table DOC-13, R415). -/
def headerReset (t : Tag) (n off : Nat) : Word :=
  if off = 0x000 then BitVec.ofNat 32 (t.code * 65536 + n)
  else if off = 0x004 then (if legalTag t then 0x01040000#32 else 0x01000000#32)
  else 0#32

/-- The word at a BAR0 address after reset: the field tables' resets, 0 where nothing is named. The vector control
words of the MSI-X table are 1, masked (PCI Express; log entry 6). -/
def resetWord (a : Nat) : Word :=
  if 0xFE000 ≤ a && a < 0xFE400 then (if a % 16 = 12 then 1#32 else 0#32)
  else
    match pageOf (a / 4096) with
    | none => 0#32
    | some (t, n) =>
      match slotAt t n (a % 4096) with
      | .header => headerReset t n (a % 4096)
      | .reg r | .staged r => r.resetVal
      | .spec =>
        match famAt t n (a % 4096) with
        | some r => r.resetVal
        | none => 0#32
      | .rsv => 0#32

/-- Whether a page has staged registers (R417). -/
def hasStaged (t : Tag) (n : Nat) : Bool := !(t = .ply && n = 1) && (regFams t).any RegFam.stagedReg

/-- The EVT bits of a page (R46); PLY events are on PLY0. -/
def evtBits (t : Tag) (n : Nat) : Nat := if t = .ply && n = 1 then 0 else evtMask t

/-- The offsets of a family's registers. -/
def RegFam.offsets (r : RegFam) : List Nat :=
  (List.range r.n1).flatMap fun i => (List.range r.n2).map fun j => r.base + r.s1 * i + r.s2 * j

/-- The offsets of a page's staged registers. -/
def stagedOffsets (t : Tag) : List Nat := ((regFams t).filter RegFam.stagedReg).flatMap RegFam.offsets

end Sys2Proof.Machine
end

