-- ==== Sys2Proof/Machine/State.lean ====
section
/-!
DEFINITION. The state of the block: plain data. Every register of the map is one entry of `Dev.regs`, which lists only
what differs from the reset word; the working state behind the registers stands beside it.
-/

namespace Sys2Proof.Machine

/-! ### What leaves the part -/

/-- How a Yarn-line frame is sent: its attenuation in 0.5 dB, and the carriers that carry nothing (R216, R217). -/
structure YarnTx where
  att : Nat
  notch : List (Nat × Nat)
  deriving DecidableEq, Repr

/-- Something that leaves the part's pins or links (log entry 5): the model keeps a log of it, newest first. -/
inductive Sent where
  /-- An MSI-X message (R38). -/
  | msix (vec : Nat) (lo hi data : Word)
  /-- A Ply frame with the SEQ of its TYPE, on both links (R330). -/
  | ply (seq : Nat) (f : PlyFrame)
  /-- A Skein frame, from the first byte to the CRC (R130), and the count at which it was ready (R131). -/
  | skein (port : Nat) (ready : Nat) (bytes : List Byte)
  /-- An Ethernet frame to a vehicle on its point's local link (R199). -/
  | veh (point : Nat) (bytes : List Byte)
  /-- A SLAC or Green PHY management message on a coupling: 1 CM_SLAC_PARM.CNF, 2 CM_ATTEN_CHAR.IND,
  3 CM_SLAC_MATCH.CNF, 4 an answer to network join or key exchange, with its run and data (R202, R218). -/
  | slac (coupling kind run : Nat) (data : List Byte)
  /-- A Yarn-line frame, its payload with its CRC before encryption, with the sender's frame counter (R219, R232). -/
  | yarn (tx : YarnTx) (fc : YarnFc) (counter : Nat) (data : List Byte)
  /-- A SACK: to whom, the SEQ it answers, its bitmap (Table PLC-3). -/
  | yarnSack (tx : YarnTx) (dst seq bits : Nat)
  /-- A central beacon: PLC_BPCNT, ZC_OFS, and the next hop towards the device of every UP peer (R221). -/
  | yarnBeacon (tx : YarnTx) (count ofs : Nat) (hops : List (Nat × Nat))
  /-- A tone map for a peer: generation, bits of each carrier (R219, R220). -/
  | yarnTone (tx : YarnTx) (peer gen : Nat) (map : List Nat)
  /-- A session marker to the L-die over the C–L link: start or end, loop, generation, point (R211, R268). -/
  | marker (start : Bool) (loop gen point : Nat)
  /-- A word read over the management port, and whether a PEC byte follows it (R42). -/
  | mgmt (v : Word) (pec : Bool)
  /-- A write to host memory: a ring entry at its place (R39). -/
  | dma (addr : Nat) (bytes : List Byte)
  /-- What a read over the endpoint returns (R36, R37). -/
  | readCpl (bytes : List Byte)
  deriving DecidableEq, Repr

/-! ### Host interface -/

/-- An event ring entry not yet consumed (Table HIF-4). -/
structure EvEntry where
  idx : Nat
  page : Nat
  bit : Nat
  phase : Nat
  overflow : Bool
  injected : Bool
  count : Nat
  time : Nat
  deriving DecidableEq, Repr

/-- A completion entry (Table HIF-3). -/
structure CqEntry where
  tag : Nat
  cls : Nat
  replayed : Bool
  compensated : Bool
  status : Nat
  jnlIndex : Nat
  time : Nat
  idx : Nat := 0
  phase : Nat := 0
  /-- The entry names a DONE record, whose DLV it sets (R319); an invalid descriptor's does not (R315). -/
  hasRec : Bool := true
  deriving DecidableEq, Repr

/-- The host interface behind the HIF registers. -/
structure HostIf where
  /-- Event ring entries written and not consumed, oldest first. -/
  eq : List EvEntry := []
  /-- Entries owed to the overflow marker, and the time of the first of them. -/
  eqLost : Nat := 0
  eqLostAt : Nat := 0
  /-- Ring index + 1 of the entry written for a pending event. -/
  evIdx : AMap Nat := []
  /-- Completion entries written and not consumed, oldest first. -/
  cq : List CqEntry := []
  /-- Completions held in their reserved slots, oldest first. -/
  cqHeld : List CqEntry := []
  /-- Entries written since the last vector-0 message, and the time of the last. -/
  cqBatch : Nat := 0
  cqLast : Nat := 0
  /-- MSI-X capability: function mask and enable (log entry 6). -/
  fnMask : Bool := false
  msixEn : Bool := false
  /-- Bus mastering enabled (R35); max payload and read request sizes as coded, ASPM L1 enabled (R34). -/
  busMaster : Bool := false
  payload : Nat := 0
  readReq : Nat := 2
  aspmL1 : Bool := false
  /-- The address pointer of the management port (R42). -/
  mgmtPtr : Nat := 0
  /-- The function stands in D3hot (R35). -/
  d3 : Bool := false
  deriving DecidableEq, Repr

/-! ### Fault recorder -/

/-- A field of a source record: a number of so many bytes, valid or not, or a mask. -/
inductive FrcFld where
  | num (bytes : Nat) (v : Int) (valid : Bool)
  | mask (bytes : Nat) (v : Nat)
  deriving DecidableEq, Repr

/-- A source record (Table FRC-2). -/
structure FrcRec where
  time : Nat
  missed : Bool
  flds : List FrcFld
  deriving DecidableEq, Repr

/-- The working state of a capture region: entry times newest first, next entry, open block, decimation count. -/
structure FrcRegion where
  times : List Nat := []
  next : Nat := 0
  frozen : Bool := false
  block : List FrcRec := []
  count : Nat := 0
  deriving DecidableEq, Repr

/-- The recorder. -/
structure Frc where
  regions : AMap FrcRegion := []
  deriving DecidableEq, Repr

/-! ### Skein (R125 to R150) -/

/-- Who waits for the answer of an IO_REQ. -/
inductive IoOwner where
  /-- The operation in a slot. -/
  | op (slot : Nat)
  /-- The output of an auxiliary loop, or a pilot or CE drive: link traffic of its own (R30). -/
  | drive
  deriving DecidableEq, Repr

/-- An IO_REQ waiting for its IO_ACK (R143). -/
structure IoReq where
  port : Nat
  pos : Nat
  tag : Nat
  op : Nat
  index : Nat
  value : Int
  /-- Resends made, and the time of the last attempt. -/
  resends : Nat
  sentAt : Nat
  owner : IoOwner
  deriving DecidableEq, Repr

/-- A tunnelled frame being put together: its FRAME ID and T1S port, the next fragment, the arrival of its first bit, its
bytes so far (R130, R200, R201). -/
structure Tun where
  id : Nat
  port : Nat
  next : Nat
  at0 : Nat
  bytes : List Byte
  deriving DecidableEq, Repr

/-- What the device knows of a node position; key 8 × port + position. -/
structure Node where
  /-- Withheld after NODE_MISMATCH (R146). -/
  mismatch : Bool := false
  /-- Time of the last STATUS, or of enumeration. -/
  statusAt : Nat := 0
  /-- TAG of the last request (R144). -/
  tag : Nat := 255
  /-- TYPE with SEQ, TAG or time of the last frames, newest first, to drop ring copies (R128). -/
  last : List (Nat × Nat) := []
  /-- Tunnelled frames being put together. -/
  tuns : List Tun := []
  /-- A frame put together and not yet handed on (R201). -/
  tunReady : Option Tun := none
  /-- Node class and version reported. -/
  ident : List Byte := []
  deriving DecidableEq, Repr

/-- An input channel of a node; key (8 × port + position) × 256 + channel. -/
structure Input where
  val : Int := 0
  time : Nat := 0
  seen : Bool := false
  stale : Bool := false
  /-- A VALUE has been received since enumeration (R372). -/
  known : Bool := false
  deriving DecidableEq, Repr

/-- A Skein port. -/
structure SknPort where
  syncSeq : Nat := 0
  syncAt : Nat := 0
  /-- Time of the last ENUM, and whether its 1 ms has been judged. -/
  enumAt : Nat := 0
  deriving DecidableEq, Repr

/-- The Skein link. -/
structure Skein where
  ports : AMap SknPort := []
  nodes : AMap Node := []
  inputs : AMap Input := []
  reqs : List IoReq := []
  deriving DecidableEq, Repr

/-! ### Contactors (R154 to R158) -/

/-- A contactor entry behind CTM_STATn. -/
structure Entry where
  /-- The last contact reading, closed or not, and for how many consecutive IO_IN updates it has stood. -/
  raw : Bool := false
  run : Nat := 0
  /-- Updates with that reading since the IO_ACK of the command. -/
  ackRun : Nat := 0
  /-- Time of the IO_ACK of the command in force; none before it. -/
  ackAt : Option Nat := none
  /-- An open waits for the close's IO_ACK; a close waits for the open (R156). -/
  openWaits : Bool := false
  closeWaits : Bool := false
  deriving DecidableEq, Repr

/-! ### Operations and the journal (R313 to R328) -/

/-- The phases of an operation. -/
inductive OpPhase where
  /-- Requested, not issued. -/
  | queued
  /-- Issued: its ISSUE record is written. -/
  | issued
  /-- Its action has begun. -/
  | acting
  /-- Its result is determined; its DONE record is not yet written. -/
  | finished
  deriving DecidableEq, Repr

/-- An operation (R313). -/
structure Op where
  cls : Nat
  kind : Nat
  args : List Byte
  host : Bool := false
  ess : Bool := true
  tag : Nat := 0xFFFF
  phase : OpPhase := .queued
  slot : Nat := 0
  /-- SEQ of its ISSUE record, and the index of its newest ISSUE or MOVED record. -/
  refSeq : Nat := 0
  recIdx : Nat := 0
  status : Nat := 0
  replayed : Bool := false
  compensated : Bool := false
  /-- Tags of host requests merged into it (R316). -/
  merged : List Nat := []
  /-- Progress within its action: free for the kind's own use. -/
  stage : Nat := 0
  time : Nat := 0
  deriving DecidableEq, Repr

/-- A journal record (Table JNL-1). -/
structure JRec where
  kind : Nat
  cls : Nat := 0
  opkind : Nat := 0
  rclass : Nat := 0
  slot : Nat := 0
  tag : Nat := 0
  seq : Nat
  ref : Nat := 0
  time : Nat
  body : List Byte := []
  dlv : Bool := false
  deriving DecidableEq, Repr

/-- The operation engine and the journal. -/
structure OpEng where
  safeQ : List Op := []
  intQ : List Op := []
  /-- Operations in their slots, in order of issue. -/
  flight : List Op := []
  /-- Journal records by index; none: empty. -/
  jnl : AMap (Option JRec) := []
  /-- Ring records between tail and head. -/
  used : Nat := 0
  /-- Ring index + 1 of the newest SESSION record of a loop. -/
  sesRec : AMap Nat := []
  /-- Power-fail warning in force (R324), and the time PFAILN returned. -/
  pfail : Bool := false
  /-- Quiesce window: its start (R325). -/
  quiesce : Option Nat := none
  /-- Last non-essential issue. -/
  lastNonEss : Option Nat := none
  /-- The host ring waits on condition 2; some source waits on condition 3 (R317). -/
  waitCq : Bool := false
  waitJnl : Bool := false
  deriving DecidableEq, Repr

/-! ### Strands (R85 to R124) -/

/-- The state of a loop (R88): integrator and derivative state in Q12.28, previous measurement in Q4.28, and whether
what it drives was clamped at its upper or lower limit in the previous sample. -/
structure Pid where
  i : Int := 0
  d : Int := 0
  y : Int := 0
  hi : Bool := false
  lo : Bool := false
  deriving DecidableEq, Repr

/-- A shed prepared in the period before its commit (R83): the duty and trims without the phase. -/
structure ShedPlan where
  sample : Nat
  phase : Nat
  onTime : Int
  trims : List Int
  deriving DecidableEq, Repr

/-- Edges of one phase in 1/64 tick, absolute. -/
structure Edge where
  rise : Int
  fall : Int
  pulse : Bool
  deriving DecidableEq, Repr

/-- A strand behind its STR page. -/
structure Strand where
  /-- Time of the last sample boundary, its number, and the first boundary after the carrier starts. -/
  boundary : Nat := 0
  sample : Nat := 0
  started : Bool := false
  /-- The telemetry of the valley sample, and of the peak sample, is awaited (R96, R97). -/
  awaiting : Bool := false
  awaitPeak : Bool := false
  /-- The event from which the carrier's first boundary counts (R103). -/
  carrierAt : Nat := 0
  /-- TLM_DL and MISS_LIMIT as the strand took them at its last sample start (R101). -/
  dl : Nat := 0
  missLim : Nat := 0
  /-- The row whose allocation the strand applied last, as its boundary; a new allocation or a bank swap takes effect at
  the present sample (R27, R84). -/
  rowSeen : Nat := 0
  newSet : Bool := false
  sh : Pid := {}
  ph : AMap Pid := []
  /-- Capability term of the last snapshot (R62), mA. -/
  cap : Int := 0
  /-- Share ramp: 0 none, 1 falling, 2 rising, and its start (R94). -/
  ramp : Nat := 0
  rampAt : Nat := 0
  /-- Last V_point / VBUS quotient, Q4.28; consecutive low VBUS samples; consecutive missed samples. -/
  quot : Int := 0
  low : Nat := 0
  miss : Nat := 0
  /-- Consecutive invalid samples and consecutive samples at the trim limit, by phase (R110, R111). -/
  inv : AMap Nat := []
  imb : AMap Nat := []
  /-- Consecutive wholly valid samples in fallback (R109). -/
  good : Nat := 0
  /-- Hold of a pending shed, its plan, lockout end (R112, R83, R115). -/
  holdAt : Option Nat := none
  plan : Option ShedPlan := none
  lockEnd : Nat := 0
  /-- |I_strand| of the last sample when it was not missed (R115), and the sample's time. -/
  lastI : Option Int := none
  /-- Last edges sent, by phase, and those of the period before; whether the next period's edges are STOP. -/
  edges : AMap (Option Edge) := []
  edgesPrev : AMap (Option Edge) := []
  stopped : Bool := true
  /-- On-time in use, 1/64 tick. -/
  onTime : Int := 0
  /-- The sharing trim in use, Q4.28; the first update after a restart takes the feed-forward terms alone (R120). -/
  tsh : Int := 0
  ffOnly : Bool := false
  /-- Time of the outer-loop sample whose current slope has entered the duty (R92). -/
  olUsed : Option Nat := none
  /-- A shed's hold expires at the present sample: 0 it may commit, else the reason against it (R83), 9 where the shed has
  been dropped since; the sample's duty and edges wait for it. -/
  expiring : Option Nat := none
  duty : Option Int := none
  /-- Output voltage in the last telemetry, mV. -/
  vout : Int := 0
  /-- Restart check running since, and consecutive good samples (R120). -/
  restartAt : Option Nat := none
  restartN : Nat := 0
  /-- Whether the strand's node has acknowledged ARM since it was last stopped (R147), and an ARM is under way. -/
  armed : Bool := false
  arming : Bool := false
  /-- Release under way: opens issued, FREE once confirmed (R71, R442). -/
  releasing : Bool := false
  /-- A handover's pre-bias: when |difference| came within tolerance. -/
  preOk : Option Nat := none
  /-- The limits it reported before it stopped, mA and W (Table ALC-11). -/
  limI : Nat := 0
  limP : Nat := 0
  /-- Sum of the phase currents in the last telemetry, mA, and its time (R295). -/
  tlmI : Int := 0
  tlmAt : Option Nat := none
  deriving DecidableEq, Repr

/-! ### Points (R85 to R95, R116 to R124) -/

/-- What an outer-loop sample left: its time, u_ol (Q4.28), r and dr (mA) (R85, R92). -/
structure OlSample where
  time : Nat := 0
  u : Int := 0
  r : Int := 0
  dr : Int := 0
  deriving DecidableEq, Repr

/-- A point behind its OUT page. -/
structure Point where
  /-- Recent outer-loop samples, newest first, for the strands whose own sample lies before the latest (R85). -/
  ols : List OlSample := []
  ci : Pid := {}
  cv : Pid := {}
  /-- Reference r and its change in the last sample, mA; outer output, Q4.28. -/
  r : Int := 0
  dr : Int := 0
  uol : Int := 0
  /-- The CV loop was selected in the last sample (R87, R89). -/
  selCv : Bool := false
  /-- Entry into the present state. -/
  since : Nat := 0
  /-- V_ref while pre-biasing and closing: V_veh at completion, mV. -/
  vPre : Int := 0
  /-- Pre-bias within tolerance since; soft start began; condition C holds since. -/
  okAt : Option Nat := none
  ssAt : Nat := 0
  shortAt : Option Nat := none
  /-- Recent outer-loop samples of V_point, newest first. -/
  vHist : List (Nat × Int) := []
  /-- r at the start of the ramp-down or of the ramp under ALC_STALL; the stall's ramp acts on this point (R28). -/
  r0 : Int := 0
  stalled : Bool := false
  /-- Discharge verified; discharge began; reverse discharge still acting; verification only. -/
  verified : Bool := false
  disAt : Nat := 0
  reverse : Bool := false
  /-- Bind-off under way (R121), so that its end raises BO_DONE. -/
  bindOff : Bool := false
  /-- Vehicle-open indication present (R210). -/
  vehOpen : Bool := false
  /-- The end marker owed to a session that charged, until every OUTPUT entry is open: its slot and generation (R211). -/
  endOwed : Option (Nat × Nat) := none
  /-- Time the present FAULT was recorded. -/
  faultAt : Nat := 0
  /-- Row sums: samples, I_point, V_point, I_point² and the modes seen (R95). -/
  rowN : Nat := 0
  rowI : Int := 0
  rowV : Int := 0
  rowI2 : Int := 0
  rowModes : Nat := 0
  /-- Insulation timers (R161). -/
  isoAt : Option Nat := none
  isoLostAt : Option Nat := none
  /-- Clamp r to the target at the next outer sample without slew (R92). -/
  clampNow : Bool := false
  /-- Setpoint of the allocation the lead applies (R27), and slope of the active allocation. -/
  setUse : Int := 0
  slope : Int := 0
  /-- The loss of clock that this bind-off answers (R386). -/
  lossAt : Option Nat := none
  deriving DecidableEq, Repr

/-! ### Sessions (R203 to R213) -/

/-- A session slot behind SES_STATn: its windowed registers and timers. -/
structure Ses where
  pimax : Nat := 0
  ppmax : Nat := 0
  pvpres : Nat := 0
  pvtgt : Nat := 0
  pclass : Nat := 2
  pseq : Nat := 0
  aimax : Nat := 0
  apmax : Nat := 0
  avpres : Nat := 0
  avtgt : Nat := 0
  aclass : Nat := 2
  /-- A VALIDATE has been accepted since the session opened. -/
  validated : Bool := false
  /-- Start of LINKWAIT or AUTHWAIT, and of the refresh timer (R207). -/
  waitAt : Nat := 0
  refreshAt : Option Nat := none
  /-- Setpoint held since HOLD (R206). -/
  holdI : Int := 0
  /-- Time of START, and of the end; its duration to ENDED in ms. -/
  startAt : Nat := 0
  endAt : Nat := 0
  endMs : Nat := 0
  /-- The session reached CHARGING (R211); a strand has been reserved for it. -/
  charged : Bool := false
  reserved : Bool := false
  deriving DecidableEq, Repr

/-! ### Vehicle interfaces (R193 to R202) -/

/-- A point's vehicle interface behind VCM_CPn. -/
structure Veh where
  /-- The band of the latest samples and since when (Table VCM-1); since when E or INVALID; PILOT_FAULT raised. -/
  cand : Nat := 7
  candAt : Nat := 0
  badAt : Option Nat := none
  badRaised : Bool := false
  /-- CE_FAULT raised since the readback last agreed; since when it disagrees (R198). -/
  ceRaised : Bool := false
  ceBadAt : Option Nat := none
  /-- The class of the latest ID samples, 7 before any, and since when (R198). -/
  idCand : Nat := 7
  idAt : Nat := 0
  /-- The CP_MODE last written to the IO node since its enumeration and the last VCM commit (R197). -/
  driven : Option Nat := none
  deriving DecidableEq, Repr

/-- A Green PHY coupling behind VCM_SLACk: the run of its SLAC exchange and the vehicle's address. -/
structure Slac where
  run : Nat := 0
  mac : Nat := 0
  /-- When the run's CM_SLAC_PARM.REQ was answered (R202). -/
  at0 : Nat := 0
  nid : List Byte := []
  nmk : List Byte := []
  deriving DecidableEq, Repr

/-- The vehicle interfaces. -/
structure Vcm where
  pts : AMap Veh := []
  slac : AMap Slac := []
  /-- Slots of the receive ring written and not consumed. -/
  rxUsed : Nat := 0
  /-- FRAME ID of the next tunnelled frame sent. -/
  tunId : Nat := 0
  deriving DecidableEq, Repr

/-! ### Tension (R54 to R84) -/

/-- What settles a premise (R75, R76). -/
inductive RowEv where
  | sessionEnd (point : Nat)
  | validated (point : Nat)
  | rejected (point : Nat)
  | targetsChanged (point : Nat)
  | endWithdrawn (point : Nat)
  | restartPass (strand : Nat)
  | restartFail (strand : Nat)
  | shed (strand : Nat)
  | shedAbort (strand : Nat)
  deriving DecidableEq, Repr

/-- A scenario of the present row: its premise and row, when its computation runs, its result, how far its slot has
been written (0 not started, 1 computing, 2 complete), and its premise: 0 open, 1 confirmed, 2 refuted. -/
structure Scn where
  prem : Premise
  row : Nat
  startAt : Nat
  doneAt : Nat
  res : AlcRes
  stage : Nat := 0
  verdict : Nat := 0
  deriving DecidableEq, Repr

/-- The allocation engine. -/
structure Alc where
  /-- A row has begun; its boundary, its length in ticks, the first boundary. -/
  started : Bool := false
  rowAt : Nat := 0
  rowLen : Nat := 0
  firstAt : Nat := 0
  /-- The allocation computed in this row, when it is complete, and the time it takes; none in a row without one. -/
  next : Option AlcRes := none
  doneAt : Nat := 0
  calcUs : Nat := 0
  scns : List Scn := []
  /-- Points whose session was allocatable in the snapshot, and that session. -/
  live : List (Nat × Nat) := []
  /-- Consecutive overrun rows; start of ALC_STALL (R28). -/
  overruns : Nat := 0
  stallAt : Nat := 0
  /-- The instant of R56 in force; the fallback stands. -/
  gridAt : Nat := 0
  gridFb : Bool := false
  /-- The price delivered and when (R57); one has come since the price was last stale; PRICE_STALE has been raised. -/
  price : Nat := 0
  priceAt : Nat := 0
  priceNew : Bool := false
  priceRaised : Bool := false
  /-- Handover slots holding a request that waits for the snapshot, oldest first (R72). -/
  hoWait : List Nat := []
  /-- The snapshot of the present row. -/
  snap : AlcSnap := {}
  deriving DecidableEq, Repr

/-! ### Temperatures (R162 to R178) -/

/-- A temperature channel behind its THM page. -/
structure Thm where
  /-- Consecutive conversions that met the open, short and range conditions; consecutive clean ones (R165). -/
  openN : Nat := 0
  shortN : Nat := 0
  rangeN : Nat := 0
  cleanN : Nat := 0
  /-- Time of the last reading taken, and that reading, 0.1 °C. -/
  lastAt : Nat := 0
  last : Int := 0
  /-- Readings of the present row: their sum and number; of the row ended (R170). -/
  rowSum : Int := 0
  rowN : Nat := 0
  prevSum : Int := 0
  prevN : Nat := 0
  /-- Readings of the last 1.1 s, newest first (R174). -/
  hist : List (Nat × Int) := []
  /-- Consecutive conversions on the hot side of the comparator; the error of its threshold, 0.1 K (R166). -/
  hotN : Nat := 0
  cmpErr : Int := 0
  /-- The trip held by the island: 0 none, 1 waiting for the next evaluation, 2 taken; its point; cool conditions
  since (R166, R167). -/
  trip : Nat := 0
  tripPt : Nat := 0
  coolAt : Option Nat := none
  /-- The round of its last conversion (R162). -/
  round : Option Nat := none
  deriving DecidableEq, Repr

/-- A cable model behind its CBL page. -/
structure Cbl where
  /-- Initialised (R171); the nodes, °C; the last coolant inlet used. -/
  init : Bool := false
  tc : B64 := .fin 0
  tp : B64 := .fin 0
  tw : B64 := .fin 0
  /-- Entered DERATE since the last row boundary (R174). -/
  derNew : Bool := false
  /-- Number of the last 100 ms evaluation. -/
  rorIx : Nat := 0
  deriving DecidableEq, Repr

/-- The die sensors and their shutdown (R177, R178). -/
structure Die where
  /-- Consecutive readings outside the range, by sensor. -/
  badN : AMap Nat := []
  /-- Shutdown since, its sensor, whether the domains are off, and since when every comparator has stayed cool. -/
  shutAt : Option Nat := none
  sensor : Nat := 0
  off : Bool := false
  coolAt : Option Nat := none
  deriving DecidableEq, Repr

/-! ### Load switches (R179 to R192) -/

/-- A load-switch channel behind its LSW page. -/
structure Lsw where
  /-- The state to return to: 1 ON, 2 PWM, else 0. -/
  prev : Nat := 0
  /-- A trip I2T or SHORT waits for its retry; time of the trip. -/
  retry : Bool := false
  tripAt : Nat := 0
  /-- Time of the last FAULT recorded, of the last switch-off, and since when the channel has stayed on. -/
  faultAt : Nat := 0
  offAt : Option Nat := none
  onAt : Nat := 0
  /-- Time at which it returns after UV_OFF. -/
  uvAt : Option Nat := none
  /-- PWM periods: from when, and their length in ticks; those that still run until then (R192). -/
  pwmAt : Nat := 0
  pwmPer : Nat := 0
  pwmWas : Nat × Nat := (0, 0)
  deriving DecidableEq, Repr

/-- The 24 V supply as measured (R188). -/
structure Vaux where
  /-- Consecutive measurements below 5.5 V; since when above 9 V. -/
  low : Nat := 0
  above : Option Nat := none
  deriving DecidableEq, Repr

/-- An auxiliary loop behind its AUX page (R104, R105). -/
structure AuxLoop where
  pid : Pid := {}
  /-- Number of the last 1 ms grid point taken, and the bank used there. -/
  ix : Nat := 0
  bank : Nat := 0
  deriving DecidableEq, Repr

/-! ### Yarn line (R214 to R234) -/

/-- A payload queued for a peer (R222, R225): what is left of it, and who waits for it. -/
structure YTx where
  peer : Nat
  cls : Nat
  data : List Byte
  owner : Option Nat := none
  /-- Attempts made with the piece now sent, its length, its SEQ; an impulse holds its repeat until then. -/
  tries : Nat := 0
  piece : Nat := 0
  seq : Option Nat := none
  hold : Option Nat := none
  /-- MODE, TMI and payload bits per symbol of the last attempt; a repeat after an impulse keeps them (R225). -/
  mode : Nat × Nat × Nat := (0, 0, 0)
  keep : Bool := false
  /-- Backoff slots left, and since when it contends (R222). -/
  boff : Nat := 0
  boffAt : Nat := 0
  deriving DecidableEq, Repr

/-- What the device knows of a peer beyond PLC_NBRn. -/
structure YPeer where
  /-- Beacon period in which it was last heard; classes of its last beacons, newest first (R227, R230). -/
  heard : Nat := 0
  phases : List Nat := []
  /-- Costs it reports for the stations it hears, saturated (R221, R228). -/
  costs : AMap Nat := []
  /-- The tone map it has sent for the device: bits of each carrier (empty: none), generation. -/
  txMap : List Nat := []
  txGen : Nat := 0
  /-- The last generation the device has sent it, and the beacon period of that update. -/
  rxGen : Nat := 0
  rxAt : Nat := 0
  /-- Consecutive failures without impulse; sent in ROBO-4 until a new generation (R220). -/
  fails : Nat := 0
  robust : Bool := false
  /-- Repeaters of the route in use, from the device (R229). -/
  route : List Nat := []
  /-- SEQ of the last frame taken from it, plus 1; SEQ of the next frame to it. -/
  lastSeq : Nat := 0
  txSeq : Nat := 0
  /-- Payloads held until a receive is posted, oldest first (R231). -/
  held : List (Nat × List Byte) := []
  deriving DecidableEq, Repr

/-- The Yarn-line engine. -/
structure Yarn where
  q : List YTx := []
  /-- The frame in the air, and its end; whether its SACK is awaited. -/
  air : Option YTx := none
  airEnd : Nat := 0
  /-- When contention may next begin (R222); the end of the last erased symbol (R224). -/
  freeAt : Nat := 0
  lastErase : Option Nat := none
  peers : AMap YPeer := []
  /-- CW multiplier of a class, as a power of two (R222). -/
  cw : AMap Nat := []
  /-- Zero-cross input: the last accepted edge as dated, consecutive edges in range, edges since the period began. -/
  zc : Option Nat := none
  zcGood : Nat := 0
  edges : Nat := 0
  /-- Enabled at; the beacon period in force since. -/
  enAt : Nat := 0
  bpAt : Option Nat := none
  /-- The frame counter of R232, which never repeats under one key; payloads received so far. -/
  counter : Nat := 0
  rxN : Nat := 0
  deriving DecidableEq, Repr

/-! ### Safety (R292 to R312) -/

/-- A safety function behind SAF_INSTn. -/
structure SafFn where
  /-- Evaluation at which the discrepancy timer started; the channels disagreed at the previous evaluation. -/
  e0 : Nat := 0
  differ : Bool := false
  /-- Since the fault both channels have read demand together; since the start-up test began likewise (R298, R299). -/
  discBoth : Bool := false
  testBoth : Bool := false
  deriving DecidableEq, Repr

/-- An output pair behind SAF_PAIRSTp. -/
structure SafPair where
  /-- The trip that acts on it while it is still energised (R295). -/
  tripAt : Option Nat := none
  /-- Consecutive readbacks that mismatch, and the code of the last (R304); time of the last test (R305). -/
  mis : Nat := 0
  code : Nat := 0
  testAt : Option Nat := none
  deriving DecidableEq, Repr

/-- The reset input (R300), in evaluations. -/
structure SafRst where
  /-- Since when the two channels differ; that difference has raised RST_DISC. -/
  diffAt : Option Nat := none
  flagged : Bool := false
  /-- The pulse under way, and whether its leading edge was bad. -/
  pulseAt : Option Nat := none
  bad : Bool := false
  /-- A pulse that ended at the present evaluation: its length in ms, and whether it is to be ignored. -/
  ended : Option (Nat × Bool) := none
  /-- Since when channel A and B are active, and since when both are inactive. -/
  aAt : Option Nat := none
  bAt : Option Nat := none
  idleAt : Option Nat := none
  deriving DecidableEq, Repr

/-- A safety-layer connection behind SFC_STATn (R309). -/
structure SfcCon where
  /-- SEQ of the next frame, and the time of the last sent (R310). -/
  txSeq : Nat := 0
  txAt : Option Nat := none
  /-- A base SEQ stands; frames accepted after it; time of the last accepted; since when READY counts. -/
  base : Bool := false
  count : Nat := 0
  wdAt : Nat := 0
  readyAt : Nat := 0
  /-- Bits of the last accepted frame. -/
  bits : Nat := 0
  /-- Times of recent CRC failures, newest first. -/
  crcAt : List Nat := []
  deriving DecidableEq, Repr

/-- The safety island. -/
structure Saf where
  /-- Accepted levels of the input channels, active or not: key 2 × function + channel (R296). -/
  level : AMap Bool := []
  fns : AMap SafFn := []
  pairs : AMap SafPair := []
  rst : SafRst := {}
  cons : AMap SfcCon := []
  /-- Number of the last evaluation, plus 1; points whose trip has acted. -/
  evalIx : Nat := 0
  deriving DecidableEq, Repr

/-! ### Clocks (R378 to R389) -/

/-- A PLL: its state as in CLK_STAT, its band, searches that failed in this attempt, time of its last lock. PLL-F and
PLL-T show state and band in the CLK page; PLL-M has no page. -/
structure Pll where
  state : Nat := 0
  band : Nat := 0
  fails : Nat := 0
  lockAt : Nat := 0
  deriving DecidableEq, Repr

/-- The clocks: PLL 0 F, 1 T, 2 M; the reference valid since; the last loss not yet made good. -/
structure Clk where
  plls : AMap Pll := []
  refAt : Nat := 0
  lossAt : Option Nat := none
  deriving DecidableEq, Repr

/-! ### Keys (R350 to R367) -/

/-- A slot's record (R358): 0 EMPTY, 1 VALID, 2 INVALID; its attributes and its key. -/
structure KeySlot where
  state : Nat := 0
  typ : Nat := 0
  attr : Nat := 0
  lcmask : Nat := 0
  role : Nat := 0
  parent : Nat := 0
  key : List Byte := []
  deriving DecidableEq, Repr

/-- Keys, fuses and the boot flash. Bank 0 and 1 are runtime A and B, 2 and 3 configuration A and B (R364). -/
structure Key where
  /-- OTP: lifecycle and generation fuses, minimum security version, the root; none: unfused (R350 to R353, R367). -/
  lc : Nat := 0
  gen : Nat := 0
  minSvn : Nat := 0
  root : Option (List Byte) := none
  /-- Debug armed for the next cast-on (R356). -/
  armed : Bool := false
  slots : AMap KeySlot := []
  /-- Keys held in the crypto contexts (R361). -/
  ctx : AMap (List Byte) := []
  /-- The boot flash, each byte held as its complement, so that an erased byte is not listed. -/
  flash : AMap Byte := []
  /-- Bank states as in KEY_IMG; trial boots counted, by kind; the running configuration bank. -/
  bank : AMap Nat := []
  trials : AMap Nat := []
  cfgRun : Nat := 2
  /-- Sectors erased in the write sequence under way; banks left unusable by an interrupted IMG_WRITE (R365). -/
  erased : List Nat := []
  broken : AMap Bool := []
  /-- Banks kept as the fallback of the confirmed one (R366). -/
  fallback : AMap Bool := []
  /-- Issue of the challenge in force (R354); time of the entropy failure (R351). -/
  chalAt : Option Nat := none
  failAt : Nat := 0
  deriving DecidableEq, Repr

/-! ### The L-die (R235 to R291) -/

/-- An energy register: the register and its residue as one 96-bit value (R246), and WRAP (R247). -/
structure EReg where
  v : Nat := 0
  wrap : Int := 0
  deriving DecidableEq, Repr

/-- A modulator channel: LOST, when its condition was last met, an OVR sample in this second (R240). -/
structure MtrCh where
  lost : Bool := false
  lostAt : Nat := 0
  ovr : Bool := false
  deriving DecidableEq, Repr

/-- Zero crossings of a phase voltage (R244), placed in 1/1,024 sample: the crossing waits for the rise above the upper
threshold, the last sample, the candidate; the first and the last of the second, and how many; last second's Vrms. -/
structure Zx where
  below : Bool := false
  prev : Int := 0
  cand : Nat := 0
  first : Nat := 0
  last : Nat := 0
  n : Nat := 0
  vrms : Int := 0
  deriving DecidableEq, Repr

/-- A metering point: the sums of the present second over valid samples, its invalid samples; an AC incomer's step. -/
structure MtrPt where
  n : Nat := 0
  inv : Nat := 0
  ovr : Bool := false
  sv : Int := 0
  si : Int := 0
  sp : Int := 0
  /-- By phase: Σv², Σi², Σv·i, Σv90·i. -/
  v2 : List Int := []
  i2 : List Int := []
  vi : List Int := []
  qi : List Int := []
  zx : List Zx := []
  /-- Sample number; the frequency of the last second was valid. -/
  ix : Nat := 0
  fOk : Bool := false
  /-- The open AC step: samples, all valid, Σv·i, Σv90·i, Σi² by phase. -/
  stN : Nat := 0
  stOk : Bool := true
  stP : Int := 0
  stQ : Int := 0
  stI2 : List Int := []
  /-- Samples still invalid after the modulator clock returned, and the lock seen (R240). -/
  skip : Nat := 0
  lockSeen : Nat := 0
  /-- Seconds in a row with the reversal condition; recorded; seconds since without it (R241). -/
  revN : Nat := 0
  revDone : Bool := false
  revClear : Nat := 0
  deriving DecidableEq, Repr

/-- A tamper code's log (R265). -/
structure Tmp where
  count : Nat := 0
  sat : Bool := false
  first : Nat := 0
  last : Nat := 0
  detail : Nat := 0
  tinv : Bool := false
  deriving DecidableEq, Repr

/-- An open receipt (R268): what it holds of the start marker, its TAMPER mask and its flags. -/
structure Rcpt where
  loop : Nat
  gen : Nat
  start : Nat
  inv0 : Nat
  imp0 : EReg
  exp0 : EReg
  trf0 : List EReg
  tamper : Nat := 0
  flags : Nat := 0
  deriving DecidableEq, Repr

/-- An entry of an interval record (Table LGL-6): metering point, flags, invalid time in ms, values. -/
structure LEnt where
  mp : Nat
  flags : Nat
  inv : Nat
  vals : List Nat
  deriving DecidableEq, Repr

/-- The merged record kept open (R273). -/
structure Merged where
  start : Nat
  flags : Nat
  tamper : Nat
  ents : List LEnt
  deriving DecidableEq, Repr

/-- A record in the ring (Table LGL-5). -/
structure LRec where
  seq : Nat
  typ : Nat
  bytes : List Byte
  deriving DecidableEq, Repr

/-- What one transaction of R249 writes. Registers are keyed (8 × point + register) × 17 + tariff; register 0 IMP,
1 EXP, 2 NET, 3 to 6 VARH_Q1 to Q4, 7 VARH_NET; tariff 0 the total. Invalid times are in ticks. -/
structure Totals where
  ereg : AMap EReg := []
  acc : AMap Nat := []
  inv : AMap Nat := []
  invAll : AMap Nat := []
  entFlags : AMap Nat := []
  tmp : AMap Tmp := []
  /-- The running interval: open, T_START, FLAGS and TAMPER so far. -/
  ivOpen : Bool := false
  ivAt : Nat := 0
  ivFlags : Nat := 0
  ivTamper : Nat := 0
  rcpts : AMap (Option Rcpt) := []
  /-- The high-water mark H (R279), the RTC time of the transaction, its number, the POWERFAIL mark. -/
  h : Nat := 0
  time : Nat := 0
  seqno : Nat := 0
  pfail : Bool := false
  deriving DecidableEq, Repr

/-- The RTC (R276 to R282): seconds field, timebase count at the last second boundary, valid, crystal running, the slew
outstanding at that boundary in 2^-32 s, the step not yet applied: its seconds, whether it is deferred, whether it is a
setting of invalid time. -/
structure Rtc where
  sec : Nat := 0
  secAt : Int := 0
  valid : Bool := false
  osc : Bool := true
  slew : Int := 0
  slewAt : Int := 0
  step : Option Int := none
  stepDefer : Bool := false
  stepInval : Bool := false
  /-- A setting was executed since the last feed to the C-die. -/
  setNew : Bool := false
  deriving DecidableEq, Repr

/-- The legal island. -/
structure Lgl where
  /-- The legal partition has been initialised; booking runs; the ROM check halted the island. -/
  init : Bool := false
  book : Bool := false
  halted : Bool := false
  /-- Booking is to resume at the next boundary; the outage handled there: its start w and its flag (R291). -/
  resume : Bool := false
  outage : Option (Nat × Nat) := none
  romAt : Nat := 0
  rtc : Rtc := {}
  tot : Totals := {}
  copy : Totals := {}
  chs : AMap MtrCh := []
  pts : AMap MtrPt := []
  /-- Parameters, key 256 × p + instance: active, previous, staged, and the sealed set that becomes active next. -/
  par : AMap Int := []
  prev : AMap Int := []
  stage : AMap (Option Int) := []
  parNext : Option (AMap (Option Int) × AMap (List Byte)) := none
  /-- Public keys of OPR, BIL, MAU; staged ones; the certificate, the signing key; a SEAL has been made. -/
  keys : AMap (List Byte) := []
  keyStage : AMap (List Byte) := []
  cert : List Byte := []
  lsk : List Byte := []
  sealed : Bool := false
  /-- Calendars; the tariff in force. -/
  active : List Byte := []
  passive : List Byte := []
  tariff : Nat := 1
  /-- The record ring, oldest first; PREV of the next record; SEQ of the last; the merged record. -/
  recs : List LRec := []
  prevDigest : List Byte := []
  seq : Nat := 0
  merged : Option Merged := none
  /-- The challenge in force: nonce, role, time; times of failures; lockout end, start and length; last request. -/
  chal : Option (List Byte × Nat × Nat) := none
  fails : List Nat := []
  lockEnd : Nat := 0
  lockAt : Option Nat := none
  lockS : Nat := 0
  roleAt : Nat := 0
  deriving DecidableEq, Repr

/-! ### Cast-on, reset and power (R390 to R412) -/

/-- The reset classes of the C-die (Table RST-2). -/
inductive RstClass where
  | por
  | cpor
  | sys
  | thermal
  | wake
  | retfail
  deriving DecidableEq, Repr

/-- Cast-on and reset. -/
structure Sys where
  /-- The step of R404 that comes next; 0 once cast-on is complete. -/
  step : Nat := 1
  /-- Power-on reset is asserted on the C-die, on the L-die; the rails below their thresholds (R402). -/
  held : Bool := false
  lheld : Bool := false
  rails : List Rail := []
  /-- The class and the cause of this cast-on, and what RST_CAUSE shows with it (R411). -/
  cls : RstClass := .por
  cause : Nat := 1
  merged : Bool := false
  qforced : Bool := false
  sensor : Nat := 0
  /-- RSTN is low (R409). -/
  rstn : Bool := false
  /-- The instruction last accepted by the JTAG port (R355). -/
  jtag : JtagIr := .idcode
  /-- The start of the runtime's load (R406); REPLAY_DONE raised in this cast-on (R407). -/
  loadAt : Nat := 0
  replayed : Bool := false
  /-- Pairs opened by the quiesce window, as bits: they stay open until replay is complete (R325). -/
  pairHold : Nat := 0
  /-- Cast-ons of the C-die since POR. -/
  castons : Nat := 0
  /-- Domains this cast-on brings back from OFF; all of them but in class WAKE. -/
  back : List Nat := []
  /-- WAKE_DONE is to be raised when this cast-on has brought the domains back (R397). -/
  wakeDone : Bool := false
  /-- A SYS reset waits for the power entry or wake under way (R410). -/
  pend : Option Nat := none
  deriving DecidableEq, Repr

/-- The power controller. -/
structure Pwr where
  /-- Time of the last abort point passed; of the commit; of the end of the last entry. -/
  apAt : Nat := 0
  startAt : Nat := 0
  endAt : Option Nat := none
  /-- Domains lowered by the entry, with their targets; domains to be raised. -/
  lower : List (Nat × Nat) := []
  up : List Nat := []
  /-- Wake sources pending against the entry, as bits, and when the last of them came. -/
  pend : Nat := 0
  pendAt : Nat := 0
  deriving DecidableEq, Repr

/-! ### Ply (R329 to R348) -/

/-- The pair as this unit sees it. -/
structure Ply where
  /-- By TYPE: SEQ of the last frame accepted plus 1; SEQ of the next to send. -/
  last : AMap Nat := []
  txSeq : AMap Nat := []
  /-- By link: since when block lock stands; a HEARTBEAT has come since. -/
  lockAt : AMap (Option Nat) := []
  hb : AMap Bool := []
  /-- Last intact frame; Ply loss stands; last HEARTBEAT, HELLO and TIME sent. -/
  rxAt : Option Nat := none
  lost : Bool := false
  hbTx : Option Nat := none
  helloTx : Option Nat := none
  timeTx : Option Nat := none
  /-- The partner's last sign for R343: HELLO or ring frame, or the time this unit came up; the last ring frame. -/
  signAt : Nat := 0
  ringAt : Option Nat := none
  /-- The partner's state, row count and CFGCRC as last heard. -/
  pstate : Nat := 0
  prow : Nat := 0
  pcrc : Nat := 0
  /-- TIME: departure of the partner's last TIME and its arrival here; the step at pairing is made; latency and offset. -/
  tSent : Nat := 0
  tGot : Nat := 0
  stepped : Bool := false
  /-- Ply-join: newest SNAP and ALLOC received, with their rows; rows in a row late; the joint allocation runs; the
  boundary at which it resumes; the SNAP of this row was late. -/
  snapIn : Option (Nat × AlcSnap) := none
  allocIn : Option (Nat × AlcRes) := none
  lateN : Nat := 0
  joint : Bool := false
  rejoin : Option Nat := none
  /-- PLY-A waits for the SNAP of this row before it computes. -/
  waiting : Bool := false
  /-- Ply-guard: the mirrored snapshot and active allocation with their row; the active unit's safety states. -/
  mirRow : Option (Nat × AlcSnap × AlcRes) := none
  mirSaf : List (Nat × Word) := []
  /-- A safety state differed at this evaluation and at those before it, in a row. -/
  safBad : Nat := 0
  /-- Self-check: since when it runs, its result, the partner's result; it has passed since the pair formed. -/
  chkAt : Option Nat := none
  chkOwn : Option Bool := none
  chkPeer : Option Bool := none
  passed : Bool := false
  /-- Hold-off since; the return under way: T as a row boundary count, its moves, its cause (3 RETURN, 4 HOST). -/
  holdAt : Option Nat := none
  ret : Option (Nat × Nat × Nat) := none
  /-- The partner's return to which this unit yields: T. -/
  yieldAt : Option Nat := none
  /-- Journal SEQ up to which records have been mirrored. -/
  jnlSent : Nat := 0
  /-- First instant of the switchover under way (R344). -/
  swAt : Option Nat := none
  /-- Cross-check by metering point: seconds in a row beyond the limit, and within it; own power of the last second. -/
  bad : AMap Nat := []
  good : AMap Nat := []
  deriving DecidableEq, Repr

/-! ### The block -/

/-- Everything but the memories and the queue. -/
structure Dev where
  /-- The timebase count (R440). -/
  now : Nat := 0
  /-- The model's own draw counter for free values (log entry 4). -/
  freeCnt : Nat := 0
  /-- Register words by BAR0 address. -/
  regs : AMap Word := []
  /-- When a page's commit was requested, by page (R50, R101). -/
  stageAt : AMap Nat := []
  /-- What has left the part, newest first (log entry 5). -/
  sent : List Sent := []
  edram : AMap Byte := []
  host : HostIf := {}
  frc : Frc := {}
  skn : Skein := {}
  ctm : AMap Entry := []
  ope : OpEng := {}
  str : AMap Strand := []
  pt : AMap Point := []
  ses : AMap Ses := []
  vcm : Vcm := {}
  alc : Alc := {}
  thm : AMap Thm := []
  cbl : AMap Cbl := []
  die : Die := {}
  lsw : AMap Lsw := []
  vaux : Vaux := {}
  aux : AMap AuxLoop := []
  key : Key := {}
  clk : Clk := {}
  yarn : Yarn := {}
  saf : Saf := {}
  lgl : Lgl := {}
  sys : Sys := {}
  pwr : Pwr := {}
  ply : Ply := {}
  deriving DecidableEq, Repr

/-- The memories: 4 MiB of shared buffers (R36) and the MRAM. -/
structure Mem where
  sram : AMap Byte := []
  mram : AMap Byte := []
  deriving DecidableEq, Repr

/-- The whole state: the queue of waiting commands, the block, the memories. -/
structure State where
  pending : List Instr
  dev : Dev
  mem : Mem
  deriving DecidableEq, Repr

/-- No command stops the block with a fault: the spec answers every access (R37 lets a faulting access complete). -/
inductive Fault where
  /-- Raised by nothing: kept so that the type has a name for a stop. Safe. -/
  | none
  deriving DecidableEq, Repr

/-- Refusals. -/
inductive Refusal where
  /-- A command that has no meaning yet, by its mnemonic; raised by its arm of `exec` alone. Safe. -/
  | notModelled (mnemonic : String)
  deriving DecidableEq, Repr

/-- The block right after power-on reset is released on both dies: every register at its reset word, nothing listed,
nothing waiting; the reference clock is not yet valid (Table CLK-3). -/
def State.reset : State := { pending := [], dev := {}, mem := {} }

end Sys2Proof.Machine
end

