-- ==== Sys2Proof/Machine/Ops.lean ====
section
/-!
DEFINITION. The named operations over registers, events and messages that every meaning is written with: reading and
writing a field (R11, R12), the rejection record (R46), SEQ (R48), staging state (R49, R50), MSI-X messages (R38),
the event ring (R39, R41) and the completion ring (R39, R40), and what an access finds at an address (R37, R404).
-/

namespace Sys2Proof.Machine

/-! ### Fields -/

/-- The word of a register of an instance. -/
def Dev.word (d : Dev) (t : Tag) (n off : Nat) : Word := d.regs.get resetWord (pageIx t n * 4096 + off)

/-- Replace the word of a register of an instance. -/
def Dev.setWord (d : Dev) (t : Tag) (n off : Nat) (w : Word) : Dev :=
  { d with regs := d.regs.set resetWord (pageIx t n * 4096 + off) w }

/-- The value of a field of instance n, unsigned. -/
def Dev.rd (d : Dev) (n : Nat) (f : Field) : Nat := fget f.hi f.lo (d.word f.tag n f.off)

/-- The value of a field of instance n, two's complement (R9). -/
def Dev.rdI (d : Dev) (n : Nat) (f : Field) : Int := toSigned f.width (d.rd n f)

/-- Set a field of instance n (the value modulo the field's width: counters that wrap). -/
def Dev.wr (d : Dev) (n : Nat) (f : Field) (v : Nat) : Dev :=
  d.setWord f.tag n f.off (fset f.hi f.lo (d.word f.tag n f.off) v)

/-- Saturate an integer into an unsigned field of w bits (R10). -/
def satU (w : Nat) (v : Int) : Nat := if v < 0 then 0 else if v ≥ (2 ^ w : Nat) then 2 ^ w - 1 else v.toNat

/-- Saturate an integer into a two's complement field of w bits (R10). -/
def satS (w : Nat) (v : Int) : Int :=
  if v < -((2 ^ (w - 1) : Nat) : Int) then -((2 ^ (w - 1) : Nat) : Int)
  else if v ≥ ((2 ^ (w - 1) : Nat) : Int) then ((2 ^ (w - 1) : Nat) : Int) - 1 else v

/-- Set an unsigned field, saturating (R10). -/
def Dev.wrU (d : Dev) (n : Nat) (f : Field) (v : Int) : Dev := d.wr n f (satU f.width v)

/-- Set a two's complement field, saturating (R10). -/
def Dev.wrI (d : Dev) (n : Nat) (f : Field) (v : Int) : Dev := d.wr n f (ofSigned f.width (satS f.width v))

/-- Set a one-bit field. -/
def Dev.wrB (d : Dev) (n : Nat) (f : Field) (b : Bool) : Dev := d.wr n f (if b then 1 else 0)

/-- Whether a field is not 0. -/
def Dev.on (d : Dev) (n : Nat) (f : Field) : Bool := d.rd n f ≠ 0

/-- Add to a counter that wraps. -/
def Dev.inc (d : Dev) (n : Nat) (f : Field) (k : Nat := 1) : Dev := d.wr n f (d.rd n f + k)

/-- Add to a counter that saturates. -/
def Dev.incSat (d : Dev) (n : Nat) (f : Field) (k : Nat := 1) : Dev := d.wrU n f ((d.rd n f + k : Nat) : Int)

/-- Set or clear bit i of a field. -/
def Dev.wrBit (d : Dev) (n : Nat) (f : Field) (i : Nat) (b : Bool) : Dev :=
  let v := d.rd n f
  d.wr n f (if b then (if v.testBit i then v else v + 2 ^ i) else (if v.testBit i then v - 2 ^ i else v))

/-- Bit i of a field. -/
def Dev.bit (d : Dev) (n : Nat) (f : Field) (i : Nat) : Bool := (d.rd n f).testBit i

/-- Write a 64-bit count into a low and a high word. -/
def Dev.wr64 (d : Dev) (n : Nat) (lo hi : Field) (v : Nat) : Dev := (d.wr n lo v).wr n hi (v / 2 ^ 32)

/-- Read a 64-bit count from a low and a high word. -/
def Dev.rd64 (d : Dev) (n : Nat) (lo hi : Field) : Nat := d.rd n lo + 2 ^ 32 * d.rd n hi

/-! ### Time and free values -/

/-- Advance the timebase to the count a command carries (R440; log entry 2): it never runs back. -/
def Dev.at (t : Nat) (d : Dev) : Dev := { d with now := max d.now t }

/-- A fresh free number (log entry 4), with the draw counter advanced. -/
def Dev.draw (d : Dev) : Nat × Dev := (Config.freeNat d.freeCnt, { d with freeCnt := d.freeCnt + 1 })

/-- A fresh free number below a bound (0 where the bound is 0). -/
def Dev.drawBelow (d : Dev) (n : Nat) : Nat × Dev := (Config.freeNat d.freeCnt % n, { d with freeCnt := d.freeCnt + 1 })

/-- A fresh free byte string of a length. -/
def Dev.drawBytes (d : Dev) (n : Nat) : List Byte × Dev :=
  ((List.range n).map (Config.freeByte d.freeCnt), { d with freeCnt := d.freeCnt + 1 })

/-- A unit of a Ply-guard pair that is not active drives nothing (R338, R343, Table PLY-2). -/
def Dev.plySilent (d : Dev) : Bool :=
  d.rd 0 PLY_CFG.MODE = 2 && !(d.rd 0 PLY_STAT.STATE = 4 || d.rd 0 PLY_STAT.STATE = 6)

/-- What only the active unit of a Ply-guard pair sends (Table PLY-3). -/
def Sent.driven : Sent → Bool
  | .skein .. | .veh .. | .slac .. | .yarn .. | .yarnSack .. | .yarnBeacon .. | .yarnTone .. => true
  | .msix .. | .ply .. | .marker .. | .mgmt .. | .dma .. | .readCpl .. => false

/-- The place of a Skein frame among those ready in one cycle: its priority class, then its node position (R131). -/
def sknRank (f : List Byte) : Nat :=
  let cls := match leAt f 0 1 with
    | 0x10 | 0x11 => 1
    | 0x01 | 0x04 | 0x05 => 2
    | 0x20 => 3
    | 0x40 => 4
    | 0x30 | 0x31 | 0x32 => 5
    | 0x02 | 0x03 | 0x21 => 6
    | _ => 7
  8 * cls + leAt f 1 1 % 8

/-- A frame of port k that became ready in cycle t and goes after one of rank r. -/
def Sent.after (k t r : Nat) : Sent → Bool
  | .skein k' t' f => k' = k && t' = t && r < sknRank f
  | _ => false

/-- A frame of port k. -/
def Sent.ofPort (k : Nat) : Sent → Bool
  | .skein k' .. => k' = k
  | _ => false

/-- Put a frame of port k and rank r before the frames of its cycle that go after it. The list is newest first. -/
def sentPut (k t r : Nat) (x : Sent) : List Sent → List Sent
  | [] => [x]
  | y :: l => if y.ofPort k && !y.after k t r then x :: y :: l else y :: sentPut k t r x l

/-- The log with one thing more: a Skein frame takes its place by R131, anything else is the newest. -/
def sentWith (x : Sent) (l : List Sent) : List Sent :=
  match x with
  | .skein k t f =>
    match l.find? (Sent.ofPort k) with
    | some y => if y.after k t (sknRank f) then sentPut k t (sknRank f) x l else x :: l
    | none => x :: l
  | _ => x :: l

/-- Something leaves the part's pins, whichever unit this is (log entry 5). -/
def Dev.sendRaw (d : Dev) (x : Sent) : Dev := { d with sent := sentWith x d.sent }

/-- Something leaves the part's pins, unless a standby may not drive it (log entry 5). -/
def Dev.send (d : Dev) (x : Sent) : Dev := if x.driven && d.plySilent then d else d.sendRaw x

/-- Milliseconds passed since an instant. -/
def Dev.msSince (d : Dev) (t : Nat) : Nat := (d.now - t) / ticksPerMs

/-! ### Domains -/

/-- The state field of a domain (Table PWR-7): 0 ON, 1 RET, 2 OFF, 3 in transition. -/
def Dev.domState (d : Dev) (x : Dom) : Nat :=
  if x.ix < 16 then d.rd 0 (PWR_STATE0.D x.ix) else d.rd 0 (PWR_STATE1.D (x.ix - 16))

/-- Set the state field of a domain. -/
def Dev.setDomState (d : Dev) (x : Dom) (v : Nat) : Dev :=
  if x.ix < 16 then d.wr 0 (PWR_STATE0.D x.ix) v else d.wr 0 (PWR_STATE1.D (x.ix - 16)) v

/-- Whether a domain is ON. -/
def Dev.domOn (d : Dev) (x : Dom) : Bool := d.domState x = 0

/-- The pages reachable before the runtime is BOOTED (R404). -/
def earlyTag : Tag → Bool
  | .sys | .rst | .hif | .evt | .pwr | .aon | .key => true
  | _ => false

/-- Whether cast-on leaves a page unreachable (R404: BOOTED 0, or a stop state). In stop state 3 the submission ring
stays reachable for boot ROM recovery (Table SYS-1; log entry 42). -/
def Dev.castOnBars (d : Dev) (t : Tag) : Bool :=
  let stop := d.rd 0 SYS_STAT.STOP
  if stop = 3 then !(earlyTag t || t = .ope)
  else if !d.on 0 SYS_STAT.BOOTED || stop = 1 || stop = 2 then !earlyTag t
  else if stop = 4 then !(earlyTag t || t = .cry || t = .ope || t = .jnl || legalTag t)
  else false

/-- Whether a page is served: its domain ON and cast-on far enough (R37, R404). HIF_MGMT is served from AON (R45). -/
def Dev.pageUp (d : Dev) (t : Tag) (n : Nat) : Bool := d.domOn (domOf t n) && !d.castOnBars t

/-! ### Reason codes (Table DOC-14) and their order (R438) -/

namespace RC
abbrev NONE : Nat := 0x00
abbrev RO_FIELD : Nat := 0x01
abbrev RSV_BIT : Nat := 0x02
abbrev RANGE : Nat := 0x03
abbrev STAGED_ONLY : Nat := 0x04
abbrev STAGE_BUSY : Nat := 0x05
abbrev BAD_KEY : Nat := 0x06
abbrev LOCKED : Nat := 0x07
abbrev CAPACITY : Nat := 0x08
abbrev PAIR : Nat := 0x09
abbrev ENERGISED : Nat := 0x0A
abbrev DOMAIN : Nat := 0x0B
abbrev ROLE : Nat := 0x0C
abbrev UNALIGNED : Nat := 0x0D
abbrev NOPAGE : Nat := 0x0E
abbrev LIFECYCLE : Nat := 0x0F
abbrev SPEC : Nat := 0x10
end RC

/-- The place of a reason code in the order of R438 (block-specific codes last, ascending). -/
def reasonRank (c : Nat) : Nat :=
  if c = RC.ROLE then 1 else if c = RC.LIFECYCLE then 2 else if c = RC.LOCKED then 3 else if c = RC.BAD_KEY then 4
  else if c = RC.STAGE_BUSY then 5 else if c = RC.STAGED_ONLY then 6 else if c = RC.SPEC then 7
  else if c = RC.RO_FIELD then 8 else if c = RC.RSV_BIT then 9 else if c = RC.DOMAIN then 10
  else if c = RC.ENERGISED then 11 else if c = RC.RANGE then 12 else if c = RC.PAIR then 13
  else if c = RC.CAPACITY then 14 else 15 + c

/-- The reason recorded when several checks fail: the first in the order of R438; none when no check fails. -/
def firstReason : List Nat → Option Nat
  | [] => none
  | c :: cs =>
    match firstReason cs with
    | none => some c
    | some c' => if reasonRank c ≤ reasonRank c' then some c else some c'

/-- A check that failed contributes its code. -/
def failIf (b : Bool) (code : Nat) : List Nat := if b then [code] else []

/-! ### Page header -/

/-- SEQ counts every accepted write to an RW or RWS field, every commit and every block soft reset (R48). -/
def Dev.seqInc (d : Dev) (t : Tag) (n : Nat) : Dev := d.inc n (SEQ.SEQ t)

/-- A rejected write: no field changes, ERRINFO records it (R13, R46). -/
def Dev.reject (d : Dev) (t : Tag) (n off code : Nat) : Dev :=
  ((d.incSat n (ERRINFO.COUNT t)).wr n (ERRINFO.REASON t) code).wr n (ERRINFO.OFFSET t) off

/-- Whether the page is locked (R48). -/
def Dev.locked (d : Dev) (t : Tag) (n : Nat) : Bool := d.on n (PCTRL.LOCK t)

/-- Whether the block is enabled. -/
def Dev.en (d : Dev) (t : Tag) (n : Nat) : Bool := d.on n (PCTRL.EN t)

/-! ### MSI-X (R38) -/

/-- Address of a word of the MSI-X table (R414). -/
def msixAddr (v w : Nat) : Nat := 0xFE000 + 16 * v + 4 * w

/-- A word of the MSI-X table: 0 and 1 address, 2 data, 3 vector control. -/
def Dev.msixWord (d : Dev) (v w : Nat) : Word := d.regs.get resetWord (msixAddr v w)

/-- The device may write to host memory: the link is up and the host has enabled bus mastering (R35). -/
def Dev.hostUp (d : Dev) : Bool := d.on 0 HIF_LINK.UP && d.host.busMaster

/-- A vector is masked by its own mask bit, by the function mask, while MSI-X is not enabled, and while nothing may be
written to the host, as its message would be. -/
def Dev.msixMasked (d : Dev) (v : Nat) : Bool :=
  (d.msixWord v 3).getLsbD 0 || d.host.fnMask || !d.host.msixEn || !d.hostUp

/-- The pending bit of a vector. -/
def Dev.msixPend (d : Dev) (v : Nat) : Bool := (d.regs.get resetWord (0xFF000 + 4 * (v / 32))).getLsbD (v % 32)

/-- Set or clear the pending bit of a vector. -/
def Dev.setMsixPend (d : Dev) (v : Nat) (b : Bool) : Dev :=
  let a := 0xFF000 + 4 * (v / 32)
  let w := d.regs.get resetWord a
  let m : Word := 1#32 <<< (v % 32)
  { d with regs := d.regs.set resetWord a (if b then w ||| m else w &&& ~~~m) }

/-- The message of a vector leaves over PCI Express. -/
def Dev.msixSend (d : Dev) (v : Nat) : Dev :=
  d.send (.msix v (d.msixWord v 0) (d.msixWord v 1) (d.msixWord v 2))

/-- Signal a vector: a message, or its pending bit while it is masked (R38). -/
def Dev.signal (d : Dev) (v : Nat) : Dev := if d.msixMasked v then d.setMsixPend v true else d.msixSend v

/-- The vector of a block's events: 3 for SAF and SFC, else EVT_VECMAP (R38, R415). -/
def Dev.vectorOf (d : Dev) (t : Tag) : Nat :=
  if t = .saf || t = .sfc then 3 else d.rd 0 (EVT_VECMAP.VEC (t.code - 1))

/-! ### Event ring (R39, R41) -/

/-- An event entry as it stands in host memory (Table HIF-4). -/
def EvEntry.bytes (e : EvEntry) : List Byte :=
  leBytes 2 e.page ++ [BitVec.ofNat 8 e.bit,
    BitVec.ofNat 8 (e.phase + (if e.overflow then 2 else 0) + (if e.injected then 4 else 0))] ++ leBytes 4 e.count
    ++ leBytes 8 e.time

/-- Write an event entry at its place in the ring (R39). -/
def Dev.eqStore (d : Dev) (e : EvEntry) : Dev :=
  d.send (.dma ((d.rd 0 HIF_EQ_BASE_HI.ADDR * 2 ^ 32 + d.rd 0 HIF_EQ_BASE_LO.ADDR + 16 * e.idx) % 2 ^ 64) e.bytes)

/-- Whether event entries are written: the ring is enabled and the host can be reached (R35, R41). -/
def Dev.eqOn (d : Dev) : Bool := d.on 0 HIF_RINGCTL.EQ_EN && d.hostUp

/-- Write one entry at HIF_EQ_TAIL and advance it; PHASE inverts on each pass (R39). -/
def Dev.eqPut (d : Dev) (page bit : Nat) (ovf inj : Bool) (count time : Nat) : Dev :=
  let i := d.rd 0 HIF_EQ_TAIL.IDX
  let ph := d.rd 0 HIF_EQ_TAIL.PHASE
  let e : EvEntry := { idx := i, page := page, bit := bit, phase := ph, overflow := ovf, injected := inj,
                       count := count, time := time }
  let d : Dev := { d with host := { d.host with eq := d.host.eq ++ [e] } }
  let d := (d.eqStore e).wr 0 HIF_EQ_TAIL.IDX (i + 1)
  if i = 4095 then d.wr 0 HIF_EQ_TAIL.PHASE (1 - ph) else d

/-- Whether the event ring holds 4,096 entries not yet consumed (R41). -/
def Dev.eqFull (d : Dev) : Bool := 4096 ≤ d.host.eq.length

/-- Write the overflow marker owed, if there is space for it (R41 step 3). -/
def Dev.eqMarker (d : Dev) : Dev :=
  if d.host.eqLost = 0 || d.eqFull || !d.eqOn then d
  else
    let n := d.host.eqLost
    let t := d.host.eqLostAt
    let d := d.eqPut 0xFFFF 0 true false (min n (2 ^ 32 - 1)) t
    ({ d with host := { d.host with eqLost := 0, eqLostAt := 0 } }).signal 1

/-- The key of an event in `HostIf.evIdx`. -/
def evKey (t : Tag) (n bit : Nat) : Nat := pageIx t n * 32 + bit

/-- Note where the entry of an event stands: its ring index plus 1, or 0 for none written. -/
def Dev.setEvIdx (d : Dev) (k v : Nat) : Dev :=
  { d with host := { d.host with evIdx := d.host.evIdx.set (fun _ => 0) k v } }

/-- Enter an event whose EVT_PEND bit has just risen (R41 steps 1 and 3). -/
def Dev.eqEnter (d : Dev) (t : Tag) (n bit : Nat) (inj : Bool) : Dev :=
  if !d.eqOn then d.setEvIdx (evKey t n bit) 0
  else
    let d := d.eqMarker
    if d.eqFull then
      let at0 := if d.host.eqLost = 0 then d.now else d.host.eqLostAt
      let d := { d with host := { d.host with eqLost := d.host.eqLost + 1, eqLostAt := at0 } }
      (d.incSat 0 HIF_EQ_LOST.COUNT).setEvIdx (evKey t n bit) 0
    else
      let i := d.rd 0 HIF_EQ_TAIL.IDX
      ((d.eqPut (pageIx t n) bit false inj 1 d.now).setEvIdx (evKey t n bit) (i + 1)).signal (d.vectorOf t)

/-- An entry with one more occurrence. -/
def EvEntry.again (e : EvEntry) : EvEntry := { e with count := min (e.count + 1) (2 ^ 32 - 1) }

/-- Add an occurrence to the entry of an event that is still pending and not yet consumed (R41 step 2). -/
def Dev.eqMerge (d : Dev) (t : Tag) (n bit : Nat) : Dev :=
  let i := d.host.evIdx.get (fun _ => 0) (evKey t n bit)
  let mine (e : EvEntry) : Bool := e.idx + 1 = i && e.page = pageIx t n && e.bit = bit && !e.overflow
  if !d.eqOn then d
  else
    let d : Dev := { d with host := { d.host with eq := d.host.eq.map fun e => if mine e then e.again else e } }
    match d.host.eq.find? mine with
    | some e => d.eqStore e
    | none => d

/-- An occurrence reaches EVT_PEND: a rising edge enters the ring, a further one merges (R41). -/
def Dev.pend (d : Dev) (t : Tag) (n bit : Nat) (inj : Bool) : Dev :=
  if d.bit n (EVT_PEND.PEND t) bit then d.eqMerge t n bit
  else (d.wrBit n (EVT_PEND.PEND t) bit true).eqEnter t n bit inj

/-! ### Completion ring (R39, R40) -/

/-- Whether the device may write a completion entry now: the host can be reached, the ring is enabled, a slot free (R35,
R40). -/
def Dev.cqReady (d : Dev) : Bool := d.hostUp && d.on 0 HIF_RINGCTL.CQ_EN && d.host.cq.length < 1024

/-- A completion entry as it stands in host memory (Table HIF-3). -/
def CqEntry.bytes (e : CqEntry) : List Byte :=
  leBytes 2 e.tag ++ [BitVec.ofNat 8 e.cls,
    BitVec.ofNat 8 (e.phase + (if e.replayed then 2 else 0) + (if e.compensated then 4 else 0))] ++ leBytes 2 e.status
    ++ leBytes 2 e.jnlIndex ++ leBytes 8 e.time

/-- Write a completion entry at its place in the ring (R39). -/
def Dev.cqStore (d : Dev) (e : CqEntry) : Dev :=
  d.send (.dma ((d.rd 0 HIF_CQ_BASE_HI.ADDR * 2 ^ 32 + d.rd 0 HIF_CQ_BASE_LO.ADDR + 16 * e.idx) % 2 ^ 64) e.bytes)

/-- Write one completion entry at HIF_CQ_TAIL; vector 0 after CQ_MOD entries (R40). -/
def Dev.cqPut (d : Dev) (e : CqEntry) : Dev :=
  let i := d.rd 0 HIF_CQ_TAIL.IDX
  let ph := d.rd 0 HIF_CQ_TAIL.PHASE
  let e : CqEntry := { e with idx := i, phase := ph }
  let d : Dev := { d with host := { d.host with cq := d.host.cq ++ [e], cqBatch := d.host.cqBatch + 1, cqLast := d.now } }
  let d := (d.cqStore e).wr 0 HIF_CQ_TAIL.IDX (i + 1)
  let d := if i = 1023 then d.wr 0 HIF_CQ_TAIL.PHASE (1 - ph) else d
  if d.rd 0 HIF_RINGCTL.CQ_MOD ≤ d.host.cqBatch then
    ({ d with host := { d.host with cqBatch := 0 } } : Dev).signal 0
  else d

/-! ### Access faults (R37) -/

/-- Record an access fault in HIF_ABORT_ADDR and HIF_ABORT_INFO; vector 2 signals it (R37, R38). -/
def Dev.abort (d : Dev) (a reason : Nat) : Dev :=
  (((d.wr 0 HIF_ABORT_ADDR.ADDR a).incSat 0 HIF_ABORT_INFO.COUNT).wr 0 HIF_ABORT_INFO.REASON reason).signal 2

end Sys2Proof.Machine
end

