-- ==== Sys2Proof/Machine/FrcCore.lean ====
section
/-!
DEFINITION. The fault recorder's own working: records and reductions (R368, R369), regions (R370), triggers and
freezing (R372, R373).
-/

namespace Sys2Proof.Machine

/-! ### Records and reductions (R368, R369) -/

/-- The bytes of a record field, little-endian. -/
def FrcFld.bytes : FrcFld → List Byte
  | .num n v _ => leBytes n (ofSigned (8 * n) v)
  | .mask n v => leBytes n v

/-- The 32 bytes of a record (Table FRC-2): the low word of its time, then its fields. -/
def frcBytes (time : Nat) (fs : List FrcFld) : List Byte :=
  (leBytes 4 time ++ fs.flatMap FrcFld.bytes ++ List.replicate 32 0#8).take 32

/-- The valid values of one numeric field over a block. -/
def frcVals (block : List FrcRec) (i : Nat) : List Int :=
  block.filterMap fun r =>
    match r.flds[i]? with
    | some (FrcFld.num _ v true) => if r.missed then none else some v
    | _ => none

/-- The values of one mask field over a block. -/
def frcMasks (block : List FrcRec) (i : Nat) : List Nat :=
  block.filterMap fun r =>
    match r.flds[i]? with
    | some (FrcFld.mask _ v) => some v
    | _ => none

/-- The least of a list, 0 for none. -/
def minInt : List Int → Int
  | [] => 0
  | x :: xs => xs.foldl min x

/-- The greatest of a list, 0 for none. -/
def maxInt : List Int → Int
  | [] => 0
  | x :: xs => xs.foldl max x

/-- The mean, truncated towards zero, 0 for none (R369). -/
def meanInt (xs : List Int) : Int := if xs.isEmpty then 0 else xs.sum.tdiv xs.length

/-- A reduced record over a block, oldest first: 0 minimum, 1 maximum, 2 mean (R369). -/
def frcReduce (how : Nat) (block : List FrcRec) : List FrcFld :=
  match block with
  | [] => []
  | r :: _ =>
    r.flds.mapIdx fun i f =>
      match f with
      | .num n _ _ =>
        let xs := frcVals block i
        .num n (if how = 0 then minInt xs else if how = 1 then maxInt xs else meanInt xs) (!xs.isEmpty)
      | .mask n _ =>
        let ms := frcMasks block i
        .mask n (if how = 0 then ms.foldl Nat.land (2 ^ (8 * n) - 1) else if how = 1 then ms.foldl Nat.lor 0
                 else ms.getLastD 0)

/-! ### Regions (R370, R375) -/

/-- Entry size of a reduction: 64 bytes for MINMAX, else 32 (R370). -/
def frcEntrySize (red : Nat) : Nat := if red = 1 then 64 else 32

/-- The size of a region in 64 KiB units, from FRC_Sn_C. -/
def Dev.frcUnits (d : Dev) (r : Nat) : Nat :=
  match r % 4 with
  | 0 => d.rd 0 (FRC_S_C.RAW (r / 4))
  | 1 => d.rd 0 (FRC_S_C.MM (r / 4))
  | 2 => d.rd 0 (FRC_S_C.MEAN (r / 4))
  | _ => d.rd 0 (FRC_S_C.DEC (r / 4))

/-- The depth of a region in entries. -/
def Dev.frcDepth (d : Dev) (r : Nat) : Nat := d.frcUnits r * 65536 / frcEntrySize (r % 4)

/-- POSTr of R373. -/
def Dev.frcPost (d : Dev) (r : Nat) : Nat :=
  let dep := d.frcDepth r
  dep - dep * d.rd 0 FRC_CFG.PRE_PM / 1000

/-- The working state of a region. -/
def Dev.frcReg (d : Dev) (r : Nat) : FrcRegion := d.frc.regions.get (fun _ => {}) r

/-- Replace the working state of a region. -/
def Dev.setFrcReg (d : Dev) (r : Nat) (x : FrcRegion) : Dev :=
  { d with frc := { d.frc with regions := d.frc.regions.set (fun _ => {}) r x } }

/-- The regions in use: non-zero size. -/
def Dev.frcActive (d : Dev) : List Nat := (List.range 64).filter fun r => d.frcUnits r ≠ 0

/-- T_trig in force. -/
def Dev.frcTtrig (d : Dev) : Nat := d.rd64 0 FRC_TTRIG_LO.T FRC_TTRIG_HI.T

/-- Freeze a region: its first and trigger entries, SHORTPRE (R373, R375). -/
def Dev.frcFreeze (d : Dev) (r : Nat) : Dev :=
  let x := d.frcReg r
  if x.frozen then d
  else
    let dep := d.frcDepth r
    let first := if x.times.length < dep then 0 else x.next
    let older := (x.times.filter fun t => t < d.frcTtrig).length
    let d := d.setFrcReg r { x with frozen := true }
    let d := d.wrB 0 (FRC_R_A.FROZEN r) true
    let d := d.wrB 0 (FRC_R_A.SHORTPRE r) (older < dep - d.frcPost r)
    let d := d.wr 0 (FRC_R_B.FIRST r) first
    d.wr 0 (FRC_R_C.TRIGIDX r) (if dep = 0 then 0 else (first + older) % dep)

/-- Freeze a region that holds POSTr entries at or after T_trig (R373). -/
def Dev.frcCheck (d : Dev) (r : Nat) : Dev :=
  if d.rd 0 FRC_STAT.STATE = 2 && d.frcPost r ≤ ((d.frcReg r).times.filter fun t => d.frcTtrig ≤ t).length
  then d.frcFreeze r else d

/-- Whether every region in use is frozen. -/
def Dev.frcAllFrozen (d : Dev) : Bool := d.frcActive.all fun r => (d.frcReg r).frozen

/-- Write one entry into a region's ring (R375) and the eDRAM behind it. -/
def Dev.frcPut (d : Dev) (r : Nat) (time : Nat) (bytes : List Byte) : Dev :=
  let x := d.frcReg r
  let dep := d.frcDepth r
  if x.frozen || dep = 0 then d
  else
    let a := d.rd 0 (FRC_R_A.BASE r) * 65536 + x.next * frcEntrySize (r % 4)
    let d := { d with edram := d.edram.setBytes a bytes }
    (d.setFrcReg r { x with times := (time :: x.times).take dep, next := (x.next + 1) % dep }).frcCheck r

/-- One source record into the four reductions of a stream (R369). -/
def Dev.frcStream (d : Dev) (n : Nat) (rec : FrcRec) : Dev :=
  let red := d.rd 0 (FRC_S_A.REDMASK n)
  let d := if red.testBit 0 then d.frcPut (4 * n) rec.time (frcBytes rec.time rec.flds) else d
  let step (d : Dev) (r : Nat) : Dev :=
    if red.testBit r then
      let x := d.frcReg (4 * n + r)
      let block := x.block ++ [rec]
      if x.frozen then d
      else if r = 3 then
        if x.count + 1 < d.rd 0 (FRC_S_B.DECN n) then d.setFrcReg (4 * n + r) { x with count := x.count + 1 }
        else (d.setFrcReg (4 * n + r) { x with count := 0 }).frcPut (4 * n + r) rec.time (frcBytes rec.time rec.flds)
      else if block.length < d.rd 0 (FRC_S_B.BLK n) then d.setFrcReg (4 * n + r) { x with block := block }
      else
        let t0 := (block.headD rec).time
        let d := d.setFrcReg (4 * n + r) { x with block := [] }
        d.frcPut (4 * n + r) t0
          (if r = 1 then frcBytes t0 (frcReduce 0 block) ++ frcBytes t0 (frcReduce 1 block)
           else frcBytes t0 (frcReduce 2 block))
    else d
  step (step (step d 1) 2) 3

/-- Whether the recorder is writing: ARMED or POST with its domain ON (R371, R377). -/
def Dev.frcRunning (d : Dev) : Bool :=
  (d.rd 0 FRC_STAT.STATE = 1 || d.rd 0 FRC_STAT.STATE = 2) && d.domOn .frc

/-! ### Triggers (R372, R373) -/

/-- Enter a trigger in the first free entry of the trigger log. -/
def Dev.frcLog (d : Dev) (src time : Nat) : Dev :=
  match (List.range 8).find? fun k => !d.on 0 (FRC_TLOG_A.VALID k) with
  | none => d
  | some k =>
    ((d.wrB 0 (FRC_TLOG_A.VALID k) true).wr 0 (FRC_TLOG_A.SRC k) src).wr64 0 (FRC_TLOG_TLO.T k) (FRC_TLOG_THI.T k) time

/-- The oldest entry's time of a region, none while it is empty. -/
def FrcRegion.oldest (x : FrcRegion) : Option Nat := x.times.getLast?

/-- Regions whose oldest entry is younger than a trigger freeze at once (R373). -/
def Dev.frcLate (d : Dev) (time : Nat) : List Nat :=
  d.frcActive.filter fun r =>
    match (d.frcReg r).oldest with
    | some t0 => time < t0 && !(d.frcReg r).frozen
    | none => false

/-- An accepted or ignored trigger, without the events it raises; the events, as FRC EVT bits, beside it. -/
def Dev.frcTriggerCore (d : Dev) (src time : Nat) : Dev × List Nat :=
  let st := d.rd 0 FRC_STAT.STATE
  if st = 0 || st = 3 then (d.inc 0 FRC_IGNCNT.COUNT, [])
  else
    let d := (d.inc 0 FRC_TRIGCNT.COUNT).frcLog src time
    let first := st = 1
    let earlier := first || time < d.frcTtrig || (time = d.frcTtrig && src < d.rd 0 FRC_STAT.SRC)
    let d := if first then d.wr 0 FRC_STAT.STATE 2 else d
    let d := if earlier then (d.wr64 0 FRC_TTRIG_LO.T FRC_TTRIG_HI.T time).wr 0 FRC_STAT.SRC src else d
    let late := d.frcLate time
    let d := if late.isEmpty then d else d.wrB 0 FRC_STAT.LATE true
    let d := late.foldl Dev.frcFreeze d
    let d := d.frcActive.foldl Dev.frcCheck d
    let done := d.frcAllFrozen
    let d := if done then d.wr 0 FRC_STAT.STATE 3 else d
    (d, (if first then [Ev.FRC.TRIGGERED.bit] else []) ++ (if late.isEmpty then [] else [Ev.FRC.LATE_TRIG.bit]) ++
        (if done then [Ev.FRC.FROZEN.bit] else []))

/-- Whether a rising event bit is named in an enabled FRC_TRIGk with source EVT enabled (R372). -/
def Dev.frcNames (d : Dev) (page bit : Nat) : Bool :=
  d.bit 0 FRC_CFG.SRCEN 1 &&
    (List.range 8).any fun k =>
      d.on 0 (FRC_TRIG.EN k) && d.rd 0 (FRC_TRIG.PAGE k) = page && d.rd 0 (FRC_TRIG.BIT k) = bit

/-- Whether the unit has a partner that hears TRIG frames (R371, R372). -/
def Dev.plyPaired (d : Dev) : Bool := d.rd 0 PLY_CFG.MODE ≠ 0 && d.on 0 PLY_STAT.PAIRED

/-! ### Raising events (R47) -/

/-- The TYPE of a Ply frame (Table PLY-1). -/
def plyType : PlyFrame → Nat
  | .hello .. => 0x01 | .heartbeat .. => 0x02 | .time .. => 0x03 | .snap .. => 0x10 | .alloc .. => 0x11
  | .mirror .. => 0x20 | .publish .. => 0x21 | .sknfwd .. => 0x22 | .check .. => 0x23 | .take .. => 0x24
  | .mark .. => 0x30 | .mtrsec .. => 0x31 | .trig .. => 0x40

/-- A Ply frame leaves on both links with the next SEQ of its TYPE; in SINGLE both ports are off (R330, R331). -/
def Dev.plySend (d : Dev) (f : PlyFrame) : Dev :=
  if d.rd 0 PLY_CFG.MODE = 0 || !d.domOn .ply then d
  else
    let k := d.ply.txSeq.get (fun _ => 0) (plyType f)
    let d := { d with ply := { d.ply with txSeq := d.ply.txSeq.set (fun _ => 0) (plyType f) ((k + 1) % 2 ^ 32) } }
    d.send (.ply k f)

/-- The EVT_EN gate and EVT_PEND of an event that rises (R47). -/
def Dev.rise (d : Dev) (t : Tag) (n bit : Nat) : Dev :=
  if d.bit n (EVT_EN.EN t) bit then d.pend t n bit false else d

/-- A rising EVT_RAW bit: EVT_PEND through EVT_EN, and the recorder's EVT triggers. The recorder's own events can
trigger it in turn; `fuel` bounds that chain (log entry 12). -/
def Dev.riseTrig : Nat → Dev → Tag → Nat → Nat → Dev
  | 0, d, t, n, bit => d.rise t n bit
  | fuel + 1, d, t, n, bit =>
    let d := d.rise t n bit
    if d.frcNames (pageIx t n) bit then
      let st := d.rd 0 FRC_STAT.STATE
      let d := if d.plyPaired && (st = 1 || st = 2) then d.plySend (.trig 2 2 d.now (d.rd 0 FRC_CAPID.ID)) else d
      let (d, evs) := d.frcTriggerCore 2 d.now
      evs.foldl (fun d b => Dev.riseTrig fuel d .frc 0 b) d
    else d

/-- A pulse event occurs on an instance (R47: EVT_RAW is 1 for the one cycle only). -/
def Dev.raise (d : Dev) (n : Nat) (e : Ev) : Dev := Dev.riseTrig 4 d e.tag n e.bit

/-- A level event takes a value; its rising edge is an occurrence (R47, Table DOC-25). -/
def Dev.level (d : Dev) (n : Nat) (e : Ev) (b : Bool) : Dev :=
  let was := d.bit n (EVT_RAW.RAW e.tag) e.bit
  let d := d.wrBit n (EVT_RAW.RAW e.tag) e.bit b
  if b && !was then Dev.riseTrig 4 d e.tag n e.bit else d

/-- A trigger of a source other than an event (R372), with the events it raises. -/
def Dev.frcTrigger (d : Dev) (src time : Nat) : Dev :=
  let (d, evs) := d.frcTriggerCore src time
  evs.foldl (fun d b => Dev.riseTrig 3 d .frc 0 b) d

/-- One source record reaches every stream that takes it; freezing may end the capture (R368, R373). -/
def Dev.frcRecord (d : Dev) (typ index : Nat) (rec : FrcRec) : Dev :=
  if !d.frcRunning then d
  else
    let ns := (List.range 16).filter fun n =>
      d.on 0 (FRC_S_A.EN n) && d.rd 0 (FRC_S_A.TYPE n) = typ && d.rd 0 (FRC_S_A.INDEX n) = index
    if ns.isEmpty then d
    else
      let d := ns.foldl (fun d n => d.frcStream n rec) d
      if d.rd 0 FRC_STAT.STATE = 2 && d.frcAllFrozen then (d.wr 0 FRC_STAT.STATE 3).raise 0 Ev.FRC.FROZEN else d

/-- A trigger of this unit, SRC 1 to 3: taken when its source is enabled, and sent to the partner (R372). -/
def Dev.frcLocal (d : Dev) (src time : Nat) : Dev :=
  if !d.bit 0 FRC_CFG.SRCEN (src - 1) then d
  else
    let st := d.rd 0 FRC_STAT.STATE
    let d := if d.plyPaired && (st = 1 || st = 2) then d.plySend (.trig 2 src time (d.rd 0 FRC_CAPID.ID)) else d
    d.frcTrigger src time

/-- The instant a 32-bit time names: within −2^31 to 2^31 − 1 ticks of now (R132). -/
def near32 (now v : Nat) : Nat :=
  let base : Int := (now : Int) - 2 ^ 31
  (base + ((v : Int) - base) % 2 ^ 32).toNat

end Sys2Proof.Machine
end

