-- ==== Sys2Proof/Machine/OpCore.lean ====
section
/-!
DEFINITION. The operation engine's own working: journal records (R321, R322), requests of blocks (R313, R316), how an
operation's result is determined, and its completion (R319).
-/

namespace Sys2Proof.Machine

/-! ### Kinds (Table OPE-1) -/

namespace OK
abbrev CONT_CLOSE : Nat := 0x01
abbrev CONT_OPEN : Nat := 0x02
abbrev DIS_CLOSE : Nat := 0x03
abbrev DIS_OPEN : Nat := 0x04
abbrev LSW_OFF : Nat := 0x05
abbrev LSW_ON : Nat := 0x06
abbrev LSW_PWM : Nat := 0x07
abbrev IO_OUT : Nat := 0x08
abbrev NVM_WRITE : Nat := 0x10
abbrev NVM_READ : Nat := 0x11
abbrev TX_VEH : Nat := 0x20
abbrev TX_YARN : Nat := 0x21
abbrev RX_YARN : Nat := 0x22
abbrev NODE_RD : Nat := 0x23
abbrev NODE_WR : Nat := 0x24
abbrev NODE_ARM : Nat := 0x25
abbrev MARK_START : Nat := 0x26
abbrev MARK_END : Nat := 0x27
abbrev CRY_OP : Nat := 0x30
abbrev CAP_READ : Nat := 0x40
abbrev CAL_RUN : Nat := 0x50
end OK

/-- The class of a kind: ACT 0, NVM 1, MSG 2, CRY 3, CAP 4, CAL 5. -/
def opClass (kind : Nat) : Nat := kind / 16

/-- The replay class of a kind: 0 REPLAY, 1 NOREPLAY, 2 COMPENSATE (Table OPE-1). -/
def opReplay (kind : Nat) : Nat :=
  if kind = OK.CONT_CLOSE || kind = OK.DIS_CLOSE then 2
  else if kind = OK.LSW_ON || kind = OK.LSW_PWM || kind = OK.IO_OUT || kind = OK.NODE_WR || kind = OK.NODE_ARM
    || kind = OK.MARK_START || kind = OK.CRY_OP || kind = OK.CAL_RUN then 1
  else 0

/-- Whether a kind belongs to the safe pool (R316). -/
def opSafe (kind : Nat) : Bool := kind = OK.CONT_OPEN || kind = OK.LSW_OFF || kind = OK.DIS_OPEN

/-- The safe slot of a safe operation's target: CTM entries, load-switch channels, points (R316, Table OPE-4). -/
def safeSlot (kind target : Nat) : Nat :=
  if kind = OK.CONT_OPEN then 264 + target else if kind = OK.LSW_OFF then 328 + target else 352 + target

/-- An argument of an operation: n bytes from descriptor byte b (8 to 31). -/
def Op.arg (o : Op) (b n : Nat) : Nat := leAt o.args (b - 8) n

/-- Arguments padded to 24 bytes. -/
def opArgs (bs : List Byte) : List Byte := (bs ++ List.replicate 24 0#8).take 24

/-- A kind with a payload CRC (Table OPE-1). -/
def opHasCrc (kind : Nat) : Bool := kind = OK.NVM_WRITE || kind = OK.TX_VEH || kind = OK.TX_YARN

/-! ### Journal -/

/-- The 64 bytes of a record (Table JNL-1). -/
def JRec.bytes (r : JRec) : List Byte :=
  let b := (leBytes 1 r.kind ++ leBytes 1 r.cls ++ leBytes 1 r.opkind ++ leBytes 1 r.rclass ++ leBytes 2 r.slot
    ++ leBytes 2 r.tag ++ leBytes 8 r.seq ++ leBytes 8 r.ref ++ leBytes 8 r.time
    ++ (r.body ++ List.replicate 24 0#8).take 24)
  withCrc b ++ [if r.dlv then 1#8 else 0#8, 0#8, 0#8, 0#8]

/-- The record at an index. -/
def Dev.jrec (d : Dev) (i : Nat) : Option JRec := d.ope.jnl.get (fun _ => none) i

/-- Replace the record at an index. -/
def Dev.setJrec (d : Dev) (i : Nat) (r : Option JRec) : Dev :=
  { d with ope := { d.ope with jnl := d.ope.jnl.set (fun _ => none) i r } }

/-- Free ring records (JNL_FREE). -/
def Dev.jnlFree (d : Dev) : Nat := 65472 - d.ope.used

/-- SEQ of the last record written. -/
def Dev.jnlSeq (d : Dev) : Nat := d.rd64 0 JNL_SEQ_LO.SEQ JNL_SEQ_HI.SEQ

/-- The ring index after i: 64 to 65,535, cyclically (R321). -/
def ringNext (i : Nat) : Nat := if i ≥ 65535 then 64 else i + 1

/-- Write a record at the head with the next SEQ and the present time; its index beside the new state. LOW_FREE rises
when JNL_FREE falls below RELOC. -/
def Dev.jnlWrite (d : Dev) (f : Nat → Nat → JRec) : Nat × Dev :=
  let i := d.rd 0 JNL_HEAD.IDX
  let seq := d.jnlSeq + 1
  let was := d.jnlFree
  let d := (d.setJrec i (some (f seq d.now))).wr64 0 JNL_SEQ_LO.SEQ JNL_SEQ_HI.SEQ seq
  let d := d.wr 0 JNL_HEAD.IDX (ringNext i)
  let d := { d with ope := { d.ope with used := d.ope.used + 1 } }
  let lim := d.rd 0 JNL_CFG.RELOC
  (i, if lim ≤ was && d.jnlFree < lim then d.raise 0 Ev.JNL.LOW_FREE else d)

/-- Whether a ring record is live (R322). -/
def Dev.jnlLive (d : Dev) (i : Nat) : Bool :=
  match d.jrec i with
  | none => false
  | some r =>
    ((r.kind = 1 || r.kind = 3) && d.ope.flight.any fun o => o.recIdx = i)
    || (r.kind = 2 && !r.dlv)
    || (r.kind = 4 && d.ope.sesRec.get (fun _ => 0) (leAt r.body 0 1) = i + 1
        && (let st := leAt r.body 3 1; 3 ≤ st && st ≤ 5))

/-- Advance the tail over dead records (R322); `fuel` is the number of records in the ring. -/
def Dev.jnlAdvance : Nat → Dev → Dev
  | 0, d => d
  | fuel + 1, d =>
    let i := d.rd 0 JNL_TAIL.IDX
    if d.ope.used = 0 || d.jnlLive i then d
    else
      Dev.jnlAdvance fuel
        { (d.wr 0 JNL_TAIL.IDX (ringNext i)) with ope := { d.ope with used := d.ope.used - 1 } }

/-- Advance the tail as far as the records at it are dead. -/
def Dev.jnlTail (d : Dev) : Dev := Dev.jnlAdvance d.ope.used d

/-! ### Slots and requests -/

/-- The operation in a slot. -/
def Dev.opAt (d : Dev) (slot : Nat) : Option Op := d.ope.flight.find? fun o => o.slot = slot

/-- Replace the operation in a slot. -/
def Dev.setOp (d : Dev) (slot : Nat) (f : Op → Op) : Dev :=
  { d with ope := { d.ope with flight := mapIf (fun o => o.slot = slot) f d.ope.flight } }

/-- An operation's result is determined; OPERATION_COMPLETE closes it (R319). -/
def Dev.opFinish (d : Dev) (slot status : Nat) : Dev :=
  d.setOp slot fun o => { o with phase := .finished, status := status }

/-- An internal block requests an operation; safe ones wait in their own queue (R317). -/
def Dev.request (d : Dev) (kind : Nat) (args : List Byte) : Dev :=
  let o : Op := { cls := opClass kind, kind := kind, args := opArgs args }
  if opSafe kind then { d with ope := { d.ope with safeQ := d.ope.safeQ ++ [o] } }
  else { d with ope := { d.ope with intQ := d.ope.intQ ++ [o] } }

/-- Whether an operation of a kind and first argument is queued or unfinished in its slot. -/
def Dev.opPending (d : Dev) (kind target : Nat) : Bool :=
  let p (o : Op) : Bool := o.kind = kind && o.arg 8 1 = target
  d.ope.safeQ.any p || d.ope.intQ.any p || d.ope.flight.any fun o => p o && o.phase ≠ .finished

/-- A safe operation for a target, merged with an equal one that is waiting or in flight (R316). -/
def Dev.requestSafe (d : Dev) (kind target : Nat) : Dev :=
  if d.opPending kind target then d else d.request kind (leBytes 1 target)

/-! ### Completion (R319) -/

/-- The DONE record of an operation. -/
def doneRec (o : Op) (seq time : Nat) : JRec :=
  { kind := 2, cls := o.cls, opkind := o.kind, rclass := opReplay o.kind, slot := o.slot, tag := o.tag, seq := seq,
    ref := o.refSeq, time := time, dlv := !o.host && o.merged.isEmpty,
    body := leBytes 2 o.status ++ [BitVec.ofNat 8 ((if o.replayed then 1 else 0) + (if o.compensated then 2 else 0))] }

/-- The completion entry of an operation, or of a request merged into it. -/
def cqOf (o : Op) (tag idx time : Nat) : CqEntry :=
  { tag := tag, cls := o.cls, replayed := o.replayed, compensated := o.compensated, status := o.status,
    jnlIndex := idx, time := time }

/-- Set the DLV byte of a record once its entry has been written. -/
def Dev.setDlv (d : Dev) (i : Nat) : Dev :=
  match d.jrec i with
  | some r => d.setJrec i (some { r with dlv := true })
  | none => d

/-- Operations of the general pool in flight (R316). -/
def Dev.generalBusy (d : Dev) : Nat := d.ope.flight.countP fun o => o.slot < 264

/-- Completion credits free (R317): the ring entries less those written and not consumed, the completions held and the
credits reserved. -/
def Dev.cqCredits (d : Dev) : Nat :=
  1024 - d.host.cq.length - d.host.cqHeld.length - d.ope.flight.countP fun o => o.host && o.slot < 264

/-- Write a completion entry into the ring and set the DLV of its record (R319). -/
def Dev.cqDeliver (d : Dev) (e : CqEntry) : Dev :=
  let d := d.cqPut e
  if e.hasRec then d.setDlv e.jnlIndex else d

/-- Enter a completion: written now, or held behind those already held (R40, R319). One without a credit of its own
needs a free one (R317). -/
def Dev.completeRec (d : Dev) (e : CqEntry) (credited : Bool) : Dev :=
  if d.host.cqHeld.isEmpty && d.cqReady && (credited || d.cqCredits ≠ 0) then d.cqDeliver e
  else { d with host := { d.host with cqHeld := d.host.cqHeld ++ [e] } }

/-- The four steps of a completion (R319), after which the tail advances over what died (R320). -/
def Dev.opClose (d : Dev) (o : Op) : Dev :=
  let (i, d) := d.jnlWrite (doneRec o)
  let d := { d with ope := { d.ope with flight := d.ope.flight.filter fun x => x.slot ≠ o.slot } }
  let tags := (if o.host then [o.tag] else []) ++ o.merged
  let d := tags.foldl (fun d t => d.completeRec (cqOf o t i d.now) (o.slot < 264)) d
  (d.inc 0 OPE_COMPLETED.COUNT).jnlTail

end Sys2Proof.Machine
end

