-- ==== Sys2Proof/Machine/LinkCore.lean ====
section
/-!
DEFINITION. The Skein link's own working: frames out (R128, R130), node records, input channels (R145) and requests
with their TAG (R143, R144).
-/

namespace Sys2Proof.Machine

/-! ### Node and input records -/

/-- The record of a node position. -/
def Dev.node (d : Dev) (k pos : Nat) : Node := d.skn.nodes.get (fun _ => {}) (8 * k + pos)

/-- Replace the record of a node position. -/
def Dev.setNode (d : Dev) (k pos : Nat) (x : Node) : Dev :=
  { d with skn := { d.skn with nodes := d.skn.nodes.set (fun _ => {}) (8 * k + pos) x } }

/-- The record of a port. -/
def Dev.sport (d : Dev) (k : Nat) : SknPort := d.skn.ports.get (fun _ => {}) k

/-- Replace the record of a port. -/
def Dev.setSport (d : Dev) (k : Nat) (x : SknPort) : Dev :=
  { d with skn := { d.skn with ports := d.skn.ports.set (fun _ => {}) k x } }

/-- Key of an input channel. -/
def inKey (k pos ch : Nat) : Nat := (8 * k + pos) * 256 + ch

/-- The record of an input channel. -/
def Dev.inRec (d : Dev) (k pos ch : Nat) : Input := d.skn.inputs.get (fun _ => {}) (inKey k pos ch)

/-- Replace the record of an input channel. -/
def Dev.setIn (d : Dev) (k pos ch : Nat) (x : Input) : Dev :=
  { d with skn := { d.skn with inputs := d.skn.inputs.set (fun _ => {}) (inKey k pos ch) x } }

/-- The value of an input channel that has been received and is not stale (R145). -/
def Dev.input (d : Dev) (k pos ch : Nat) : Option Int :=
  let x := d.inRec k pos ch
  if x.seen && !x.stale then some x.val else none

/-- The last value received on a channel, 0 before the first. -/
def Dev.inputOr0 (d : Dev) (k pos ch : Nat) : Int := (d.inRec k pos ch).val

/-! ### Topology (R128) -/

/-- Whether any position of a port is expected to hold a node. -/
def Dev.expectsNodes (d : Dev) (k : Nat) : Bool := (List.range 8).any fun p => d.on k (SKN_EXPECT.POS p)

/-- The port whose positions a frame at port k belongs to: in RING the first end. The rule names the second end as the
port that carries no other nodes: the end whose SKN_EXPECT is empty (DEDUCED, log entry 318). -/
def Dev.homePort (d : Dev) (k : Nat) : Nat :=
  if d.rd k SKN_CFG.TOPO = 1 && !d.expectsNodes k then d.rd k SKN_CFG.PARTNER else k

/-- A downstream frame leaves one port. In RING_PLY the active unit also passes it to the standby, for the ring's other
end (R338). -/
def Dev.sknOut (d : Dev) (k : Nat) (bytes : List Byte) : Dev :=
  if d.plySilent then d
  else
    let d := d.send (.skein k d.now bytes)
    if d.rd k SKN_CFG.TOPO = 2 && d.rd 0 PLY_CFG.MODE = 2 && d.plyPaired then d.plySend (.sknfwd k bytes) else d

/-- A downstream frame leaves the port, in RING both ends (R128). -/
def Dev.sendDown (d : Dev) (k : Nat) (body : List Byte) : Dev :=
  let d := d.sknOut k (withCrc body)
  if d.rd k SKN_CFG.TOPO = 1 then d.sknOut (d.rd k SKN_CFG.PARTNER) (withCrc body) else d

/-! ### Reachability and requests (R143, R144, R146) -/

/-- The class enumerated at a position. -/
def Dev.nodeClass (d : Dev) (k pos : Nat) : Nat := d.rd k (SKN_NODES.POS pos)

/-- The domain of a Skein port is ON. -/
def Dev.sknOn (d : Dev) (k : Nat) : Bool := d.domOn (sknDom k)

/-- Whether a position is sent traffic: enumerated, not withheld after NODE_MISMATCH, not lost (R142, R143, R146). -/
def Dev.nodeUp (d : Dev) (k pos : Nat) : Bool :=
  d.sknOn k && d.nodeClass k pos ≠ 0 && !(d.node k pos).mismatch && !d.on k (SKN_NSTAT.LOST pos)

/-- The IO_REQ frame (Table SKN-3). -/
def ioReqFrame (r : IoReq) : List Byte :=
  [0x31#8, BitVec.ofNat 8 r.pos, BitVec.ofNat 8 r.tag, BitVec.ofNat 8 r.op, BitVec.ofNat 8 r.index, 0#8, 0#8, 0#8]
    ++ leBytes 4 (ofSigned 32 r.value)

/-- A request that fails on the link: SKN_IOFAIL and IO_FAIL (R143). -/
def Dev.ioFail (d : Dev) (k : Nat) : Dev := (d.inc k SKN_IOFAIL.COUNT).raise k Ev.SKN.IO_FAIL

/-- Send a request with the next TAG, or fail it at once; true when it was sent (R143, R144). -/
def Dev.ioRequest (d : Dev) (k pos op index : Nat) (value : Int) (owner : IoOwner) : Bool × Dev :=
  if !d.nodeUp k pos then (false, d.ioFail k)
  else
    let x := d.node k pos
    let tag := (x.tag + 1) % 256
    let r : IoReq := { port := k, pos := pos, tag := tag, op := op, index := index, value := value, resends := 0,
                       sentAt := d.now, owner := owner }
    let d := d.setNode k pos { x with tag := tag }
    let d := { d with skn := { d.skn with reqs := d.skn.reqs ++ [r] } }
    (true, d.sendDown k (ioReqFrame r))

/-- A link's own output write, which no operation waits for (R30). -/
def Dev.ioDrive (d : Dev) (k pos ch : Nat) (value : Int) : Dev := (d.ioRequest k pos 0 ch value .drive).2

/-! ### STOP (R135) -/

/-- A STOP frame to a position, with its PSTART. -/
def Dev.sendStop (d : Dev) (k pos pstart : Nat) : Dev :=
  d.sendDown k ([0x11#8, BitVec.ofNat 8 pos, 0#8, 0#8] ++ leBytes 4 pstart)

/-- A STOP broadcast with IMM, from every port (R135, R325). -/
def Dev.sendStopImm (d : Dev) : Dev :=
  (List.range 12).foldl (fun d k => d.sknOut k (withCrc ([0x11#8, 0x80#8, 2#8, 0#8] ++ leBytes 4 d.now))) d

end Sys2Proof.Machine
end

