-- ==== Sys2Proof/Machine/Spec.lean ====
section
/-!
DEFINITION. The SPEC window of the ALC page (R81) and how premises are settled inside a row (R75, R76).
-/

namespace Sys2Proof.Machine

/-- Change a scenario of the present row. -/
def Dev.modScn (d : Dev) (i : Nat) (f : Scn → Scn) : Dev :=
  { d with alc := { d.alc with scns := d.alc.scns.zipIdx.map fun e => if e.2 = i then f e.1 else e.1 } }

/-- Show a slot's premise, row and state. -/
def Dev.specTag (d : Dev) (i st reason : Nat) (x : Scn) : Dev :=
  let d := ((d.wr 0 (ALC_SPEC_TAG.STATE i) st).wr 0 (ALC_SPEC_TAG.DREASON i) reason).wr 0 (ALC_SPEC_TAG.TYPE i) x.prem.typ
  let d := (d.wr 0 (ALC_SPEC_TAG.STRAND i) x.prem.strand).wr 0 (ALC_SPEC_TAG.POINT i) x.prem.point
  (d.wr 0 (ALC_SPEC_ROW.ROW i) x.row).inc 0 (ALC_SPEC_SEQ.SEQ i)

/-- Show a slot's result values. -/
def Dev.specVals (d : Dev) (i : Nat) (r : AlcRes) : Dev :=
  let d := ((d.wr 0 (ALC_SPEC_DCBUDGET.W i) r.dc).wr 0 (ALC_SPEC_ALLOCATED.W i) r.total).wr 0 (ALC_SPEC_LEVEL.W i) r.level
  (List.range 32).foldl (fun d n => d.wrI 0 (ALC_SPEC_SET.MA i n) (r.pts.getD n {}).set) d

/-- The state a slot shows while its premise stands so and its computation is at a stage (Table ALC-12). A premise settled
before its slot's computation starts is shown as settled from the start, without COMPUTING (DESIGN CHOICE, log entry
299). -/
def specState (stage verdict : Nat) : Nat := if verdict = 1 then 3 else if verdict = 2 then 4 else if stage = 2 then 2 else 1

/-- Bring one slot up to the present instant: COMPUTING when its computation starts, its results when it is complete, which
a slot refuted meanwhile takes too (DESIGN CHOICE, log entry 299). -/
def Dev.specSlot (d : Dev) (i : Nat) (x : Scn) : Dev :=
  let (x, d) :=
    if x.stage = 0 && x.startAt ≤ d.now then
      let x := { x with stage := 1 }
      (x, ((d.specVals i {}).specTag i (specState 1 x.verdict) 0 x).modScn i fun _ => x)
    else (x, d)
  if x.stage = 1 && x.doneAt ≤ d.now then
    let x := { x with stage := 2 }
    ((d.specVals i x.res).specTag i (specState 2 x.verdict) 0 x).modScn i fun _ => x
  else d

/-- The scenario slots with their numbers: four at most (Table ALC-12). -/
def Dev.slots (d : Dev) : List (Scn × Nat) := d.alc.scns.zipIdx.take 4

/-- The end of the present row. -/
def Dev.rowEnd (d : Dev) : Nat := d.alc.rowAt + d.alc.rowLen

/-- Bring every slot up to the present instant; the boundary itself belongs to the next row (R76). -/
def Dev.specSync (d : Dev) : Dev :=
  if d.now < d.rowEnd then d.slots.foldl (fun d e => d.specSlot e.2 e.1) d else d

/-- What an event says of a premise: 1 confirms it, 2 refutes it, 0 neither (Table ALC-11). A pending set that is
validated without having been overwritten since the snapshot is the snapshot's. -/
def Premise.settle (p : Premise) (e : RowEv) : Nat :=
  match p, e with
  | .sesEnd q, .sessionEnd r => if q = r then 1 else 0
  | .sesEnd q, .endWithdrawn r => if q = r then 2 else 0
  | .vehReq q _, .validated r => if q = r then 1 else 0
  | .vehReq q _, .rejected r | .vehReq q _, .targetsChanged r => if q = r then 2 else 0
  | .strRet _ s _, .restartPass x => if s = x then 1 else 0
  | .strRet _ s _, .restartFail x => if s = x then 2 else 0
  | .shed _ s _, .shed x => if s = x then 1 else 0
  | .shed _ s _, .shedAbort x => if s = x then 2 else 0
  | _, _ => 0

/-- One slot takes an event: a refuted premise stays refuted for the row (R76). -/
def Dev.specSettle (d : Dev) (i : Nat) (x : Scn) (e : RowEv) : Dev :=
  let v := x.prem.settle e
  if v = 0 || x.verdict = 2 || v = x.verdict then d
  else
    let x := { x with verdict := v }
    let d := d.modScn i fun _ => x
    let d := if x.stage = 0 then d else d.specTag i (specState x.stage v) 0 x
    if v = 2 then d.raise 0 Ev.ALC.SPEC_REFUTED else d

/-- Note an event for the premises of the present row (R75, R76): recorded before the boundary's cycle. -/
def Dev.noteRow (d : Dev) (e : RowEv) : Dev :=
  if d.now < d.rowEnd then
    let d := d.specSync
    d.slots.foldl (fun d x => d.specSettle x.2 x.1 e) d
  else d

end Sys2Proof.Machine
end

