-- ==== Sys2Proof/Machine/Transitions.lean ====
section
/-!
DEFINITION. The changes of state that several blocks share: contactor requests (R156), strands stopping (R98, R114),
handovers aborting (R74), sessions ending (R209), points entering bind-off, discharge, opening and HELD (R121 to R124,
R158), and the release of strands (R71, R159).
-/

namespace Sys2Proof.Machine

/-! ### Records -/

/-- A strand's record. -/
def Dev.strand (d : Dev) (s : Nat) : Strand := d.str.get (fun _ => {}) s

/-- Change a strand's record. -/
def Dev.modStrand (d : Dev) (s : Nat) (f : Strand → Strand) : Dev :=
  { d with str := d.str.set (fun _ => {}) s (f (d.strand s)) }

/-- A point's record. -/
def Dev.point (d : Dev) (p : Nat) : Point := d.pt.get (fun _ => {}) p

/-- Change a point's record. -/
def Dev.modPoint (d : Dev) (p : Nat) (f : Point → Point) : Dev :=
  { d with pt := d.pt.set (fun _ => {}) p (f (d.point p)) }

/-- A session slot's record. -/
def Dev.sesRec (d : Dev) (m : Nat) : Ses := d.ses.get (fun _ => {}) m

/-- Change a session slot's record. -/
def Dev.modSes (d : Dev) (m : Nat) (f : Ses → Ses) : Dev :=
  { d with ses := d.ses.set (fun _ => {}) m (f (d.sesRec m)) }

/-- A contactor entry's record. -/
def Dev.entry (d : Dev) (e : Nat) : Entry := d.ctm.get (fun _ => {}) e

/-- Change a contactor entry's record. -/
def Dev.modEntry (d : Dev) (e : Nat) (f : Entry → Entry) : Dev :=
  { d with ctm := d.ctm.set (fun _ => {}) e (f (d.entry e)) }

/-! ### Reading the configuration -/

/-- The state of a point (OUT_RUNSTAT.STATE). -/
def Dev.ptState (d : Dev) (p : Nat) : Nat := d.rd p OUT_RUNSTAT.STATE

/-- The state of a session slot (Table SES-1). -/
def Dev.sesState (d : Dev) (m : Nat) : Nat := d.rd 0 (SES_STAT.STATE m)

/-- The state of a contactor entry (CTM_STATn.STATE). -/
def Dev.ctmState (d : Dev) (e : Nat) : Nat := d.rd 0 (CTM_STAT.STATE e)

/-- The state of a strand in the matrix (ALC_STRASG). -/
def Dev.asg (d : Dev) (s : Nat) : Nat := d.rd 0 (ALC_STRASG.STATE s)

/-- The point of a strand in the matrix. -/
def Dev.asgPt (d : Dev) (s : Nat) : Nat := d.rd 0 (ALC_STRASG.POINT s)

/-- Set a strand's place in the matrix. -/
def Dev.setAsg (d : Dev) (s st p : Nat) : Dev :=
  (d.wr 0 (ALC_STRASG.STATE s) st).wr 0 (ALC_STRASG.POINT s) p

/-- The enabled OUTPUT entries of a point. -/
def Dev.outEntries (d : Dev) (p : Nat) : List Nat :=
  (List.range 64).filter fun e =>
    d.on 0 (CTM_CONT_A.EN e) && d.rd 0 (CTM_CONT_A.ROLE e) = 0 && d.rd 0 (CTM_CONT_A.POINT e) = p

/-- The enabled LINK entries of a strand. -/
def Dev.linkEntries (d : Dev) (s : Nat) : List Nat :=
  (List.range 64).filter fun e =>
    d.on 0 (CTM_CONT_A.EN e) && d.rd 0 (CTM_CONT_A.ROLE e) = 1 && d.rd 0 (CTM_CONT_A.STRAND e) = s

/-- The enabled LINK entries that join a strand to a point. -/
def Dev.linkTo (d : Dev) (s p : Nat) : List Nat := (d.linkEntries s).filter fun e => d.rd 0 (CTM_CONT_A.POINT e) = p

/-- Whether enabled LINK entries join the strand to the point on both poles (R154). -/
def Dev.canConnect (d : Dev) (s p : Nat) : Bool :=
  let es := d.linkTo s p
  let pole (x : Nat) : Bool := es.any fun e => d.rd 0 (CTM_CONT_A.POLE e) = x || d.rd 0 (CTM_CONT_A.POLE e) = 2
  pole 0 && pole 1

/-- Whether an OUTPUT entry of a point is neither OPEN nor SAFE_OPEN (R21). -/
def Dev.outputsLive (d : Dev) (p : Nat) : Bool :=
  (d.outEntries p).any fun e => !(d.ctmState e = 0 || d.ctmState e = 7)

/-- Whether an output point is energised (R21). -/
def Dev.energised (d : Dev) (p : Nat) : Bool := (1 ≤ d.ptState p && d.ptState p ≤ 8) || d.outputsLive p

/-- Whether any output point is energised. -/
def Dev.anyEnergised (d : Dev) : Bool := (List.range 32).any d.energised

/-- The pair of a point, none for 0xF (R295). -/
def Dev.pairOf (d : Dev) (p : Nat) : Option Nat :=
  let q := d.rd 0 (SAF_PTPAIR.PAIR p)
  if q < 8 then some q else none

/-- Whether a pair is energised. -/
def Dev.pairOn (d : Dev) (q : Nat) : Bool := d.bit 0 SAF_STAT.PAIRON q

/-- Whether a safety trip acts on a point. -/
def Dev.tripActs (d : Dev) (p : Nat) : Bool := d.bit 0 SAF_PTTRIP.PTS p

/-! ### Contactor requests (R156) -/

/-- Whether an operation on an entry is queued. -/
def Dev.ctmQueued (d : Dev) (kind e : Nat) : Bool :=
  let p (o : Op) : Bool := o.kind = kind && o.arg 8 1 = e
  d.ope.safeQ.any p || d.ope.intQ.any p

/-- The unfinished operation of a kind on an entry. -/
def Dev.ctmFlight (d : Dev) (kind e : Nat) : Option Op :=
  d.ope.flight.find? fun o => o.kind = kind && o.arg 8 1 = e && o.phase ≠ .finished

/-- Request the close of a contactor (R156): it merges with a close, and waits behind an open. -/
def Dev.reqClose (d : Dev) (e : Nat) : Dev :=
  if d.ctmQueued OK.CONT_CLOSE e || (d.ctmFlight OK.CONT_CLOSE e).isSome then d
  else if d.ctmQueued OK.CONT_OPEN e || (d.ctmFlight OK.CONT_OPEN e).isSome then
    d.modEntry e fun x => { x with closeWaits := true }
  else d.request OK.CONT_CLOSE (leBytes 1 e)

/-- Request the open of a contactor (R156): it merges with an open, dropping a close that waits; it supersedes a close,
at once when that is queued or acknowledged, else on its IO_ACK. -/
def Dev.reqOpen (d : Dev) (e : Nat) : Dev :=
  let d := d.modEntry e fun x => { x with closeWaits := false }
  if d.ctmQueued OK.CONT_OPEN e || (d.ctmFlight OK.CONT_OPEN e).isSome then d
  else if d.ctmQueued OK.CONT_CLOSE e then
    { d with ope := { d.ope with intQ := d.ope.intQ.filter fun o => !(o.kind = OK.CONT_CLOSE && o.arg 8 1 = e) } }
  else
    match d.ctmFlight OK.CONT_CLOSE e with
    | some o =>
      if (d.entry e).ackAt.isSome then
        ((d.opFinish o.slot 4).modEntry e fun x => { x with ackAt := none, ackRun := 0 }).request OK.CONT_OPEN (leBytes 1 e)
      else d.modEntry e fun x => { x with openWaits := true }
    | none => d.request OK.CONT_OPEN (leBytes 1 e)

/-- Request opens for those entries of a list that are not OPEN. -/
def Dev.openAll (d : Dev) (es : List Nat) : Dev :=
  es.foldl (fun d e => if d.ctmState e = 0 && !d.ctmQueued OK.CONT_CLOSE e && (d.ctmFlight OK.CONT_CLOSE e).isNone
    then d else d.reqOpen e) d

/-! ### Strands -/

/-- Whether a strand runs: SOFTSTART, RUNNING or BINDOFF. -/
def Dev.strRunning (d : Dev) (s : Nat) : Bool :=
  let st := d.rd s STR_STAT.STATE
  2 ≤ st && st ≤ 4

/-- The strands the matrix gives a point, ASSIGNED, HAND_OUT or HAND_IN. -/
def Dev.strandsOf (d : Dev) (p : Nat) : List Nat :=
  (List.range 48).filter fun s => d.asgPt s = p && (let a := d.asg s; a = 1 || a = 2 || a = 3)

/-- The handover a strand is in. -/
def Dev.hoOf (d : Dev) (s : Nat) : Option Nat :=
  (List.range 4).find? fun h =>
    let st := d.rd 0 (ALC_HANDSTAT.STATE h)
    1 ≤ st && st ≤ 5 && d.rd 0 (ALC_HANDSTAT.STRAND h) = s

/-- Whether a strand is between two points: Opening, Pre-bias or Closing of its handover (R73). -/
def Dev.between (d : Dev) (s : Nat) : Bool :=
  match d.hoOf s with
  | some h => let st := d.rd 0 (ALC_HANDSTAT.STATE h); 2 ≤ st && st ≤ 4
  | none => false

/-- The running strands of a point's group (R85). -/
def Dev.group (d : Dev) (p : Nat) : List Nat := (d.strandsOf p).filter fun s => d.strRunning s && !d.between s

/-- The lead strand: the lowest-numbered running strand ASSIGNED or HAND_IN (R85). -/
def Dev.leadOf (d : Dev) (p : Nat) : Option Nat := (d.group p).find? fun s => d.asg s = 1 || d.asg s = 3

/-- The STR SPEC slot takes a state and reason (Table STR-1). -/
def Dev.specStr (d : Dev) (s st reason : Nat) : Dev :=
  ((d.wr s STR_SPEC_TAG.STATE st).wr s STR_SPEC_TAG.DREASON reason).inc s STR_SPEC_SEQ.SEQ

/-- A pending shed is aborted (R83, R113): a prepared one is discarded with its reason. Edges that wait for its hold to
expire still wait. -/
def Dev.shedAbort (d : Dev) (s reason : Nat) : Dev :=
  let x := d.strand s
  let d := d.modStrand s fun x =>
    { x with holdAt := none, plan := none, expiring := if x.expiring.isSome then some 9 else none }
  let d := if x.plan.isSome then ((d.specStr s 6 reason).inc s STR_SPEC_DISC.COUNT).raise s Ev.STR.SHED_ABORT else d
  if x.holdAt.isSome || x.plan.isSome then d.noteRow (.shedAbort s) else d

/-- Every phase returns (R114): NACT is NPH, no phase is shed. A prepared shed is discarded with STOP where the strand
stops, and with HOLD, its state no longer RUNNING, where it does not (DEDUCED, log entry 300). -/
def Dev.phasesBack (d : Dev) (s : Nat) : Dev :=
  let st := d.rd s STR_STAT.STATE
  let d := d.shedAbort s (if st = 2 || st = 4 then 3 else 4)
  let back := d.on s STR_MPSTAT.SHED
  let d := (d.wr s STR_STAT.NACT (d.rd s STR_CFG.NPH)).wr s STR_MPSTAT.SHED 0
  if back then d.noteRow (.shedAbort s) else d

/-- A strand enters a state; all its phases return in STOPPED, SOFTSTART and BINDOFF (R114). -/
def Dev.setStr (d : Dev) (s st : Nat) : Dev :=
  let d := d.wr s STR_STAT.STATE st
  if st = 1 || st = 2 || st = 4 then d.phasesBack s else d

/-- The edges of a strand's next period are STOP. -/
def Dev.stopEdges (d : Dev) (s : Nat) : Dev := d.modStrand s fun x => { x with stopped := true }

/-- Every strand of a point's group stops switching. -/
def Dev.stopGroup (d : Dev) (p : Nat) : Dev := (d.group p).foldl Dev.stopEdges d

/-- A running strand of the group that can run in reverse. -/
def Dev.anyBidir (d : Dev) (p : Nat) : Bool := (d.group p).any fun s => d.on s STR_CFG.BIDIR

/-- A reverse discharge that no running strand can carry any more is verification only (R122). -/
def Dev.reverseEnds (d : Dev) (p : Nat) : Dev :=
  if (d.point p).reverse && !d.anyBidir p then d.modPoint p fun x => { x with reverse := false } else d

/-- The restart checks of a point's strands end when it is not RUNNING: they wait in STOPPED (R120). -/
def Dev.checksEnd (d : Dev) (p : Nat) : Dev :=
  (d.strandsOf p).foldl (fun d s => d.modStrand s fun x => { x with restartAt := none, restartN := 0 }) d

/-- A strand is free once a release under way has every LINK entry OPEN; an entry that fails to open makes it FAULT
(R71, R442). -/
def Dev.freeCheck (d : Dev) (s : Nat) : Dev :=
  if !(d.strand s).releasing then d
  else if (d.linkEntries s).any fun e => d.ctmState e = 5 then
    (d.setAsg s 5 (d.asgPt s)).modStrand s fun x => { x with releasing := false }
  else if (d.linkEntries s).all fun e => d.ctmState e = 0 && !d.ctmQueued OK.CONT_CLOSE e then
    let on := d.en .str s
    ((d.setAsg s (if on then 0 else 6) 0).setStr s (if on then 1 else 0)).modStrand s fun x =>
      { x with releasing := false, ramp := 0, stopped := true }
  else d

/-- Release a strand: its LINK contactors open, then it is FREE (R71, R159 step 6). -/
def Dev.releaseStrand (d : Dev) (s : Nat) : Dev :=
  let d := d.modStrand s fun x => { x with releasing := true, stopped := true, restartAt := none }
  (d.openAll (d.linkEntries s)).freeCheck s

/-- Release the strands of a point, but for one that a handover is taking away (R74). -/
def Dev.releaseStrands (d : Dev) (p : Nat) : Dev :=
  ((List.range 48).filter fun s => d.asgPt s = p && (let a := d.asg s; a = 1 || a = 3 || a = 4)).foldl
    Dev.releaseStrand d

/-! ### Handovers (R74) -/

/-- A handover ends in state 7 with a cause; its strand stops, its closed contactors open, and it becomes FAULT, or
FREE once they are confirmed open. -/
def Dev.hoAbort (d : Dev) (h cause : Nat) (toFault : Bool) : Dev :=
  let s := d.rd 0 (ALC_HANDSTAT.STRAND h)
  let d := ((d.wr 0 (ALC_HANDSTAT.STATE h) 7).wr 0 (ALC_HANDSTAT.CAUSE h) cause).raise 0 Ev.ALC.HANDOVER_ABORT
  let d := (d.stopEdges s).modStrand s fun x => { x with ramp := 0, restartAt := none }
  let d := if d.rd s STR_STAT.STATE = 5 then d else d.setStr s 1
  let d := d.reverseEnds (d.rd 0 (ALC_HANDSTAT.FROM h))
  if toFault then (d.setAsg s 5 (d.asgPt s)).openAll (d.linkEntries s)
  else d.releaseStrand s

/-! ### Strand faults -/

/-- The STR event of a fault code (Tables STR-5, STR-8). -/
def strFaultEv (code : Nat) : Option Ev :=
  match code with
  | 0x01 => some Ev.STR.TLM_LOSS
  | 0x02 => some Ev.STR.VBUS_LOW
  | 0x03 => some Ev.STR.PH_OC
  | 0x10 => some Ev.STR.PH_INVALID
  | 0x11 => some Ev.STR.RESTART_FAIL
  | _ => none

/-- The limit a strand with k of its n phases reports, the full one with all of them; between, the spec names no figure
and the value is free (R75). -/
def Dev.phaseLimit (d : Dev) (s full k : Nat) : Nat :=
  let n := d.rd s STR_CFG.NPH
  if n ≤ k then full else min full (Config.shedLimit full k n)

/-- Note the limits a strand reports as it stops; one that is stopped at a RUNNING point reports 0 and keeps those from
before (Table ALC-11). -/
def Dev.noteLimits (d : Dev) (s : Nat) : Dev :=
  let st := d.rd s STR_STAT.STATE
  if st = 1 && d.ptState (d.asgPt s) = 4 then d
  else
    let k := if d.strRunning s then d.rd s STR_STAT.NACT else d.rd s STR_CFG.NPH
    d.modStrand s fun x =>
      { x with limI := d.phaseLimit s (d.rd s STR_IMAX.MA) k, limP := d.phaseLimit s (d.rd s STR_PMAX.W) k }

/-- A strand stops on a fault: edges STOP, the code, its share passes on, its point is clamped (R92, R98), a handover
aborts (R74). A strand already faulted keeps its first code; one in its restart check takes RESTART_FAIL (R120). A new
fault refutes the premise of its return, and discards a shed prepared for it (Tables ALC-11, STR-1). -/
def Dev.strandFault (d : Dev) (s code : Nat) : Dev :=
  if d.rd s STR_STAT.STATE = 5 then d
  else
    let code := if (d.strand s).restartAt.isSome then 0x11 else code
    let d := (((d.noteLimits s).shedAbort s 4).wr s STR_FAULT.CODE code).setStr s 5
    let d := d.modStrand s fun x =>
      { x with stopped := true, restartAt := none, armed := false, arming := false, ramp := 0 }
    let d := match strFaultEv code with
      | some e => d.raise s e
      | none => d
    let d := d.noteRow (.restartFail s)
    let d := match d.hoOf s with
      | some h => d.hoAbort h 1 true
      | none => d
    (d.modPoint (d.asgPt s) fun x => { x with clampNow := true }).reverseEnds (d.asgPt s)

/-! ### Sessions -/

/-- The session of a point in a state from CONNECTED to ENDING (R203). -/
def Dev.liveSes (d : Dev) (p : Nat) : Option Nat :=
  (List.range 64).find? fun m =>
    let st := d.sesState m
    1 ≤ st && st ≤ 5 && d.rd 0 (SES_STAT.POINT m) = p

/-- Whether a point carries the interrupted mark (R213). -/
def Dev.interrupted (d : Dev) (p : Nat) : Bool :=
  (List.range 64).any fun m => d.sesState m = 7 && d.rd 0 (SES_STAT.POINT m) = p

/-- Whether a point is locked (R64). -/
def Dev.ptLocked (d : Dev) (p : Nat) : Bool := d.rd p OUT_RUNSTAT.FAULT = 1 || d.tripActs p || d.interrupted p

/-- Whether a point counts as in bind-off (R64, Table OUT-5). -/
def Dev.inBindOff (d : Dev) (p : Nat) : Bool :=
  d.rd p OUT_RUNSTAT.FAULT ≠ 0 || (5 ≤ d.ptState p && d.ptState p ≤ 8)

/-- Whether a point's session is allocatable (R64): a strand ASSIGNED, authorised, neither locked nor in bind-off. -/
def Dev.allocatable (d : Dev) (p : Nat) : Bool :=
  match d.liveSes p with
  | some m =>
    (d.sesState m = 3 || d.sesState m = 4) && !d.ptLocked p && !d.inBindOff p
      && (List.range 48).any fun s => d.asg s = 1 && d.asgPt s = p
  | none => false

/-- Write the SESSION record of a session (R323, Table JNL-1). -/
def Dev.jnlSession (d : Dev) (m : Nat) : Dev :=
  let body := [BitVec.ofNat 8 m, BitVec.ofNat 8 (d.rd 0 (SES_STAT.GEN m)), BitVec.ofNat 8 (d.rd 0 (SES_STAT.POINT m)),
    BitVec.ofNat 8 (d.sesState m), BitVec.ofNat 8 (d.rd 0 (SES_STAT.CAUSE m))]
  let (i, d) := d.jnlWrite fun seq time => { kind := 4, seq := seq, time := time, body := body }
  Dev.jnlTail { d with ope := { d.ope with sesRec := d.ope.sesRec.set (fun _ => 0) m (i + 1) } }

/-- A session enters a state; AUTHORISED, CHARGING, ENDING and ENDED are journalled (R323). -/
def Dev.setSes (d : Dev) (m st : Nat) : Dev :=
  let d := d.wr 0 (SES_STAT.STATE m) st
  if 3 ≤ st && st ≤ 6 then d.jnlSession m else d

/-- The CE drive of a point (R198), on the local line or by the IO node. -/
def Dev.setCe (d : Dev) (p : Nat) (on : Bool) : Dev :=
  if d.rd p OUT_CFG.TYPE ≠ 0 then d
  else
    let v := d.rd 0 (VCM_CP.CE p)
    let d := d.wr 0 (VCM_CP.CE p) (v / 2 * 2 + (if on then 1 else 0))
    let x := d.vcm.pts.get (fun _ => {}) p
    let d : Dev := { d with vcm := { d.vcm with pts := d.vcm.pts.set (fun _ => {}) p { x with ceBadAt := none } } }
    if d.rd 0 (VCM_PT_A.PSRC p) = 1 then
      d.ioDrive (d.rd 0 (VCM_PT_A.PORT p)) (d.rd 0 (VCM_PT_A.NODE p)) (d.rd 0 (VCM_PT_A.CHBASE p) + 1) (if on then 1 else 0)
    else d

/-- The session becomes ENDED (R203, Table SES-1). -/
def Dev.sesEnded (d : Dev) (m : Nat) : Dev :=
  let p := d.rd 0 (SES_STAT.POINT m)
  let d := d.modSes m fun x => { x with endMs := (d.now - x.endAt) / ticksPerMs, refreshAt := none }
  let d := (d.setSes m 6).raise 0 Ev.SES.ENDED
  d.setCe p false

/-- A session may become ENDED: no other session of its point stands in ENDED or INTERRUPTED, of which a point holds one
at most (R203). Until the host has released that one it stays in ENDING (DEDUCED, log entry 319). -/
def Dev.mayEnd (d : Dev) (m : Nat) : Bool :=
  !(List.range 64).any fun k =>
    k ≠ m && (d.sesState k = 6 || d.sesState k = 7) && d.rd 0 (SES_STAT.POINT k) = d.rd 0 (SES_STAT.POINT m)

/-- An ENDING session whose point is IDLE or HELD and whose strands are FREE or FAULT becomes ENDED (R203). -/
def Dev.endedCheck (d : Dev) (p : Nat) : Dev :=
  match d.liveSes p with
  | some m =>
    if d.sesState m = 5 && d.mayEnd m && (d.ptState p = 0 || d.ptState p = 9) && (List.range 48).all fun s =>
        !(d.asgPt s = p && (d.asg s = 1 || d.asg s = 3 || d.asg s = 4)) && !((d.strand s).releasing && d.asgPt s = p)
    then d.sesEnded m else d
  | none => d

/-! ### Points -/

/-- A point enters a state. -/
def Dev.setPt (d : Dev) (p st : Nat) : Dev :=
  (d.wr p OUT_RUNSTAT.STATE st).modPoint p fun x =>
    { x with since := d.now, lossAt := if st = 0 || st = 9 then none else x.lossAt }

/-- A vehicle-open indication stands: pilot accepted as A or B, ID UNPLUGGED on a megawatt point, or VEHOPEN (R210). -/
def Dev.vehOpen (d : Dev) (p : Nat) : Bool :=
  (d.point p).vehOpen || d.rd 0 (VCM_CP.CP p) ≤ 1 || (d.rd p OUT_CFG.TYPE = 0 && d.rd 0 (VCM_CP.ID p) = 0)

/-- Active discharge begins (R122, R123): SWITCH closes the discharge output; REVERSE acts only where it may and a
strand can, else verification only. -/
def Dev.enterDischarge (d : Dev) (p : Nat) (mayReverse : Bool) : Dev :=
  let d := (d.setPt p 7).checksEnd p
  let rev := d.rd p OUT_DISCFG.METHOD = 0 && mayReverse && (d.point p).lossAt.isNone && d.anyBidir p
  let d := d.modPoint p fun x => { x with disAt := d.now, verified := false, reverse := rev }
  let d := (d.group p).foldl (fun d s => d.modStrand s fun x => { x with stopped := !(rev && d.on s STR_CFG.BIDIR) }) d
  let d := (d.wr p OUT_DISTIME.MS 0xFFFF).wr p OUT_DISTIME.V 0
  if d.rd p OUT_DISCFG.METHOD = 1 && !d.opPending OK.DIS_CLOSE p then d.request OK.DIS_CLOSE (leBytes 1 p) else d

/-- VEHWAIT (R121 step 2): edges STOP; an indication already present satisfies it at once (R210). -/
def Dev.enterVehWait (d : Dev) (p : Nat) : Dev :=
  let d := (d.stopGroup p).setPt p 6
  if d.vehOpen p then d.enterDischarge p true else d

/-- Bind-off begins (R121): RAMPDOWN, passed at once from PREBIAS and CLOSING. -/
def Dev.startBindOff (d : Dev) (p : Nat) : Dev :=
  let st := d.ptState p
  if !(1 ≤ st && st ≤ 4) then d
  else
    let d := (d.checksEnd p).modPoint p fun x => { x with bindOff := true, r0 := x.r, shortAt := if st = 3 then x.shortAt else none }
    let d := (d.group p).foldl (fun d s => d.setStr s 4) d
    if st ≤ 2 then d.enterVehWait p else d.setPt p 5

/-- A cause ends the session (R209): CAUSE, END, its next state, and the point's bind-off or the strands' release. Of
two causes in one cycle the lower code is recorded. A handover towards the point ends with it (R74): in Ramp-out too its
strand stops and opens at once, and one in Closing counts as not yet closed (DESIGN CHOICE, log entry 301). -/
def Dev.sesEnd (d : Dev) (m cause : Nat) : Dev :=
  let st := d.sesState m
  let p := d.rd 0 (SES_STAT.POINT m)
  let x := d.sesRec m
  if 1 ≤ st && st ≤ 4 then
    let undone := st = 3 && x.startAt = d.now
    let direct := st ≤ 2 || (st = 3 && (!x.reserved || undone))
    let d := d.wr 0 (SES_STAT.CAUSE m) cause
    let d := (d.modSes m fun x => { x with endAt := d.now }).raise 0 Ev.SES.END
    let d := d.noteRow (.sessionEnd p)
    let d := if direct && d.mayEnd m then d.sesEnded m else d.setSes m 5
    let d := (List.range 4).foldl (fun d h =>
      let hs := d.rd 0 (ALC_HANDSTAT.STATE h)
      if 1 ≤ hs && hs ≤ 4 && d.rd 0 (ALC_HANDSTAT.TO h) = p then d.hoAbort h 4 false else d) d
    let ps := d.ptState p
    if 1 ≤ ps && ps ≤ 4 then d.startBindOff p
    else if ps = 0 || ps = 9 then (d.releaseStrands p).endedCheck p
    else d
  else if (st = 5 || st = 6) && x.endAt = d.now && cause < d.rd 0 (SES_STAT.CAUSE m) then
    d.wr 0 (SES_STAT.CAUSE m) cause
  else d

/-- The session of a point that became ENDED in this very cycle (R209). -/
def Dev.endedNow (d : Dev) (p : Nat) : Option Nat :=
  (List.range 64).find? fun m => d.sesState m = 6 && d.rd 0 (SES_STAT.POINT m) = p && (d.sesRec m).endAt = d.now

/-- A cause ends the live session of a point, if it holds one; it may be the lower of two causes of one cycle, of which
the other has ended the session already (R209). -/
def Dev.endPointSes (d : Dev) (p cause : Nat) : Dev :=
  match (d.liveSes p).orElse fun _ => d.endedNow p with
  | some m => d.sesEnd m cause
  | none => d

/-- Record a point fault: the first stands, but of those of one instant the lowest code (R158). -/
def Dev.setFault (d : Dev) (p code : Nat) : Dev :=
  let f := d.rd p OUT_RUNSTAT.FAULT
  if f = 0 || ((d.point p).faultAt = d.now && code < f) then
    (d.wr p OUT_RUNSTAT.FAULT code).modPoint p fun x => { x with faultAt := d.now }
  else d

/-- The OUT event of a point fault code (Tables OUT-6, OUT-13). -/
def ptFaultEv (code : Nat) : List Ev :=
  if code = 1 then [Ev.OUT.SHORT_SS] else if code = 2 || code = 3 then [Ev.OUT.PB_FAIL]
  else if code = 4 then [Ev.OUT.DIS_FAIL] else if code = 5 then [Ev.OUT.WELD]
  else if code = 9 then [Ev.OUT.ISO_FAULT]
  else if code = 6 || code = 7 || code = 8 || code = 0xA || code = 0xB then [Ev.OUT.CONT_FAULT] else []

/-- The after-opening or pre-start weld check (R160): 0 PASS, 1 WELD, 2 UNTESTED for one pole. -/
def weldJudge (minMv tolMv : Int) (vcab vveh : Int) (ref : Int) (blocked : Bool) : Nat :=
  if ref.natAbs < minMv.natAbs || blocked then 2
  else if (vcab - vveh).natAbs ≤ tolMv.natAbs then 1 else 0

/-- A point measurement channel of Table OUT-9, current or 0. -/
def Dev.ptChan (d : Dev) (p off : Nat) : Option Int :=
  d.input (d.rd p OUT_IOSRC.PORT) (d.rd p OUT_IOSRC.NODE) (d.rd p OUT_IOSRC.CHBASE + off)

/-- The last value of a point measurement channel. -/
def Dev.ptChan0 (d : Dev) (p off : Nat) : Int :=
  d.inputOr0 (d.rd p OUT_IOSRC.PORT) (d.rd p OUT_IOSRC.NODE) (d.rd p OUT_IOSRC.CHBASE + off)

/-- Judge both poles (R160): `when` 1 after opening, 2 before pre-bias; true when a pole is welded. -/
def Dev.weldCheck (d : Dev) (p when : Nat) : Bool × Dev :=
  let minMv : Int := d.rd p OUT_WELDCFG.MINV_V * 1000
  let tol : Int := d.rd p OUT_WELDCFG.TOL_V * 1000
  let vend : Int := d.rd p OUT_DISCFG.VEND_V * 1000
  let live := when = 1 && vend ≤ d.ptChan0 p 0
  let pole (cab veh : Nat) : Nat :=
    let c := d.ptChan0 p cab
    let v := d.ptChan0 p veh
    weldJudge minMv tol c v (if when = 1 then c else v) live
  let pos := pole 1 3
  let neg := pole 2 4
  let d := ((d.wr p OUT_WELDSTAT.WHEN when).wr p OUT_WELDSTAT.POS pos).wr p OUT_WELDSTAT.NEG neg
  let d := if pos = 2 || neg = 2 then d.raise p Ev.OUT.WELD_UNTESTED else d
  (pos = 1 || neg = 1, d)

/-- Whether the opens of a point's OUTPUT entries have all been judged: none of those issued is still under way. -/
def Dev.opensJudged (d : Dev) (p : Nat) : Bool :=
  (d.outEntries p).all fun e =>
    (d.ctmState e = 0 || d.ctmState e = 7 || d.ctmState e = 5) && !d.ctmQueued OK.CONT_CLOSE e
      && !d.ctmQueued OK.CONT_OPEN e && (d.ctmFlight OK.CONT_OPEN e).isNone

/-- The end marker a point owes goes to the L-die once its OUTPUT entries are open (R211). -/
def Dev.endMark (d : Dev) (p : Nat) : Dev :=
  match (d.point p).endOwed with
  | some (m, gen) =>
    if d.outputsLive p then d
    else (d.modPoint p fun x => { x with endOwed := none }).request OK.MARK_END
      [BitVec.ofNat 8 m, BitVec.ofNat 8 gen, BitVec.ofNat 8 p]
  | none => d

/-- The end of OPENING (R121 step 5, R159 steps 5 and 6): weld check, discharge switch opened, end marker, IDLE or HELD,
strands released. -/
def Dev.opened (d : Dev) (p : Nat) : Dev :=
  if !(d.ptState p = 8 && d.opensJudged p) then d
  else
    let confirmed := !d.outputsLive p
    let (weld, d) := if confirmed then d.weldCheck p 1 else (false, d)
    let d := if weld then (d.setFault p 5).raise p Ev.OUT.WELD else d
    let d := if d.rd p OUT_DISCFG.METHOD = 1 then d.requestSafe OK.DIS_OPEN p else d
    let d := match d.liveSes p with
      | some m =>
        if (d.sesRec m).charged then
          (d.modPoint p fun x => { x with endOwed := some (m, d.rd 0 (SES_STAT.GEN m)) }).endMark p
        else d
      | none => d
    let bo := (d.point p).bindOff
    let d := d.setPt p (if d.rd p OUT_RUNSTAT.FAULT ≠ 0 then 9 else 0)
    let d := if bo then d.raise p Ev.OUT.BO_DONE else d
    let d := d.modPoint p fun x => { x with bindOff := false, vehOpen := false, r := 0, dr := 0, ols := [], clampNow := false }
    let d := (d.wr p OUT_LOOPSTAT.MODE 3).wr p OUT_REF.MA 0
    let d := (d.group p).foldl (fun d s => (d.stopEdges s).setStr s 1) d
    let d := if weld then d.endPointSes p 4 else d
    (d.releaseStrands p).endedCheck p

/-- The enabled LINK entries of every strand to a point. -/
def Dev.ptLinks (d : Dev) (p : Nat) : List Nat :=
  (List.range 64).filter fun e =>
    d.on 0 (CTM_CONT_A.EN e) && d.rd 0 (CTM_CONT_A.ROLE e) = 1 && d.rd 0 (CTM_CONT_A.POINT e) = p

/-- OPENING (R159 step 5): opens for every OUTPUT entry; after a fault for every contactor of the point (R158). -/
def Dev.enterOpening (d : Dev) (p : Nat) : Dev :=
  let d := (d.stopGroup p).setPt p 8
  let d := d.modPoint p fun x => { x with reverse := false }
  let d := d.openAll (d.outEntries p)
  let d := if d.rd p OUT_RUNSTAT.FAULT ≠ 0 then d.openAll (d.ptLinks p) else d
  d.opened p

/-- A point goes to HELD with a fault before any strand has switched, or stops pre-bias (R116, R159 step 2). -/
def Dev.holdPoint (d : Dev) (p code : Nat) : Dev :=
  let d := (d.setFault p code).setPt p 9
  let d := (ptFaultEv code).foldl (fun d e => d.raise p e) d
  let d := (d.group p).foldl (fun d s => (d.stopEdges s).setStr s 1) d
  let d := d.openAll (d.outEntries p)
  d.endPointSes p 4

/-- A point FAULT (Table CTM-2, R118, R161): every strand stops, then DISCHARGE with verification only for REVERSE, and
the session ends with POINT_FAULT. -/
def Dev.pointFault (d : Dev) (p code : Nat) : Dev :=
  let st := d.ptState p
  let d := d.setFault p code
  let d := (ptFaultEv code).foldl (fun d e => d.raise p e) d
  let d := (d.group p).foldl (fun d s => if d.rd s STR_STAT.STATE = 4 then d.stopEdges s else (d.stopEdges s).setStr s 4) d
  let d := if 1 ≤ st && st ≤ 6 then d.enterDischarge p false
    else if st = 7 then d.modPoint p fun x => { x with reverse := false }
    else if st = 8 then d.opened p
    else if st = 0 then (d.setPt p 9).openAll (d.outEntries p)
    else d
  d.endPointSes p 4

/-- The end of discharge verification when the time runs out (R123): DIS_FAIL and OPENING. -/
def Dev.disFail (d : Dev) (p : Nat) : Dev :=
  let d := (d.setFault p 4).raise p Ev.OUT.DIS_FAIL
  (d.endPointSes p 4).enterOpening p

/-- A safety trip acts on a point (R124): its strands stop; unless already there it enters DISCHARGE, and the session
ends. -/
def Dev.tripPoint (d : Dev) (p cause : Nat) : Dev :=
  let st := d.ptState p
  let d := (d.group p).foldl (fun d s => if d.rd s STR_STAT.STATE = 4 then d.stopEdges s else (d.stopEdges s).setStr s 4) d
  let d := (List.range 4).foldl (fun d h =>
    let hs := d.rd 0 (ALC_HANDSTAT.STATE h)
    if 1 ≤ hs && hs ≤ 5 && (d.rd 0 (ALC_HANDSTAT.FROM h) = p || d.rd 0 (ALC_HANDSTAT.TO h) = p)
    then d.hoAbort h 5 false else d) d
  let d := if 1 ≤ st && st ≤ 6 then d.enterDischarge p false
    else if st = 7 then d.modPoint p fun x => { x with reverse := false } else d
  d.endPointSes p cause

end Sys2Proof.Machine
end

