-- ==== Sys2Proof/Machine/Contactor.lean ====
section
/-!
DEFINITION. Contactors: the close interlocks (R155), the coil commands of ACT operations (R157), confirmation, its
failure and the loss of a contact (R157, R158, Table CTM-2), operations that end unjudged (R442), the discharge switch
(R122) and the insulation faults (R161).
-/

namespace Sys2Proof.Machine

/-- What a meaning that touches the device alone does to the state: time advances to the command's count (R440). -/
def onDev (t : Nat) (f : Dev → Dev) (s : State) : Host.Outcome State Fault Refusal :=
  .next { s with dev := f (Dev.at t s.dev) }

/-! ### Interlocks -/

/-- Whether a close of an entry would meet every interlock of Table CTM-1. -/
def Dev.mayClose (d : Dev) (e : Nat) : Bool :=
  let p := d.rd 0 (CTM_CONT_A.POINT e)
  if d.rd 0 (CTM_CONT_A.ROLE e) = 0 then
    d.ptState p = 2 && !d.tripActs p && (match d.pairOf p with | some q => d.pairOn q | none => false)
  else
    let s := d.rd 0 (CTM_CONT_A.STRAND e)
    let others := (d.linkEntries s).all fun x => d.rd 0 (CTM_CONT_A.POINT x) = p || d.ctmState x = 0
    let closing := match d.hoOf s with
      | some h => d.rd 0 (ALC_HANDSTAT.STATE h) = 4 && d.rd 0 (ALC_HANDSTAT.TO h) = p
      | none => false
    let reserved := d.asg s = 4 && d.asgPt s = p
    others && (closing || (reserved && (d.outEntries p).all fun x => d.ctmState x = 0))

/-- The strand of a LINK entry becomes FAULT in the matrix (R71, R74): its handover aborts with a cause. -/
def Dev.linkFault (d : Dev) (e cause : Nat) : Dev :=
  let s := d.rd 0 (CTM_CONT_A.STRAND e)
  match d.hoOf s with
  | some h => d.hoAbort h cause true
  | none =>
    let p := d.asgPt s
    let d := (d.setAsg s 5 p).modStrand s fun x => { x with releasing := false, stopped := true, restartAt := none }
    let d := if d.strRunning s then d.setStr s 1 else d
    ((d.modPoint p fun x => { x with clampNow := true }).reverseEnds p).endedCheck p

/-- The close was not issued (R442, INTERLOCK). -/
def Dev.ctmInterlock (d : Dev) (e : Nat) : Dev :=
  let s := d.rd 0 (CTM_CONT_A.STRAND e)
  if d.rd 0 (CTM_CONT_A.ROLE e) = 0 then d.pointFault (d.rd 0 (CTM_CONT_A.POINT e)) 6
  else
    match d.hoOf s with
    | some h => if d.rd 0 (ALC_HANDSTAT.STATE h) = 4 then d.hoAbort h 3 false else d
    | none => if d.asg s = 4 then d.releaseStrand s else d

/-- The confirmed state of an OUTPUT entry's poles (OUT_CONTSTAT). -/
def Dev.contStat (d : Dev) (p : Nat) : Dev :=
  let pole (x : Nat) : Bool :=
    (d.outEntries p).any fun e =>
      d.ctmState e = 2 && (d.rd 0 (CTM_CONT_A.POLE e) = x || d.rd 0 (CTM_CONT_A.POLE e) = 2)
  (d.wrB p OUT_CONTSTAT.POS (pole 0)).wrB p OUT_CONTSTAT.NEG (pole 1)

/-- An entry enters a state; an OUTPUT entry's poles are shown. -/
def Dev.setCtm (d : Dev) (e st : Nat) : Dev :=
  let d := d.wr 0 (CTM_STAT.STATE e) st
  if d.rd 0 (CTM_CONT_A.ROLE e) = 0 then d.contStat (d.rd 0 (CTM_CONT_A.POINT e)) else d

/-- A close fails, unconfirmed or on the link (Table CTM-2, R442): FAIL_CLOSE. An open that waited for it is issued
(R156). -/
def Dev.failClose (d : Dev) (e : Nat) : Dev :=
  let waits := (d.entry e).openWaits
  let d := ((d.setCtm e 4).raise 0 Ev.CTM.CLOSE_FAIL).modEntry e fun x => { x with ackAt := none, openWaits := false }
  if d.rd 0 (CTM_CONT_A.ROLE e) = 0 then
    let d := if waits then d.reqOpen e else d
    d.pointFault (d.rd 0 (CTM_CONT_A.POINT e)) 6
  else (d.linkFault e 3).reqOpen e

/-- An open fails, unconfirmed or on the link (Table CTM-2, R442): FAIL_OPEN; a close that waited ends INTERLOCK
(R156). -/
def Dev.failOpen (d : Dev) (e : Nat) : Dev :=
  let waits := (d.entry e).closeWaits
  let d := ((d.setCtm e 5).raise 0 Ev.CTM.OPEN_FAIL).modEntry e fun x => { x with ackAt := none, closeWaits := false }
  let d := if d.rd 0 (CTM_CONT_A.ROLE e) = 0 then d.pointFault (d.rd 0 (CTM_CONT_A.POINT e)) 7 else d.linkFault e 2
  if waits then d.ctmInterlock e else d

/-! ### Commands -/

/-- The status of a request that a port could not carry: DOMAIN with its domain not ON, else LINK_FAIL (Table OPE-2). -/
def Dev.ioStatus (d : Dev) (k : Nat) : Nat := if d.sknOn k then 6 else 8

/-- Send a coil command for an operation; a link that cannot carry it fails the operation at once (R143, R157). -/
def Dev.coil (d : Dev) (slot e : Nat) (v : Int) : Dev :=
  let k := d.rd 0 (CTM_CONT_A.PORT e)
  let d := d.setOp slot fun o => { o with phase := .acting, time := d.now }
  let (sent, d) := d.ioRequest k (d.rd 0 (CTM_CONT_A.NODE e)) 0 (d.rd 0 (CTM_CONT_B.COIL e)) v (.op slot)
  if sent then d
  else
    let d := d.opFinish slot (d.ioStatus k)
    if v = 1 then d.failClose e else d.failOpen e

/-- The action of CONT_CLOSE (R154, R155, R157). -/
def Dev.contClose (d : Dev) (slot e : Nat) : Dev :=
  if !d.on 0 (CTM_CONT_A.EN e) then d.opFinish slot 1
  else if !d.mayClose e then
    let waits := (d.entry e).openWaits
    let d := (d.opFinish slot 3).modEntry e fun x => { x with openWaits := false }
    (if waits then d.reqOpen e else d).ctmInterlock e
  else
    let d := (d.setCtm e 1).modEntry e fun x => { x with ackAt := none, ackRun := 0 }
    d.coil slot e 1

/-- The action of CONT_OPEN (R154, R157). A SAFE_OPEN entry keeps its state until its coil command is 0. -/
def Dev.contOpen (d : Dev) (slot e : Nat) : Dev :=
  if !d.on 0 (CTM_CONT_A.EN e) then d.opFinish slot 1
  else
    let d := if d.ctmState e = 7 then d else d.setCtm e 3
    (d.modEntry e fun x => { x with ackAt := none, ackRun := 0 }).coil slot e 0

/-- The IO_ACK of a coil command (R156, R157). -/
def Dev.ctmAck (d : Dev) (o : Op) (status : Nat) : Dev :=
  let e := o.arg 8 1
  let close := o.kind = OK.CONT_CLOSE
  if status ≠ 0 then
    let d := d.opFinish o.slot (0x10 + status)
    if close then d.failClose e else d.failOpen e
  else
    let d := d.wr 0 (CTM_STAT.CMD e) (if close then 1 else 0)
    let d := if !close && d.ctmState e = 7 then d.setCtm e 0 else d
    if close && (d.entry e).openWaits then
      ((d.opFinish o.slot 4).modEntry e fun x => { x with openWaits := false }).request OK.CONT_OPEN (leBytes 1 e)
    else d.modEntry e fun x => { x with ackAt := some d.now, ackRun := 0 }

/-! ### Confirmation (R157) -/

/-- The unfinished coil operation of an entry that has been acknowledged, and when. -/
def Dev.acked (d : Dev) (e : Nat) : Option (Op × Nat) :=
  match (d.entry e).ackAt with
  | none => none
  | some a =>
    match d.ctmFlight OK.CONT_CLOSE e with
    | some o => some (o, a)
    | none => (d.ctmFlight OK.CONT_OPEN e).map fun o => (o, a)

/-- Whether an entry's input has read the state in AUXDEB consecutive updates since the IO_ACK. -/
def Dev.auxConfirms (d : Dev) (e : Nat) (closed : Bool) : Bool :=
  let x := d.entry e
  x.raw = closed && d.rd 0 CTM_CFG.AUXDEB ≤ x.ackRun && !d.on 0 (CTM_STAT.STALE e)

/-- The confirmation limit of an entry, in ticks. -/
def Dev.confirmLimit (d : Dev) (e : Nat) (close : Bool) : Nat :=
  (if close then d.rd 0 (CTM_CONT_B.CLOSE_MS e) else d.rd 0 (CTM_CONT_B.OPEN_MS e)) * ticksPerMs

/-- Begin arming a strand's EDGE node (R147): NODE_STAT is read until it is aligned and configured, then ARM is written;
a node that is not stopped acknowledges it without effect. -/
def Dev.armStrand (d : Dev) (s : Nat) : Dev :=
  (d.modStrand s fun x => { x with armed := false, arming := true }).request OK.NODE_RD
    [BitVec.ofNat 8 (d.rd s STR_TLMSRC.PORT), BitVec.ofNat 8 (d.rd s STR_TLMSRC.NODE), 3#8]

/-- An ASSIGNED strand begins to take part in its point's start (R116). -/
def Dev.strandStart (d : Dev) (s : Nat) : Dev :=
  ((d.setStr s 2).modStrand s fun x => { x with stopped := false, low := 0, ramp := 0 }).armStrand s

/-- A strand ASSIGNED to a RUNNING point begins its restart check (R120). -/
def Dev.restartBegin (d : Dev) (s : Nat) : Dev :=
  d.modStrand s fun x => { x with restartAt := some d.now, restartN := 0 }

/-- A strand becomes ASSIGNED (R70). It joins a start under way at its point (R116); at a point already RUNNING it takes
the restart check first (DESIGN CHOICE, log entry 302). -/
def Dev.strandJoins (d : Dev) (s p : Nat) : Dev :=
  let d := d.setAsg s 1 p
  let st := d.ptState p
  if d.rd s STR_STAT.STATE ≠ 1 then d
  else if 1 ≤ st && st ≤ 3 then d.strandStart s
  else if st = 4 then d.restartBegin s
  else d

/-- A close of a LINK entry is confirmed: its strand is ASSIGNED, or HAND_IN, once all its entries to the point are
CLOSED (R70, R73, R159). -/
def Dev.linkClosed (d : Dev) (e : Nat) : Dev :=
  let s := d.rd 0 (CTM_CONT_A.STRAND e)
  let p := d.rd 0 (CTM_CONT_A.POINT e)
  if !(d.linkTo s p).all fun x => d.ctmState x = 2 then d
  else
    match d.hoOf s with
    | some h =>
      if d.rd 0 (ALC_HANDSTAT.STATE h) = 4 && d.rd 0 (ALC_HANDSTAT.TO h) = p then
        let d := (d.setAsg s 3 p).wr 0 (ALC_HANDSTAT.STATE h) 5
        let st := d.ptState p
        let d := d.setStr s (if st = 4 then 3 else if 1 ≤ st && st ≤ 3 then 2 else 1)
        d.modStrand s fun x => { x with stopped := !(1 ≤ st && st ≤ 4), ramp := 5, rampAt := d.now }
      else d
    | none => if d.asg s = 4 && d.asgPt s = p then d.strandJoins s p else d

/-- A close of an OUTPUT entry is confirmed: with every pole CLOSED in CLOSING the session is CHARGING and its start
marker goes to the L-die (R203, R211). -/
def Dev.outputClosed (d : Dev) (p : Nat) : Dev :=
  if !(d.ptState p = 2 && (d.outEntries p).all fun x => d.ctmState x = 2) then d
  else
    match d.liveSes p with
    | some m =>
      if d.sesState m = 3 then
        let d := (d.setSes m 4).modSes m fun x => { x with charged := true }
        let d := d.raise 0 Ev.SES.CHARGING
        d.request OK.MARK_START [BitVec.ofNat 8 m, BitVec.ofNat 8 (d.rd 0 (SES_STAT.GEN m)), BitVec.ofNat 8 p]
      else d
    | none => d

/-- An open of a LINK entry is confirmed: a strand under release may be FREE; in handover Opening the strand reaches
Pre-bias (R73). -/
def Dev.linkOpened (d : Dev) (e : Nat) : Dev :=
  let s := d.rd 0 (CTM_CONT_A.STRAND e)
  let p := d.asgPt s
  match d.hoOf s with
  | some h =>
    if d.rd 0 (ALC_HANDSTAT.STATE h) = 2
        && (d.linkTo s (d.rd 0 (ALC_HANDSTAT.FROM h))).all fun x => d.ctmState x = 0 then
      (((d.wr 0 (ALC_HANDSTAT.STATE h) 3).setStr s 2).modStrand s fun x => { x with preOk := none, low := 0 }).armStrand s
    else d
  | none => (d.freeCheck s).endedCheck p

/-- An open of an OUTPUT entry is confirmed: OPENING may end, and a marker still owed may go (R159, R211). -/
def Dev.outputOpened (d : Dev) (e : Nat) : Dev :=
  let p := d.rd 0 (CTM_CONT_A.POINT e)
  (d.opened p).endMark p

/-- CONTACTOR_CONFIRM (R157, R158): the command in force is confirmed and its operation's result determined; an entry
in FAIL_OPEN that reads open returns to OPEN, and one in LOST that reads open under a coil command of 0. Nothing changes
while the input does not confirm. -/
def Dev.ctmConfirm (d : Dev) (e : Nat) : Dev :=
  match d.acked e with
  | some (o, a) =>
    let close := o.kind = OK.CONT_CLOSE
    if !(d.auxConfirms e close && d.now ≤ a + d.confirmLimit e close) then d
    else if close then
      let d := (((d.setCtm e 2).wr 0 (CTM_STAT.AUX e) 1).inc 0 CTM_CLOSES.COUNT).modEntry e fun x => { x with ackAt := none }
      let d := d.opFinish o.slot 0
      if d.rd 0 (CTM_CONT_A.ROLE e) = 0 then d.outputClosed (d.rd 0 (CTM_CONT_A.POINT e)) else d.linkClosed e
    else
      let waits := (d.entry e).closeWaits
      let d := (((d.setCtm e 0).wr 0 (CTM_STAT.AUX e) 0).inc 0 CTM_OPENS.COUNT).modEntry e fun x =>
        { x with ackAt := none, closeWaits := false }
      let d := d.opFinish o.slot 0
      let d := if waits then d.request OK.CONT_CLOSE (leBytes 1 e) else d
      if d.rd 0 (CTM_CONT_A.ROLE e) = 0 then d.outputOpened e else d.linkOpened e
  | none =>
    let st := d.ctmState e
    let x := d.entry e
    if (st = 5 || (st = 6 && !d.on 0 (CTM_STAT.CMD e))) && !x.raw && d.rd 0 CTM_CFG.AUXDEB ≤ x.run && !d.on 0 (CTM_STAT.STALE e) then
      let d := (d.setCtm e 0).wr 0 (CTM_STAT.AUX e) 0
      if d.rd 0 (CTM_CONT_A.ROLE e) = 0 then d.outputOpened e else d.linkOpened e
    else d

/-- CONTACTOR_CONFIRM_TIMEOUT (R157, Table CTM-2). -/
def Dev.ctmTimeout (d : Dev) (e : Nat) : Dev :=
  match d.acked e with
  | some (o, a) =>
    let close := o.kind = OK.CONT_CLOSE
    if d.now < a + d.confirmLimit e close then d
    else
      let d := d.opFinish o.slot 5
      if close then d.failClose e else d.failOpen e
  | none => d

/-- AUX_CONTACT_CHANGE (R158): a contact that reads open while CLOSED is SAFE_OPEN under a trip on its pair, else LOST. -/
def Dev.auxChange (d : Dev) (e : Nat) : Dev :=
  let x := d.entry e
  if !(d.ctmState e = 2 && !x.raw && d.rd 0 CTM_CFG.AUXDEB ≤ x.run && !d.on 0 (CTM_STAT.STALE e)
      && x.ackAt.isNone) then d
  else
    let p := d.rd 0 (CTM_CONT_A.POINT e)
    let d := d.wr 0 (CTM_STAT.AUX e) 0
    match d.pairOf p with
    | some q =>
      if !d.pairOn q then
        let d := (d.setCtm e 7).raise 0 Ev.CTM.SAFE_OPEN
        let ps := (List.range 32).filter fun i => d.pairOf i = some q
        let d := ps.foldl (fun d i => d.openAll (d.outEntries i)) d
        ps.foldl Dev.opened d
      else if d.rd 0 (CTM_CONT_A.ROLE e) = 0 then ((d.setCtm e 6).raise 0 Ev.CTM.CONT_LOST).pointFault p 8
      else ((d.setCtm e 6).raise 0 Ev.CTM.CONT_LOST).strandFault (d.rd 0 (CTM_CONT_A.STRAND e)) 0x60
    | none =>
      let d := (d.setCtm e 6).raise 0 Ev.CTM.CONT_LOST
      if d.rd 0 (CTM_CONT_A.ROLE e) = 0 then d.pointFault p 8 else d.strandFault (d.rd 0 (CTM_CONT_A.STRAND e)) 0x60

/-- An auxiliary contact becomes stale (R158, Table CTM-2). -/
def Dev.auxStale (d : Dev) (e : Nat) : Dev :=
  let p := d.rd 0 (CTM_CONT_A.POINT e)
  let s := d.rd 0 (CTM_CONT_A.STRAND e)
  let d := (d.wrB 0 (CTM_STAT.STALE e) true).raise 0 Ev.CTM.AUX_STALE
  if d.ctmState e ≠ 2 then d
  else if d.rd 0 (CTM_CONT_A.ROLE e) = 0 then (if d.energised p then d.pointFault p 0xB else d)
  else if d.energised p || d.strRunning s then d.strandFault s 0x60
  else d

/-- An update of an auxiliary input (R157, R158): consecutive readings are counted, and those since the IO_ACK; AUXDEB of
them set CTM_STATn.AUX. -/
def Dev.auxUpdate (d : Dev) (e : Nat) (v : Int) : Dev :=
  let closed := (v ≠ 0) != d.on 0 (CTM_CONT_A.AUXINV e)
  let d := d.wrB 0 (CTM_STAT.STALE e) false
  let y := d.entry e
  let d := if d.rd 0 CTM_CFG.AUXDEB ≤ (if y.raw = closed then y.run + 1 else 1) then d.wrB 0 (CTM_STAT.AUX e) closed else d
  d.modEntry e fun x =>
    { x with
      raw := closed
      run := min 255 (if x.raw = closed then x.run + 1 else 1)
      ackRun := min 255 (if x.ackAt.isNone then 0 else if x.raw = closed then x.ackRun + 1 else 1) }

/-- The enabled entries whose auxiliary input is a channel of a node. -/
def Dev.auxEntries (d : Dev) (k pos ch : Nat) : List Nat :=
  (List.range 64).filter fun e =>
    d.on 0 (CTM_CONT_A.EN e) && d.rd 0 (CTM_CONT_A.PORT e) = k && d.rd 0 (CTM_CONT_A.NODE e) = pos
      && d.rd 0 (CTM_CONT_B.AUX e) = ch

/-! ### Discharge switch (R122) -/

/-- The action of DIS_CLOSE and DIS_OPEN: the output named in OUT_DISSW. -/
def Dev.disSwitch (d : Dev) (slot p : Nat) (v : Int) : Dev :=
  let d := d.setOp slot fun o => { o with phase := .acting, time := d.now }
  let (sent, d) := d.ioRequest (d.rd p OUT_DISSW.PORT) (d.rd p OUT_DISSW.NODE) 0 (d.rd p OUT_DISSW.CH) v (.op slot)
  if sent then d else d.opFinish slot (d.ioStatus (d.rd p OUT_DISSW.PORT))

/-- Run the action of an operation that has been issued into a slot with the kind; nothing else. -/
def Dev.act (d : Dev) (slot kind : Nat) (f : Op → Dev → Dev) : Dev :=
  match d.opAt slot with
  | some o => if o.kind = kind && o.phase = .issued then f o d else d
  | none => d

/-! ### Insulation (R161) -/

/-- Whether RISO lies below a threshold of so many Ω per volt of VMAX, which OUT_VMAX holds in mV. -/
def Dev.isoBelow (d : Dev) (p opv : Nat) : Bool := 1000 * d.ptChan0 p 5 < (opv * d.rd p OUT_VMAX.MV : Nat)

/-- Whether RISO is current and the monitoring device measures. -/
def Dev.isoCurrent (d : Dev) (p : Nat) : Bool :=
  (match d.ptChan p 5 with | some _ => true | none => false) && d.ptChan p 6 = some 0

/-- Whether RISO itself is current. -/
def Dev.risoCurrent (d : Dev) (p : Nat) : Bool := (d.ptChan p 5).isSome

/-- Follow RISO, its thresholds and their timers (R161): run at each update of the point's channels, when they become
stale, at commits and at each row. A RISO that is not current lies below no threshold. -/
def Dev.isoWatch (d : Dev) (p : Nat) : Dev :=
  let r := d.ptChan0 p 5
  let live := 1 ≤ d.ptState p && d.ptState p ≤ 8
  let cur := d.isoCurrent p
  let seen := (d.inRec (d.rd p OUT_IOSRC.PORT) (d.rd p OUT_IOSRC.NODE) (d.rd p OUT_IOSRC.CHBASE + 5)).seen
  let d := if seen then d.wr p OUT_RISO.OHM (ofSigned 32 r) else d
  let low := d.risoCurrent p && d.isoBelow p (d.rd p OUT_ISOCFG.FAULT_OPV)
  let warn := live && d.risoCurrent p && d.isoBelow p (d.rd p OUT_ISOCFG.WARN_OPV)
  let d := d.wrB p OUT_ISOSTAT.STALE (!cur)
  let d := d.wrB p OUT_ISOSTAT.FAULT low
  let d := (d.wrB p OUT_ISOSTAT.WARN warn).level p Ev.OUT.ISO_WARN warn
  d.modPoint p fun x =>
    { x with
      isoAt := if live && low then (if x.isoAt.isNone then some d.now else x.isoAt) else none
      isoLostAt := if live && !cur then (if x.isoLostAt.isNone then some d.now else x.isoLostAt) else none }

/-- A timer of OUT_ISOTIME.MS has run out. -/
def Dev.isoDue (d : Dev) (p : Nat) (t : Option Nat) : Bool :=
  match t with
  | some a => a + d.rd p OUT_ISOTIME.MS * ticksPerMs ≤ d.now
  | none => false

/-! ### The commands -/

/-- Effect of CONTACTOR_CONFIRM_TIMEOUT. -/
def contactorConfirmTimeoutEffect (e : Fin 64) (d : Dev) : Dev := d.ctmTimeout e

/-- CONTACTOR_CONFIRM_TIMEOUT (R157). -/
def execContactorConfirmTimeout (t : Nat) (e : Fin 64) (s : State) := onDev t (contactorConfirmTimeoutEffect e) s

/-- Effect of AUX_CONTACT_CHANGE. -/
def auxContactChangeEffect (e : Fin 64) (d : Dev) : Dev := d.auxChange e

/-- AUX_CONTACT_CHANGE (R158). -/
def execAuxContactChange (t : Nat) (e : Fin 64) (s : State) := onDev t (auxContactChangeEffect e) s

/-- Effect of ISO_FAULT: RISO below the fault threshold for OUT_ISOTIME.MS (R161). -/
def isoFaultEffect (q : Fin 32) (d : Dev) : Dev :=
  let d := d.isoWatch q
  if d.isoDue q (d.point q).isoAt then (d.modPoint q fun x => { x with isoAt := none }).pointFault q 9 else d

/-- ISO_FAULT (R161). -/
def execIsoFault (t : Nat) (q : Fin 32) (s : State) := onDev t (isoFaultEffect q) s

/-- Effect of ISO_LOST: RISO stale, or IMDSTATE not 0, for OUT_ISOTIME.MS (R161). -/
def isoLostEffect (q : Fin 32) (d : Dev) : Dev :=
  let d := d.isoWatch q
  if d.isoDue q (d.point q).isoLostAt then (d.modPoint q fun x => { x with isoLostAt := none }).pointFault q 0xA else d

/-- ISO_LOST (R161). -/
def execIsoLost (t : Nat) (q : Fin 32) (s : State) := onDev t (isoLostEffect q) s

/-- Effect of CONT_CLOSE on the operation in a slot. -/
def contCloseEffect (slot : Fin 384) (d : Dev) : Dev := d.act slot OK.CONT_CLOSE fun o d => d.contClose slot (o.arg 8 1)

/-- CONT_CLOSE (R157). -/
def execContClose (t : Nat) (slot : Fin 384) (s : State) := onDev t (contCloseEffect slot) s

/-- Effect of CONT_OPEN on the operation in a slot. -/
def contOpenEffect (slot : Fin 384) (d : Dev) : Dev := d.act slot OK.CONT_OPEN fun o d => d.contOpen slot (o.arg 8 1)

/-- CONT_OPEN (R157). -/
def execContOpen (t : Nat) (slot : Fin 384) (s : State) := onDev t (contOpenEffect slot) s

/-- Effect of DIS_CLOSE on the operation in a slot. -/
def disCloseEffect (slot : Fin 384) (d : Dev) : Dev := d.act slot OK.DIS_CLOSE fun o d => d.disSwitch slot (o.arg 8 1) 1

/-- DIS_CLOSE (R122). -/
def execDisClose (t : Nat) (slot : Fin 384) (s : State) := onDev t (disCloseEffect slot) s

/-- Effect of DIS_OPEN on the operation in a slot. -/
def disOpenEffect (slot : Fin 384) (d : Dev) : Dev := d.act slot OK.DIS_OPEN fun o d => d.disSwitch slot (o.arg 8 1) 0

/-- DIS_OPEN (R122). -/
def execDisOpen (t : Nat) (slot : Fin 384) (s : State) := onDev t (disOpenEffect slot) s

end Sys2Proof.Machine
end

