-- ==== Sys2Proof/Machine/Strand.lean ====
section
/-!
DEFINITION. The closed-loop engine: the PID law (R88, R89), shares (R94), the outer loop (R87, R92, R95) with the point
transitions it carries (R116 to R123), the strand update (R87, R106 to R115), missed samples (R97), and the commands
of a strand.
-/

namespace Sys2Proof.Machine

/-! ### The law of R88 -/

/-- norm(x, k) of R87: x × 2^(28 − k), saturated to Q4.28; a right shift beyond 28, rounded (Table CLE-2). -/
def normQ (x : Int) (k : Nat) : Int := satS 32 (if k ≤ 28 then x * ((2 ^ (28 - k) : Nat) : Int) else rdiv x (2 ^ (k - 28)))

/-- A product of two Q4.28 values, rounded to Q12.28 in 40 bits (R90). -/
def mulQ (a b : Int) : Int := satS 40 (rdiv (a * b) (2 ^ 28))

/-- The coefficients and limits of a loop. -/
structure PidCfg where
  kp : Int
  ki : Int
  kda : Int
  kdb : Int
  es : Nat
  lo : Int
  hi : Int
  deriving DecidableEq, Repr

/-- pid(L, e, y) of R88: the output and the loop's next state; `onlyDown` is the rule of R89 for the outer loop that is
not selected. The integrator is never outside its limits, which a commit may narrow while it stands still (R89). -/
def pidRun (c : PidCfg) (x : Pid) (e y : Int) (onlyDown : Bool) : Int × Pid :=
  let en := normQ e c.es
  let yn := normQ y c.es
  let p := mulQ c.kp en
  let di := mulQ c.ki en
  let free := !(0 < di && x.hi) && !(di < 0 && x.lo) && (!onlyDown || di < 0)
  let i := clampI c.lo c.hi (if free then x.i + di else x.i)
  let dd := satS 40 (rdiv (c.kda * x.d + c.kdb * (x.y - yn)) (2 ^ 28))
  (satS 40 (p + i + dd), { x with i := i, d := dd, y := yn })

/-! ### Shares (R94) -/

/-- A strand's ramp as numerator over denominator: 1 outside a ramp, 0 while a rise waits for its row. -/
def Dev.rampOf (d : Dev) (s : Nat) (t : Nat) : Nat × Nat :=
  let x := d.strand s
  let den := d.rd 0 ALC_HANDCFG.RAMP_MS * ticksPerMs
  let el := min den (t - x.rampAt)
  match x.ramp with
  | 1 => (den - el, den)
  | 2 => (el, den)
  | 3 | 5 => (0, den)
  | _ => (den, den)

/-- share(s) in Q4.28 at a time (R94): capability over the group's running strands, ramping strands by their ramp, the
others scaled so that the shares sum to 1.0. Where every capability term is 0 the strands share equally (DESIGN CHOICE, log
entry 303). -/
def Dev.shareOf (d : Dev) (s p t : Nat) : Int :=
  let g := d.group p
  if g = [s] then 0x10000000
  else
    let cap (x : Nat) : Int := let c := (d.strand x).cap; if c ≤ 0 then 0 else c
    let allZero := g.all fun x => cap x = 0
    let w (x : Nat) : Int := if allZero then 1 else cap x
    let total := (g.map w).sum
    let ramping (x : Nat) : Bool := let f := d.rampOf x t; f.1 ≠ f.2
    let ramped (x : Nat) : Int := let f := d.rampOf x t; rdiv (w x * f.1 * 0x10000000) (total.toNat * f.2)
    if ramping s then ramped s
    else
      let taken := ((g.filter ramping).map ramped).sum
      let rest := ((g.filter fun x => !ramping x).map w).sum
      rdiv (w s * (0x10000000 - taken)) rest.toNat

/-! ### The outer loop (R87, R92) -/

/-- I_point: the most recent I_strand of every running strand of the group (R85). -/
def Dev.iPoint (d : Dev) (p : Nat) : Int := ((d.group p).map fun s => d.rdI s STR_IMEAS.MA).sum

/-- The session target voltage limited to the point's rating (R85). -/
def Dev.vTarget (d : Dev) (p : Nat) : Int :=
  let vmax : Int := d.rd p OUT_VMAX.MV
  match d.liveSes p with
  | some m => min ((d.sesRec m).avtgt : Int) vmax
  | none => vmax

/-- V_veh of a point (R152). -/
def Dev.vVeh (d : Dev) (p : Nat) : Int := d.ptChan0 p 0

/-- V_ref of the outer loop in the point's state (R85, R116, R117). -/
def Dev.vRef (d : Dev) (p : Nat) : Int :=
  match d.ptState p with
  | 1 => d.vVeh p
  | 2 => (d.point p).vPre
  | _ => d.vTarget p

/-- The capability of the running strands of a point's group, mA (R92). -/
def Dev.capSum (d : Dev) (p : Nat) : Int := ((d.group p).map fun s => (d.rd s STR_IMAX.MA : Int)).sum

/-- The point's ramp from r0 towards 0 at OUT_BOCFG.RAMP, so far from an instant (R28, R121), rounded (R10). -/
def Dev.fallFrom (d : Dev) (p at0 t : Nat) : Int :=
  max 0 (rdiv ((d.point p).r0 * (ticksPerMs : Int) - ((d.rd p OUT_BOCFG.RAMP * 1000 * (t - at0) : Nat) : Int)) ticksPerMs)

/-- The ramp to zero within 2 ms of a loss of clock (R386). -/
def Dev.quickFall (d : Dev) (p l t : Nat) : Int :=
  max 0 (rdiv ((d.point p).r0 * (((2 * ticksPerMs : Nat) : Int) - ((t - l : Nat) : Int))) (2 * ticksPerMs))

/-- A reference under ALC_STALL: no higher than the ramp of a point it acts on (R28). -/
def Dev.underStall (d : Dev) (p t : Nat) (v : Int) : Int :=
  if d.on 0 ALC_STAT.STALL && (d.point p).stalled then min v (d.fallFrom p d.alc.stallAt t) else v

/-- The target of R92 at a time, with the soft-start factor (R117), the ramp-down (R121), faster after a loss of
clock (R386), and the ramp under ALC_STALL (R28). -/
def Dev.target (d : Dev) (p t : Nat) : Int :=
  let x := d.point p
  let base := min x.setUse (d.capSum p)
  let st := d.ptState p
  if st = 5 then
    let f := min (d.fallFrom p x.since t) (d.capSum p)
    match x.lossAt with
    | some l => min f (d.quickFall p l t)
    | none => f
  else if st = 3 then
    let ramp := d.rd p OUT_SSCFG.RAMP_MS * ticksPerMs
    d.underStall p t (rdiv (base * ((min ramp (t - x.ssAt) : Nat) : Int)) ramp)
  else d.underStall p t base

/-- The coefficients of the current loop. -/
def Dev.ciCfg (d : Dev) (p : Nat) : PidCfg :=
  let b := d.rd p OUT_LOOPCFG.BANKSEL
  { kp := d.rdI p (OUT_CI_KP.K b), ki := d.rdI p (OUT_CI_KI.K b), kda := d.rdI p (OUT_CI_KDA.K b),
    kdb := d.rdI p (OUT_CI_KDB.K b), es := d.rd p (OUT_ESHIFT.CI_ESHIFT b), lo := d.rdI p OUT_OLUMIN.U,
    hi := d.rdI p OUT_OLUMAX.U }

/-- The coefficients of the voltage loop. -/
def Dev.cvCfg (d : Dev) (p : Nat) : PidCfg :=
  let b := d.rd p OUT_LOOPCFG.BANKSEL
  { kp := d.rdI p (OUT_CV_KP.K b), ki := d.rdI p (OUT_CV_KI.K b), kda := d.rdI p (OUT_CV_KDA.K b),
    kdb := d.rdI p (OUT_CV_KDB.K b), es := d.rd p (OUT_ESHIFT.CV_ESHIFT b), lo := d.rdI p OUT_OLUMIN.U,
    hi := d.rdI p OUT_OLUMAX.U }

/-- The reference r at an outer-loop sample (R92, R116, R122). -/
def Dev.nextR (d : Dev) (p t : Nat) : Int :=
  let x := d.point p
  let st := d.ptState p
  if st = 1 || st = 2 then d.underStall p t ((d.rd p OUT_PBCFG.IMAX_A : Int) * 1000)
  else if st = 7 && x.reverse && d.anyBidir p then -((d.rd p OUT_DISCFG.IMAX_A : Int) * 1000)
  else
    let tg := d.target p t
    if x.clampNow && tg < x.r then tg
    else x.r + clampI (-(10 * (d.rd p OUT_SLEW.DN : Int))) (10 * (d.rd p OUT_SLEW.UP : Int)) (tg - x.r)

/-- The outer-loop sample a strand takes at its own sample time: the latest at or before it (R85); before the first, what
the outer loop starts from. -/
def Dev.olFor (d : Dev) (p t : Nat) : OlSample :=
  ((d.point p).ols.find? fun o => o.time ≤ t).getD { time := t }

/-- The outer-loop samples still to be taken by a strand whose telemetry may lag by half the longest period (R97). -/
def keepOls (t : Nat) (xs : List OlSample) : List OlSample :=
  let new := xs.takeWhile fun o => t ≤ o.time + 128000
  new ++ (xs.drop new.length).take 1

/-- The sample period of a strand, in half ticks. -/
def Dev.samplePeriod2 (d : Dev) (s : Nat) : Nat :=
  if d.on s STR_CFG.CSAMP then d.rd s STR_CARRIER.PERIOD else 2 * d.rd s STR_CARRIER.PERIOD

/-- Whether the running strands of a group differ in sample period (R86). -/
def Dev.rateDiffers (d : Dev) (p : Nat) : Bool :=
  match d.group p with
  | [] => false
  | s :: rest => rest.any fun x => d.samplePeriod2 x ≠ d.samplePeriod2 s

/-- OL_RATE of the point, and the level event of the CLE page (R86, Table DOC-25). -/
def Dev.olRate (d : Dev) (p : Nat) : Dev :=
  let d := d.wrB p OUT_LOOPSTAT.OL_RATE (d.rateDiffers p)
  d.level 0 Ev.CLE.OL_RATE ((List.range 32).any fun q => d.on q OUT_LOOPSTAT.OL_RATE)

/-- One sample of the outer loop (R87): r, dr, u_ol, mode, and the row's sums (R95). Both loops are computed; the one that
is then not selected keeps a rise of its integrator only when di lowers its output (R89; DEDUCED, log entry 304). -/
def Dev.outerLoop (d : Dev) (p s t : Nat) (v : Int) : Dev :=
  let x := d.point p
  let i := d.iPoint p
  let r := d.nextR p t
  let dr := r - x.r
  let c (down : Bool) := pidRun (d.ciCfg p) x.ci (r - i) i down
  let w (down : Bool) := pidRun (d.cvCfg p) x.cv (d.vRef p - v) v down
  let sel := decide ((w false).1 < (c false).1)
  let u := if sel then (w false).1 else (c false).1
  let ci := (c sel).2
  let cv := (w (!sel)).2
  let hi := d.rdI p OUT_OLUMAX.U
  let lo := d.rdI p OUT_OLUMIN.U
  let uo := clampI lo hi u
  let mode := if u > hi || u < lo then 2 else if sel then 1 else 0
  let f (y : Pid) : Pid := { y with hi := decide (u > hi), lo := decide (u < lo) }
  let d := d.modPoint p fun x =>
    { x with
      ols := keepOls t ({ time := t, u := uo, r := r, dr := dr } :: x.ols)
      ci := f ci, cv := f cv, r := r, dr := dr, uol := uo, selCv := sel, clampNow := false
      vHist := ((t, v) :: x.vHist.filter fun e => t ≤ e.1 + 2 * ticksPerMs).take 1024
      rowN := x.rowN + 1, rowI := x.rowI + i, rowV := x.rowV + v, rowI2 := x.rowI2 + i * i
      rowModes := if x.rowModes.testBit mode then x.rowModes else x.rowModes + 2 ^ mode }
  let d := ((d.wrI p OUT_REF.MA r).wrI p OUT_IMEAS.MA i).wrI p OUT_VMEAS.MV v
  let d := (d.wr p OUT_LOOPSTAT.MODE mode).wr p OUT_LOOPSTAT.LEAD s
  let d := (d.wr p OUT_LOOPSTAT.BANK (d.rd p OUT_LOOPCFG.BANKSEL)).olRate p
  d.frcRecord 2 p { time := t, missed := false, flds :=
    [.num 4 r true, .num 4 i true, .num 4 v true, .num 4 uo true, .num 4 (d.rdI 0 (ALC_PTSET.MA p)) true, .mask 1 mode,
     .mask 1 (d.ptState p), .mask 2 0, .mask 4 0] }

/-! ### Point transitions at an outer-loop sample -/

/-- SOFTSTART begins at the first outer-loop sample with every OUTPUT pole confirmed closed (R117). -/
def Dev.ssBegin (d : Dev) (p t : Nat) : Dev :=
  if d.ptState p = 2 && !(d.outEntries p).isEmpty && (d.outEntries p).all fun e => d.ctmState e = 2 then
    let d := (d.setPt p 3).modPoint p fun x =>
      { x with ssAt := t, r := 0, dr := 0, shortAt := none, ci := { x.ci with i := 0, d := 0 },
               cv := { x.cv with i := 0, d := 0 } }
    (d.group p).foldl (fun d s => d.setStr s 2) d
  else d

/-- Condition C of R118. -/
def Dev.shortCond (d : Dev) (p t : Nat) (v : Int) : Bool :=
  let x := d.point p
  let mode := d.rd p OUT_LOOPSTAT.MODE
  let before := x.vHist.find? fun e => e.1 + ticksPerMs ≤ t
  (mode = 0 || mode = 2) && (10 * v < x.vPre || (match before with | some e => decide (v < e.2) | none => false))

/-- The verification of discharge (R123), and the end of a reverse discharge (R122). -/
def Dev.disSample (d : Dev) (p t : Nat) (v : Int) : Dev :=
  let d := d.reverseEnds p
  let x := d.point p
  let vend : Int := d.rd p OUT_DISCFG.VEND_V * 1000
  let m := max v (d.vVeh p)
  let ms := rdiv (t - x.disAt : Nat) ticksPerMs
  let d := if !x.verified && m < vend then
      let d := (d.wrU p OUT_DISTIME.MS ms).wrU p OUT_DISTIME.V (rdiv m 1000)
      let d := d.modPoint p fun x => { x with verified := true }
      if x.disAt + d.rd p OUT_DISCFG.TARGET_MS * ticksPerMs < t then d.raise p Ev.OUT.DIS_SLOW else d
    else d
  let done := (d.point p).verified
  let low := decide (v < vend - 10000)
  let d := if x.reverse && low then (d.stopGroup p).modPoint p fun x => { x with reverse := false } else d
  if done && !(x.reverse && !low) then d.enterOpening p else d

/-- What an outer-loop sample settles for the point's state (R116, R118, R121, R123). -/
def Dev.outerSettle (d : Dev) (p t : Nat) (v : Int) : Dev :=
  match d.ptState p with
  | 1 =>
    let near := (v - d.vVeh p).natAbs ≤ d.rd p OUT_PBCFG.TOL_V * 1000
    d.modPoint p fun x => { x with okAt := if near then (if x.okAt.isNone then some t else x.okAt) else none }
  | 3 =>
    let c := d.shortCond p t v
    d.modPoint p fun x => { x with shortAt := if c then (if x.shortAt.isNone then some t else x.shortAt) else none }
  | 5 =>
    let cut := match (d.point p).lossAt with | some l => l + 2 * ticksPerMs ≤ t | none => false
    if cut || ((d.point p).r = 0 && (d.iPoint p).natAbs ≤ d.rd p OUT_BOEND.IEND_A * 1000) then d.enterVehWait p else d
  | 7 => d.disSample p t v
  | _ => d

/-! ### Edges (R106, R107) and stitch lists (R132) -/

/-- Whether a phase of a strand is active. -/
def Dev.phaseOn (d : Dev) (s ph : Nat) : Bool := ph < d.rd s STR_CFG.NPH && !d.bit s STR_MPSTAT.SHED ph

/-- The active phases in slot order. -/
def Dev.actOrder (d : Dev) (s : Nat) : List Nat :=
  ((List.range (d.rd s STR_CFG.NPH)).map fun k => d.rd s (STR_ORDER.SLOT k)).filter fun ph => d.phaseOn s ph

/-- The last edges sent for a phase. -/
def Dev.edgeOf (d : Dev) (s ph : Nat) : Option Edge := (d.strand s).edges.get (fun _ => none) ph

/-- The edges of one phase for the period that starts at `start` (R106); a list B of centre sampling keeps the rising
edge of list A (R134). -/
def Dev.edgeFor (d : Dev) (s ph k m rot : Nat) (start onTime : Int) (listB : Bool) : Edge :=
  let per : Int := d.rd s STR_CARRIER.PERIOD
  let minOff : Int := (d.rd s STR_MINPULSE.MINOFF : Int) * 64
  let minOn : Int := (d.rd s STR_MINPULSE.MINON : Int) * 64
  let _ := rot
  let off : Int := (k : Int) * per * 64 / (m : Int)
  let on := min (onTime + d.rdI s (STR_TRIM.TRIM ph)) (per * 64 - minOff)
  let rise0 := start + off
  let fall := rise0 + on
  let prev := d.edgeOf s ph
  let rise := match prev with
    | some e => if listB then e.rise else if rise0 < e.fall + minOff then e.fall + minOff else rise0
    | none => rise0
  { rise := rise, fall := fall, pulse := decide (minOn ≤ fall - rise) }

/-- The edges of the next period, by phase (R106). -/
def Dev.edgesFor (d : Dev) (s rot : Nat) (start onTime : Int) (listB : Bool) : List (Nat × Edge) :=
  let act := d.actOrder s
  let m := act.length
  (List.range m).map fun k =>
    let ph := act.getD ((k + rot) % m) 0
    (ph, d.edgeFor s ph k m rot start onTime listB)

/-- The value of an edge in a stitch list: low 32 bits of the tick count and the fraction, 38 bits (R132). -/
def edge38 (v : Int) : Nat := (v % (2 ^ 38 : Nat)).toNat

/-- The STITCH frame body (Table SKN-4). -/
def stitchBody (pos : Nat) (listB : Bool) (pstart : Nat) (es : List (Nat × Edge)) : List Byte :=
  let live := es.filter fun e => e.2.pulse
  let mask := (live.map fun e => 2 ^ e.1).sum
  let bits := (live.map fun e => edge38 e.2.rise * 2 ^ (38 * (2 * e.1)) + edge38 e.2.fall * 2 ^ (38 * (2 * e.1 + 1))).sum
  [0x10#8, BitVec.ofNat 8 pos, if listB then 1#8 else 0#8, BitVec.ofNat 8 mask] ++ leBytes 4 pstart ++ leBytes 76 bits

/-- Send a strand's list for the next period: the edges, or STOP, once per period (R132, R135, R146, R147). A list B goes
out only where a list A of edges has gone before it; without one its STOP stands. -/
def Dev.sendEdges (d : Dev) (s : Nat) (listB : Bool) (es : List (Nat × Edge)) : Dev :=
  let k := d.rd s STR_TLMSRC.PORT
  let pos := d.rd s STR_TLMSRC.NODE
  let x := d.strand s
  let pstart := x.boundary + d.rd s STR_CARRIER.PERIOD
  if listB && x.edges.isEmpty then d
  else
    let live := !x.stopped && x.armed
    let d := d.modStrand s fun x =>
      { x with edgesPrev := if listB then x.edgesPrev else x.edges
               edges := if live then es.foldl (fun m e => AMap.set (fun _ => none) m e.1 (some e.2)) [] else [] }
    if !d.nodeUp k pos then d
    else if live then (d.sendDown k (stitchBody pos listB pstart es)).inc k SKN_STX.COUNT
    else d.sendStop k pos pstart

/-! ### Shedding (R83, R112 to R114) -/

/-- I_cmd: share × r of the point, mA (R112). -/
def Dev.iCmd (d : Dev) (s p t : Nat) : Int := rdiv (d.shareOf s p t * (d.olFor p t).r) (2 ^ 28)

/-- The current by which the shed conditions are judged: I_cmd; for a shed that is pending when a new allocation or a bank
swap takes effect at this sample boundary, the share of the new setpoint (R84). -/
def Dev.shedAmps (d : Dev) (s p t : Nat) (peak : Bool) : Int :=
  let x := d.strand s
  if x.newSet && !peak && x.holdAt.isSome then rdiv (d.shareOf s p t * d.rdI 0 (ALC_PTSET.MA p)) (2 ^ 28)
  else d.iCmd s p t

/-- The conditions for a shed to be pending at a commanded current (R112). -/
def Dev.shedCond (d : Dev) (s : Nat) (amps : Int) : Bool :=
  let k := d.rd s STR_STAT.NACT
  d.on s STR_SHEDCFG.EN && d.rd s STR_STAT.STATE = 3 && d.rd s STR_SHEDCFG.NMIN < k && 2 ≤ k
    && !d.on s STR_MPSTAT.FBK && !d.on s STR_MPSTAT.LOCKOUT
    && amps ≤ (d.rd s (STR_SHED.TH k) * 100 * (k - 1) : Nat)

/-- The highest-numbered active phase. -/
def Dev.topPhase (d : Dev) (s : Nat) : Nat := (((List.range 8).filter fun ph => d.phaseOn s ph).getLast?).getD 0

/-- The commit of a prepared shed (R113). -/
def Dev.shedCommit (d : Dev) (s : Nat) : Dev :=
  let ph := d.topPhase s
  let d := (d.wrBit s STR_MPSTAT.SHED ph true).wr s STR_STAT.NACT (d.rd s STR_STAT.NACT - 1)
  let d := d.wr s (STR_TRIM.TRIM ph) 0
  let d := d.modStrand s fun x =>
    { x with ph := AMap.set (fun _ => {}) x.ph ph {}, holdAt := none, plan := none, expiring := none }
  let d := (d.specStr s 5 0).inc s STR_SPEC_HIT.COUNT
  ((d.inc s STR_SHEDCNT.COUNT).raise s Ev.STR.SHED).noteRow (.shed s)

/-- Shed phases return (R114, R115): each starts with its loop state and trim at 0. -/
def Dev.phaseReturn (d : Dev) (s ph : Nat) : Dev :=
  let d := (d.wrBit s STR_MPSTAT.SHED ph false).wr s (STR_TRIM.TRIM ph) 0
  let d := d.wr s STR_STAT.NACT (d.rd s STR_STAT.NACT + 1)
  (d.modStrand s fun x => { x with ph := AMap.set (fun _ => {}) x.ph ph {}, holdAt := none }).noteRow (.shedAbort s)

/-- The shed phases, lowest first. -/
def Dev.shedPhases (d : Dev) (s : Nat) : List Nat :=
  (List.range (d.rd s STR_CFG.NPH)).filter fun ph => d.bit s STR_MPSTAT.SHED ph

/-! ### The strand update (R87) -/

/-- The telemetry of one sample (Table SKN-5). -/
structure Tlm where
  valid : Nat
  peak : Bool
  iph : List Int
  vbus : Int
  vout : Int
  flags : Nat
  tnode : Int
  stime : Nat
  deriving DecidableEq, Repr

/-- The coefficients of the sharing loop. -/
def Dev.shCfg (d : Dev) (s : Nat) : PidCfg :=
  let b := d.rd s STR_LOOPCFG.BANKSEL
  let lim : Int := (d.rd s STR_TRIMLIM.SHARE_TRIM : Int) * 4096
  { kp := d.rdI s (STR_SH_KP.K b), ki := d.rdI s (STR_SH_KI.K b), kda := d.rdI s (STR_SH_KDA.K b),
    kdb := d.rdI s (STR_SH_KDB.K b), es := d.rd s (STR_ESHIFT.SH_ESHIFT b), lo := -lim, hi := lim }

/-- The coefficients of the phase loops; their limit is PHASE_TRIM as duty (R88). -/
def Dev.phCfg (d : Dev) (s : Nat) : PidCfg :=
  let b := d.rd s STR_LOOPCFG.BANKSEL
  let lim := rdiv ((d.rd s STR_TRIMLIM.PHASE_TRIM : Int) * 0x10000000) (d.rd s STR_CARRIER.PERIOD * 64)
  { kp := d.rdI s (STR_PH_KP.K b), ki := d.rdI s (STR_PH_KI.K b), kda := d.rdI s (STR_PH_KDA.K b),
    kdb := d.rdI s (STR_PH_KDB.K b), es := d.rd s (STR_ESHIFT.PH_ESHIFT b), lo := -lim, hi := lim }

/-- Duty in Q4.28 to 1/64 ticks (R87). -/
def Dev.toTicks (d : Dev) (s : Nat) (q : Int) : Int := rdiv (q * (d.rd s STR_CARRIER.PERIOD * 64 : Nat)) (2 ^ 28)

/-- The active phases with a valid sample. -/
def Dev.validPhases (d : Dev) (s : Nat) (m : Tlm) : List Nat :=
  (List.range 8).filter fun ph => d.phaseOn s ph && m.valid.testBit ph

/-- The active phases. -/
def Dev.actPhases (d : Dev) (s : Nat) : List Nat := (List.range 8).filter fun ph => d.phaseOn s ph

/-- I_strand of a sample, mA (R85, R108). -/
def Dev.iStrand (d : Dev) (s : Nat) (m : Tlm) : Int :=
  let act := d.actPhases s
  let ok := d.validPhases s m
  let sum := (ok.map fun ph => 10 * m.iph.getD ph 0).sum
  if ok.length = act.length then sum else rdiv (sum * act.length) ok.length

/-- One phase loop on the current last sampled: its trim in 1/64 tick (R87). -/
def Dev.phaseLoop (d : Dev) (s : Nat) (istr : Int) (nact ph : Nat) : Dev :=
  let x := d.strand s
  let i := 10 * d.rdI s (STR_IPH.I ph)
  let (u, st) := pidRun (d.phCfg s) (x.ph.get (fun _ => {}) ph) (istr.tdiv nact - i) i false
  let lim : Int := d.rd s STR_TRIMLIM.PHASE_TRIM
  let raw := d.toTicks s u
  let trim := clampI (-lim) lim raw
  let d := d.modStrand s fun x =>
    { x with ph := AMap.set (fun _ => {}) x.ph ph { st with hi := decide (lim < raw), lo := decide (raw < -lim) } }
  d.wrI s (STR_TRIM.TRIM ph) trim

/-- The number of consecutive samples at which a phase's trim stands at its limit, 1,001 once PH_IMBAL is raised for them
(R111). -/
def Dev.imbCount (d : Dev) (s : Nat) : Dev :=
  let lim : Int := d.rd s STR_TRIMLIM.PHASE_TRIM
  let next (c ph : Nat) : Nat :=
    if d.phaseOn s ph && (d.rdI s (STR_TRIM.TRIM ph)).natAbs = lim.natAbs then (if c = 1001 then c else min 1000 (c + 1)) else 0
  d.modStrand s fun x =>
    { x with imb := (List.range 8).foldl (fun a ph => AMap.set (fun _ => 0) a ph (next (x.imb.get (fun _ => 0) ph) ph)) x.imb }

/-- Prepare the shed of the top phase from this sample for the next (R83): the sample's duty, and the trims the phase loops
give from the states `ph0` they had before it, without the phase. -/
def Dev.shedPlan (d : Dev) (s : Nat) (m : Tlm) (istr : Int) (ph0 : AMap Pid) : Dev :=
  let ph := d.topPhase s
  let n := d.rd s STR_STAT.NACT
  let x := d.strand s
  let onTime := x.onTime
  let lim : Int := d.rd s STR_TRIMLIM.PHASE_TRIM
  let trims := (List.range 8).map fun q =>
    if q = ph || !d.phaseOn s q then (0 : Int)
    else
      let i := 10 * m.iph.getD q 0
      clampI (-lim) lim (d.toTicks s (pidRun (d.phCfg s) (ph0.get (fun _ => {}) q) (istr.tdiv (n - 1) - i) i false).1)
  let d := d.modStrand s fun x => { x with plan := some { sample := x.sample + 1, phase := ph, onTime := onTime, trims := trims } }
  let d := ((d.wr s STR_SPEC_TAG.PHASE ph).wr s STR_SPEC_TAG.NACT (n - 1)).wr s STR_SPEC_SAMPLE.SAMPLE (x.sample + 1)
  let d := d.wrU s STR_SPEC_DUTY.ONTIME onTime
  let d := trims.zipIdx.foldl (fun d e => d.wrI s (STR_SPEC_TRIM.TRIM e.2) e.1) d
  d.specStr s 2 0

/-- Follow the shed conditions at a sample (R83, R84, R112): hold, preparation, expiry at a sample boundary. -/
def Dev.shedFollow (d : Dev) (s p t : Nat) (m : Tlm) (istr : Int) (ph0 : AMap Pid) (ok : Bool) : Dev :=
  let x := d.strand s
  let hold := d.rd s STR_SHEDCFG.HOLD_US * ticksPerUs
  let cond := d.shedCond s (d.shedAmps s p t m.peak)
  let due (h : Nat) : Bool := h + hold ≤ x.boundary + d.rd s STR_CARRIER.PERIOD
  let why := if !ok then 2 else 3
  match x.holdAt, x.plan with
  | some _, some _ =>
    if m.peak then (if cond && ok then d else d.shedAbort s why)
    else d.modStrand s fun x => { x with expiring := some (if cond && ok then 0 else why) }
  | some h, none =>
    if !(cond && ok) then d.shedAbort s why else if due h then d.shedPlan s m istr ph0 else d
  | none, _ =>
    if cond && ok then
      let d := d.modStrand s fun x => { x with holdAt := some t }
      if due t then d.shedPlan s m istr ph0 else d
    else d

/-- A phase returns when the commanded per-phase current has risen (R114). -/
def Dev.returnOne (d : Dev) (s p t : Nat) : Dev :=
  let n := d.rd s STR_STAT.NACT
  match d.shedPhases s with
  | [] => d
  | ph :: _ =>
    if (((d.rd s (STR_SHED.TH (n + 1)) + d.rd s (STR_SHED.HYS (n + 1))) * 100 * n : Nat) : Int) ≤ d.iCmd s p t
    then (d.shedAbort s 3).phaseReturn s ph else d

/-- Detect a load step at a sample (R115) and answer it: phases return, lockout. -/
def Dev.loadStep (d : Dev) (s t : Nat) (istr : Int) : Dev :=
  let x := d.strand s
  let per := d.rd s STR_CARRIER.PERIOD / (if d.on s STR_CFG.CSAMP then 2 else 1)
  match x.lastI with
  | none => d
  | some last =>
    if ((d.rd s STR_STEP.TH * 1000 * per : Nat) : Int) < (istr.natAbs - last) * (ticksPerMs : Int) then
      let d := d.shedAbort s 1
      let back := d.shedPhases s
      let d := back.foldl (fun d ph => d.phaseReturn s ph) d
      let d := if back.isEmpty then d else d.raise s Ev.STR.PH_RETURN
      let d := (d.inc s STR_STEPCNT.COUNT).wr s STR_MPSTAT.LOCKOUT 1
      d.modStrand s fun x => { x with lockEnd := t + d.rd s STR_STEP.LOCK_MS * ticksPerMs }
    else d

/-- Enter fallback, or follow it (R109): frozen trims, rotation of the firing order. -/
def Dev.fallback (d : Dev) (s : Nat) (anyInvalid : Bool) : Dev :=
  let inFbk := d.on s STR_MPSTAT.FBK
  if anyInvalid then
    let d := d.modStrand s fun x => { x with good := 0 }
    let d := if inFbk then d else ((d.wr s STR_MPSTAT.FBK 1).shedAbort s 2).raise s Ev.STR.ROT_FALLBACK
    d
  else if inFbk then d.modStrand s fun x => { x with good := x.good + 1 }
  else d

/-- Whether the phase loops stand still at this sample: in fallback and not yet FBK_EXIT good samples (R109). -/
def Dev.frozen (d : Dev) (s : Nat) : Bool := d.on s STR_MPSTAT.FBK && (d.strand s).good < d.rd s STR_BALCFG.FBK_EXIT

/-- The duty of a strand from the loops at its sample time (R87); a current slope enters it once (R92); without u_ol and
sharing for the first update after a restart (R120). -/
def Dev.dutyOf (d : Dev) (s p t : Nat) (share : Int) : Int :=
  let b := d.rd s STR_LOOPCFG.BANKSEL
  let x := d.strand s
  let o := d.olFor p t
  let dr := if x.olUsed = some o.time then 0 else o.dr
  let ffv := mulQ (d.rdI s (STR_KFFV.K b)) x.quot
  let ffs := satS 40 (rdiv (d.rdI s (STR_KFFS.K b) * normQ dr (d.rd s (STR_ESHIFT.FFS_ESHIFT b)) * share) (2 ^ 56))
  if x.ffOnly then ffv + ffs else o.u + ffv + ffs + x.tsh

/-- The sharing loop (R87, R94). -/
def Dev.shareLoop (d : Dev) (s p : Nat) (share istr : Int) : Dev :=
  let x := d.strand s
  if d.group p = [s] || (x.ramp = 1 && share = 0) then d
  else
    let c := d.shCfg s
    let (u, st) := pidRun c x.sh (rdiv (share * d.iPoint p) (2 ^ 28) - istr) istr false
    d.modStrand s fun x => { x with sh := { st with hi := decide (c.hi < u), lo := decide (u < c.lo) }, tsh := clampI c.lo c.hi u }

/-- A strand's duty clamped to STR_DMIN and STR_DMAX (R87), and held in 0 to 1 (Table CLE-2). -/
def Dev.clampDuty (d : Dev) (s : Nat) (duty : Int) : Int :=
  clampI 0 0x10000000 (clampI (d.rdI s STR_DMIN.D) (d.rdI s STR_DMAX.D) duty)

/-- A group strand's duty that is clamped saturates the point's outer loops (R88). -/
def Dev.dutySat (d : Dev) (s p : Nat) (duty : Int) : Dev :=
  let up := decide (d.rdI s STR_DMAX.D < duty)
  let down := decide (duty < d.rdI s STR_DMIN.D)
  let f (y : Pid) : Pid := { y with hi := y.hi || up, lo := y.lo || down }
  if up || down then d.modPoint p fun x => { x with ci := f x.ci, cv := f x.cv } else d

/-- The on-time of the next period from the duty, with DUTY_SAT (R87, Table STR-5). -/
def Dev.setOnTime (d : Dev) (s : Nat) (duty : Int) : Dev :=
  let d := if d.rdI s STR_DMAX.D < duty || duty < d.rdI s STR_DMIN.D then d.raise s Ev.STR.DUTY_SAT else d
  let on := d.toTicks s (d.clampDuty s duty)
  (d.wrU s STR_DUTY.ONTIME on).modStrand s fun x => { x with onTime := on, ffOnly := false }

/-- Form and send the edges of the next period; in fallback the order has rotated one step (R106, R109), of which list B
repeats that of its list A (R134). -/
def Dev.emit (d : Dev) (s : Nat) (listB : Bool) : Dev :=
  let x := d.strand s
  let m := (d.actOrder s).length
  let fz := d.frozen s
  let rot := if listB then d.rd s STR_MPSTAT.ROT else if fz && m ≠ 0 then (d.rd s STR_MPSTAT.ROT + 1) % m else 0
  let d := if listB then d
    else if fz then (d.wr s STR_MPSTAT.ROT rot).inc s STR_FBKCNT.COUNT else d.wr s STR_MPSTAT.ROT 0
  let start : Int := ((x.boundary + d.rd s STR_CARRIER.PERIOD) * 64 : Nat)
  d.sendEdges s listB (d.edgesFor s rot start x.onTime listB)

/-- The phases a sample finds invalid, and how often in a row each has been (R108, R110). -/
def Dev.invalids (d : Dev) (s : Nat) (m : Tlm) : Dev :=
  let inv := ((d.actPhases s).filter fun ph => !m.valid.testBit ph)
  (d.wr s STR_MPSTAT.INV (inv.map fun ph => 2 ^ ph).sum).modStrand s fun x =>
    { x with
      inv := (List.range 8).foldl (fun a ph =>
        AMap.set (fun _ => 0) a ph (if inv.contains ph then min 256 (x.inv.get (fun _ => 0) ph + 1) else 0)) x.inv }

/-- The sample registers of a strand. -/
def Dev.measure (d : Dev) (s : Nat) (m : Tlm) (istr : Int) : Dev :=
  let d := (List.range 8).foldl (fun d ph => d.wrI s (STR_IPH.I ph) (if d.phaseOn s ph then m.iph.getD ph 0 else 0)) d
  ((d.wrI s STR_IMEAS.MA istr).wrI s STR_VBUS.MV m.vbus).modStrand s fun x => { x with vout := m.vout }

/-- The input-voltage quotient and the count of low samples; at the second in a row the edges of the next period are STOP
(R87, R93). A bus voltage of 0 or less that STR_VBUSMIN admits gives the quotient 0 (DESIGN CHOICE, log entry 305). -/
def Dev.quotient (d : Dev) (s : Nat) (vpt vbus : Int) : Dev :=
  if vbus < (d.rd s STR_VBUSMIN.MV : Int) then
    d.modStrand s fun x => { x with low := x.low + 1, stopped := x.stopped || decide (1 ≤ x.low) }
  else
    let q := if vbus ≤ 0 then 0 else clampI 0 0x20000000 (rdiv (vpt * 0x10000000) vbus.toNat)
    d.modStrand s fun x =>
      { x with low := if 2 ≤ x.low then x.low else 0, stopped := x.stopped || decide (2 ≤ x.low), quot := q }

/-- The duty and the phase loops of a sample act on the strand (R87): the loops over the phases that were sampled, none of
them with an invalid phase or in fallback (R108, R109). -/
def Dev.applySample (d : Dev) (s p : Nat) (duty istr : Int) (act : List Nat) : Dev :=
  let d := (d.dutySat s p duty).setOnTime s duty
  let d := if d.on s STR_MPSTAT.INV || d.frozen s then d else act.foldl (fun d ph => d.phaseLoop s istr act.length ph) d
  d.modStrand s fun x => { x with duty := none }

/-- A running strand's update with a usable sample (R87). A phase that returns at this sample starts with its trim at 0
(R114). While a prepared shed waits for its hold to expire, the sample's duty and phase loops wait with it (R83). -/
def Dev.runUpdate (d : Dev) (s : Nat) (m : Tlm) (istr : Int) : Dev :=
  let p := d.asgPt s
  let b := (d.strand s).boundary
  let t := if m.peak then b + d.rd s STR_CARRIER.PERIOD / 2 else b
  let anyInv := d.on s STR_MPSTAT.INV
  let act := d.actPhases s
  let d := (d.fallback s anyInv).loadStep s t istr
  let lead := d.leadOf p = some s
  let d := d.wrB s STR_STAT.LEAD lead
  let d := if lead then (d.ssBegin p t).outerLoop p s t m.vout else d
  let share := d.shareOf s p t
  let d := d.wr s STR_SHARE.S (ofSigned 32 (satS 32 share))
  let d := (d.quotient s (if lead then m.vout else d.rdI p OUT_VMEAS.MV) m.vbus).shareLoop s p share istr
  let duty := d.dutyOf s p t share
  let ph0 := (d.strand s).ph
  let waits := (d.strand s).plan.isSome && !m.peak
  let d := d.modStrand s fun x => { x with olUsed := some (d.olFor p t).time, duty := some duty }
  let d := if waits then d else d.applySample s p duty istr act
  let d := (d.returnOne s p t).shedFollow s p t m istr ph0 (!anyInv)
  let held := (d.strand s).expiring.isSome
  let d := if waits && !held then d.applySample s p duty istr act else d
  let d := if lead then d.outerSettle p t m.vout else d
  if held then d else (d.imbCount s).emit s m.peak

/-- The pre-bias of a strand in handover (R73): the feed-forward towards the receiver's voltage alone. Its samples count
for fallback as any (R109). -/
def Dev.handUpdate (d : Dev) (s h : Nat) (m : Tlm) : Dev :=
  let q := d.rd 0 (ALC_HANDSTAT.TO h)
  let v := d.rdI q OUT_VMEAS.MV
  let d := if d.strRunning s then d.fallback s (d.on s STR_MPSTAT.INV) else d
  let x := d.strand s
  let on := d.rd 0 (ALC_HANDSTAT.STATE h) = 3 && x.armed
  let near := (m.vout - v).natAbs ≤ d.rd q OUT_PBCFG.TOL_V * 1000
  let d := d.modStrand s fun x =>
    { x with stopped := !on, preOk := if on && near then (if x.preOk.isNone then some d.now else x.preOk) else none }
  let d := d.quotient s v m.vbus
  (d.setOnTime s (mulQ (d.rdI s (STR_KFFV.K (d.rd s STR_LOOPCFG.BANKSEL))) (d.strand s).quot)).emit s m.peak

/-- The restart check counts a good sample or starts again (R120). -/
def Dev.restartSample (d : Dev) (s : Nat) (m : Tlm) : Dev :=
  let p := d.asgPt s
  let good := d.rd s STR_MPSTAT.INV = 0 && (d.rd s STR_VBUSMIN.MV : Int) ≤ m.vbus
    && (m.vout - d.rdI p OUT_VMEAS.MV).natAbs ≤ d.rd p OUT_PBCFG.TOL_V * 1000
  d.modStrand s fun x => { x with restartN := if good then min 255 (x.restartN + 1) else 0 }

/-- The STR record of a sample (Table FRC-2). -/
def Dev.strRecord (d : Dev) (s : Nat) (m : Tlm) : Dev :=
  d.frcRecord 1 s { time := m.stime, missed := false, flds :=
    [.mask 1 m.valid, .mask 1 m.flags, .num 2 m.tnode true]
    ++ (List.range 8).map (fun i => FrcFld.num 2 (m.iph.getD i 0) (m.valid.testBit i))
    ++ [.num 4 m.vbus true, .num 4 m.vout true] }

/-- The STR record of a missed sample: VALID 0, NFLAGS bit 7, the rest 0 but for its time (R368; log entry 24). -/
def Dev.strMissRecord (d : Dev) (s t : Nat) : Dev :=
  d.frcRecord 1 s { time := t, missed := true, flds :=
    [.mask 1 0, .mask 1 128, .num 2 0 false] ++ (List.range 8).map (fun _ => FrcFld.num 2 0 false)
    ++ [.num 4 0 false, .num 4 0 false] }

/-- The edges that repeat the previous period's (R97): all of them one period later; after a missed peak sample the
falling edges alone, under the rising edges of the list A already sent (R96). -/
def Dev.repeatEdges (d : Dev) (s : Nat) (peak : Bool) : List (Nat × Edge) :=
  let per : Int := (d.rd s STR_CARRIER.PERIOD * 64 : Nat)
  let minOn : Int := (d.rd s STR_MINPULSE.MINON : Int) * 64
  (List.range 8).filterMap fun ph => (d.edgeOf s ph).map fun e =>
    if !peak then (ph, { e with rise := e.rise + per, fall := e.fall + per })
    else
      match (d.strand s).edgesPrev.get (fun _ => none) ph with
      | some old => (ph, { e with fall := old.fall + per, pulse := decide (minOn ≤ old.fall + per - e.rise) })
      | none => (ph, e)

/-- A missed sample, at the valley or at the peak (R97): the previous edges repeat, no loop state changes, the hold of a
shed starts again, and the count of wholly valid samples in fallback too (R109, R112). A prepared shed is discarded with
INVALID (DESIGN CHOICE, log entry 306). -/
def Dev.missed (d : Dev) (s : Nat) (peak : Bool) : Dev :=
  let b := (d.strand s).boundary
  let d := d.strMissRecord s (if peak then b + d.rd s STR_CARRIER.PERIOD / 2 else b)
  let d := ((d.inc s STR_MISS.COUNT).inc 0 CLE_MISS.COUNT).raise s Ev.STR.SAMPLE_MISS
  let d := (d.raise 0 Ev.CLE.SAMPLE_MISS).shedAbort s 2
  let d := d.modStrand s fun x =>
    { x with awaiting := peak && x.awaiting, awaitPeak := !peak && x.awaitPeak, miss := x.miss + 1, lastI := none,
             restartN := 0, good := 0 }
  let d := if d.on s STR_MPSTAT.FBK && !peak then d.inc s STR_FBKCNT.COUNT else d
  let d := if d.strRunning s then d.imbCount s else d
  d.sendEdges s peak (d.repeatEdges s peak)

/-- The telemetry of an awaited sample reaches the CLE (R87, R98, R108). -/
def Dev.sample (d : Dev) (s : Nat) (m : Tlm) : Dev :=
  let act := d.actPhases s
  let ok := d.validPhases s m
  let istr := d.iStrand s m
  let d := d.invalids s m
  if 2 * ok.length < act.length then (if d.strRunning s then d.fallback s true else d).missed s m.peak
  else
    let d := d.strRecord s m
    let d := d.measure s m istr
    let d := d.modStrand s fun x =>
      { x with awaiting := m.peak && x.awaiting, awaitPeak := !m.peak && x.awaitPeak, miss := 0 }
    let oc := act.any fun ph => d.rd s STR_IPHTRIP.I < (m.iph.getD ph 0).natAbs
    let d := if oc && (d.strRunning s || (d.strand s).restartAt.isSome) then d.strandFault s 3 else d
    let d := if d.between s then
        match d.hoOf s with
        | some h => d.handUpdate s h m
        | none => d
      else if d.strRunning s then d.runUpdate s m istr
      else (if (d.strand s).restartAt.isSome then d.restartSample s m else d).emit s m.peak
    d.modStrand s fun x => { x with lastI := some (istr.natAbs : Int) }

/-! ### The commands -/

/-- Whether a strand's carrier counts: its page is enabled (R103). -/
def Dev.strEn (d : Dev) (s : Nat) : Bool := d.en .str s

/-- A hold that expires (R83): the prepared shed commits with its duty and trims, or is aborted with its reason; the
sample's duty and phase loops then act on them, and the edges follow. -/
def shedHoldExpiryAct (n : Nat) (d : Dev) : Dev :=
  let x := d.strand n
  match x.expiring with
  | none => d
  | some r =>
    let d := match x.plan with
      | some q =>
        if r = 0 then
          let d := (d.wrU n STR_DUTY.ONTIME q.onTime).modStrand n fun x => { x with onTime := q.onTime }
          ((List.range 8).foldl (fun (d : Dev) ph => d.wrI n (STR_TRIM.TRIM ph) (q.trims.getD ph 0)) d).shedCommit n
        else d.shedAbort n r
      | none => d
    let d := d.modStrand n fun x => { x with expiring := none }
    let d := match x.duty with
      | some u => d.applySample n (d.asgPt n) u (d.rdI n STR_IMEAS.MA) (d.actPhases n)
      | none => d
    (d.imbCount n).emit n false

/-- SHED_HOLD_EXPIRY (R83). -/
def execShedHoldExpiry (t : Nat) (n : Fin 48) (s : State) := onDev t (shedHoldExpiryAct n) s

/-- The telemetry deadline of a sample taken at an instant, by the TLM_DL the strand holds (R97, R101). -/
def Dev.deadlineOf (d : Dev) (s t : Nat) : Nat := t + d.rd s STR_CARRIER.PERIOD * (d.strand s).dl / 100

/-- The telemetry deadline of the valley sample. -/
def Dev.tlmDeadline (d : Dev) (s : Nat) : Nat := d.deadlineOf s (d.strand s).boundary

/-- The telemetry deadline of the peak sample. -/
def Dev.peakDeadline (d : Dev) (s : Nat) : Nat := d.deadlineOf s ((d.strand s).boundary + d.rd s STR_CARRIER.PERIOD / 2)

/-- Effect of TLM_DEADLINE_MISS (R97): the valley sample, or the peak sample, has not come in time. -/
def tlmDeadlineMissEffect (n : Fin 48) (d : Dev) : Dev :=
  if (d.strand n).awaiting && d.tlmDeadline n < d.now then d.missed n false
  else if (d.strand n).awaitPeak && d.peakDeadline n < d.now then d.missed n true
  else d

/-- TLM_DEADLINE_MISS (R97). -/
def execTlmDeadlineMiss (t : Nat) (n : Fin 48) (s : State) := onDev t (tlmDeadlineMissEffect n) s

/-- Effect of TLM_LOSS (R97). -/
def tlmLossEffect (n : Fin 48) (d : Dev) : Dev :=
  if 0 < (d.strand n).miss && (d.strand n).missLim ≤ (d.strand n).miss
      && (d.strRunning n || (d.strand n).restartAt.isSome)
  then d.strandFault n 1 else d

/-- TLM_LOSS (R97). -/
def execTlmLoss (t : Nat) (n : Fin 48) (s : State) := onDev t (tlmLossEffect n) s

/-- Effect of VBUS_LOW (R93). -/
def vbusLowEffect (n : Fin 48) (d : Dev) : Dev :=
  if 2 ≤ (d.strand n).low && d.strRunning n then d.strandFault n 2 else d

/-- VBUS_LOW (R93). -/
def execVbusLow (t : Nat) (n : Fin 48) (s : State) := onDev t (vbusLowEffect n) s

/-- Effect of FALLBACK_EXIT (R109). -/
def fallbackExitEffect (n : Fin 48) (d : Dev) : Dev :=
  if d.on n STR_MPSTAT.FBK && d.rd n STR_BALCFG.FBK_EXIT ≤ (d.strand n).good then
    (((d.wr n STR_MPSTAT.FBK 0).wr n STR_MPSTAT.ROT 0).modStrand n fun x => { x with good := 0 }).raise n Ev.STR.ROT_EXIT
  else d

/-- FALLBACK_EXIT (R109). -/
def execFallbackExit (t : Nat) (n : Fin 48) (s : State) := onDev t (fallbackExitEffect n) s

/-- Effect of PH_INVALID (R110). -/
def phInvalidEffect (n : Fin 48) (ph : Fin 8) (d : Dev) : Dev :=
  if d.rd n STR_BALCFG.INV_LIMIT ≤ (d.strand n).inv.get (fun _ => 0) ph && d.strRunning n then d.strandFault n 0x10 else d

/-- PH_INVALID (R110). -/
def execPhInvalid (t : Nat) (n : Fin 48) (ph : Fin 8) (s : State) := onDev t (phInvalidEffect n ph) s

/-- Effect of PH_IMBAL (R111): raised once for each run of 1,000 samples. -/
def phImbalEffect (n : Fin 48) (ph : Fin 8) (d : Dev) : Dev :=
  if (d.strand n).imb.get (fun _ => 0) ph = 1000 then
    (d.modStrand n fun x => { x with imb := AMap.set (fun _ => 0) x.imb ph 1001 }).raise n Ev.STR.PH_IMBAL
  else d

/-- PH_IMBAL (R111). -/
def execPhImbal (t : Nat) (n : Fin 48) (ph : Fin 8) (s : State) := onDev t (phImbalEffect n ph) s

/-- Effect of STEP_LOCKOUT_END (R115). -/
def stepLockoutEndEffect (n : Fin 48) (d : Dev) : Dev :=
  if d.on n STR_MPSTAT.LOCKOUT && (d.strand n).lockEnd ≤ d.now then d.wr n STR_MPSTAT.LOCKOUT 0 else d

/-- STEP_LOCKOUT_END (R115). -/
def execStepLockoutEnd (t : Nat) (n : Fin 48) (s : State) := onDev t (stepLockoutEndEffect n) s

/-- The loop states of a strand restart (R120). Beyond the rule's list the VBUS quotient becomes 0, fallback ends, and the
counts of low, invalid and imbalanced samples start again (DESIGN CHOICE, log entry 307). -/
def Dev.loopsRestart (d : Dev) (s : Nat) : Dev :=
  let d := d.modStrand s fun x =>
    { x with sh := {}, ph := [], tsh := 0, quot := 0, low := 0, inv := [], imb := [], good := 0, lockEnd := 0 }
  let d := (List.range 8).foldl (fun d ph => d.wr s (STR_TRIM.TRIM ph) 0) d
  (((d.wr s STR_MPSTAT.ROT 0).wr s STR_MPSTAT.FBK 0).wr s STR_MPSTAT.LOCKOUT 0).phasesBack s

/-- A write to STR_FAULTCLR (R99): the current code clears the fault of a stopped strand; another is CLR_MISMATCH, and so
is the current code of a strand that is not stopped (DESIGN CHOICE, log entry 308). -/
def Dev.strFaultClear (d : Dev) (s code : Nat) : Except Nat Dev :=
  if code ≠ d.rd s STR_FAULT.CODE || d.strRunning s then .error 0x81
  else
    let d := (d.wr s STR_FAULT.CODE 0).loopsRestart s
    let d := if d.rd s STR_STAT.STATE = 5 then d.setStr s 1 else d
    let d := if d.asg s = 5 && (d.linkEntries s).all fun e => d.ctmState e = 0 then d.setAsg s 0 0 else d
    .ok (if d.asg s = 1 && d.ptState (d.asgPt s) = 4 && d.rd s STR_STAT.STATE = 1 then d.restartBegin s else d)

/-- Effect of RESTART_CHECK_PASS (R120): the strand resumes with its share rising from 0. -/
def restartCheckPassEffect (n : Fin 48) (d : Dev) : Dev :=
  let x := d.strand n
  if x.restartAt.isSome && d.rd n STR_RESTART.N ≤ x.restartN && d.asg n = 1 && d.ptState (d.asgPt n) = 4 then
    let d := (d.setStr n 3).modStrand n fun x =>
      { x with restartAt := none, stopped := false, low := 0, ramp := 2, rampAt := d.now, ffOnly := true }
    ((d.armStrand n).raise n Ev.STR.RESTART_OK).noteRow (.restartPass n)
  else d

/-- RESTART_CHECK_PASS (R120). -/
def execRestartCheckPass (t : Nat) (n : Fin 48) (s : State) := onDev t (restartCheckPassEffect n) s

/-- Effect of RESTART_CHECK_TIMEOUT (R120). -/
def restartCheckTimeoutEffect (n : Fin 48) (d : Dev) : Dev :=
  match (d.strand n).restartAt with
  | some a => if a + d.rd n STR_RESTART.TMO_MS * ticksPerMs ≤ d.now then d.strandFault n 0x11 else d
  | none => d

/-- RESTART_CHECK_TIMEOUT (R120). -/
def execRestartCheckTimeout (t : Nat) (n : Fin 48) (s : State) := onDev t (restartCheckTimeoutEffect n) s

end Sys2Proof.Machine
end

