-- ==== Sys2Proof/Machine/Point.lean ====
section
/-!
DEFINITION. Output points: the start of pre-bias (R116, R159), its completion and the timers of the start and stop
sequences (R116 to R123), and clearing a held point (R119).
-/

namespace Sys2Proof.Machine

/-- The time of the point's last outer-loop sample. -/
def Dev.outerAt (d : Dev) (p : Nat) : Nat :=
  match (d.point p).vHist with
  | (t, _) :: _ => t
  | [] => 0

/-- V_veh is current and agrees with V_ses within the greater of 20 V and 5 % (R116). -/
def Dev.vehAgrees (d : Dev) (p m : Nat) : Bool :=
  let ses := (d.sesRec m).avpres
  match d.ptChan p 0 with
  | some v => (v - (ses : Int)).natAbs ≤ max 20000 (ses * 5 / 100)
  | none => false

/-- The insulation check before pre-bias (R161). -/
def Dev.isoStartOk (d : Dev) (p : Nat) : Bool := d.isoCurrent p && !d.isoBelow p (d.rd p OUT_ISOCFG.FAULT_OPV)

/-- Pre-bias begins for an allocatable session on an IDLE point, or the first check to fail holds the point (R116,
R159 step 2). -/
def Dev.prebiasStart (d : Dev) (p m : Nat) : Dev :=
  let (weld, d) := d.weldCheck p 2
  if weld then d.holdPoint p 5
  else if !d.isoStartOk p then d.holdPoint p 9
  else if !d.vehAgrees p m then d.holdPoint p 3
  else
    let d := (d.setPt p 1).modPoint p fun x =>
      { x with ols := [], ci := {}, cv := {}, r := 0, dr := 0, uol := 0, selCv := false, okAt := none, shortAt := none, vHist := [],
               bindOff := false, vehOpen := false, clampNow := false, reverse := false, verified := false, stalled := false }
    ((d.strandsOf p).filter fun s => d.asg s = 1 && d.rd s STR_STAT.STATE = 1).foldl Dev.strandStart d

/-- A domain takes new work: it is ON, and no entry under way lowers it (R21, Table PWR-2). -/
def Dev.takesWork (d : Dev) (x : Dom) : Bool :=
  d.domOn x && !(d.rd 0 PWR_ENTRY.PHASE = 1 && d.pwr.lower.any fun e => e.1 = x.ix)

/-- A point may leave IDLE: every domain that stays ON while it is takes new work, SAFE first of all (R21, Table
PWR-1). -/
def Dev.ptServed (d : Dev) (p : Nat) : Bool :=
  [Dom.safe, .cle, .alc, .ope].all d.takesWork
    && (d.rd p OUT_IOSRC.PORT :: (d.strandsOf p).map fun s => d.rd s STR_TLMSRC.PORT).all fun k => d.takesWork (sknDom k)

/-- Pre-bias begins when the session of an IDLE, enabled point without a fault is allocatable (R116): looked at in the
snapshot of each row (Table OUT-10). -/
def Dev.prebiasCheck (d : Dev) (p : Nat) : Dev :=
  if d.ptState p = 0 && d.rd p OUT_RUNSTAT.FAULT = 0 && d.en .out p && d.allocatable p && d.ptServed p then
    match d.liveSes p with
    | some m => d.prebiasStart p m
    | none => d
  else d

/-- Effect of CONTACTOR_CONFIRM (R157). -/
def contactorConfirmEffect (e : Fin 64) (d : Dev) : Dev := d.ctmConfirm e

/-- CONTACTOR_CONFIRM (R157). -/
def execContactorConfirm (t : Nat) (e : Fin 64) (s : State) := onDev t (contactorConfirmEffect e) s

/-- Effect of PREBIAS_COMPLETE (R116): held within tolerance for 1 ms, the point closes its contactors. -/
def prebiasCompleteEffect (q : Fin 32) (d : Dev) : Dev :=
  match (d.point q).okAt with
  | some a =>
    if d.ptState q = 1 && a + ticksPerMs ≤ d.outerAt q then
      let d := (d.setPt q 2).modPoint q fun x => { x with vPre := d.vVeh q }
      (d.outEntries q).foldl Dev.reqClose d
    else d
  | none => d

/-- PREBIAS_COMPLETE (R116). -/
def execPrebiasComplete (t : Nat) (q : Fin 32) (s : State) := onDev t (prebiasCompleteEffect q) s

/-- A time limit of so many ms since the point entered its state has passed. -/
def Dev.ptDue (d : Dev) (p ms : Nat) : Bool := (d.point p).since + ms * ticksPerMs ≤ d.now

/-- Effect of PREBIAS_TIMEOUT (R116). -/
def prebiasTimeoutEffect (q : Fin 32) (d : Dev) : Dev :=
  if d.ptState q = 1 && d.ptDue q (d.rd q OUT_PBCFG.TMO_MS) then d.holdPoint q 2 else d

/-- PREBIAS_TIMEOUT (R116). -/
def execPrebiasTimeout (t : Nat) (q : Fin 32) (s : State) := onDev t (prebiasTimeoutEffect q) s

/-- Effect of SOFTSTART_DONE (R117): the point and its strands RUNNING; strands that waited begin their restart check
(R120). -/
def softstartDoneEffect (q : Fin 32) (d : Dev) : Dev :=
  if d.ptState q = 3 && (d.point q).ssAt + d.rd q OUT_SSCFG.RAMP_MS * ticksPerMs ≤ d.outerAt q then
    let waiting := (d.strandsOf q).filter fun s => d.asg s = 1 && d.rd s STR_STAT.STATE = 1
    let d := (d.group q).foldl (fun d s => d.setStr s 3) (d.setPt q 4)
    (waiting.foldl Dev.restartBegin d).raise q Ev.OUT.SS_DONE
  else d

/-- SOFTSTART_DONE (R117). -/
def execSoftstartDone (t : Nat) (q : Fin 32) (s : State) := onDev t (softstartDoneEffect q) s

/-- Whether the last outer-loop sample was taken in SOFTSTART: a session end, a safety trip or another fault at or after it
leaves the short of that sample to be declared (R118). -/
def Dev.sampledSoft (d : Dev) (p : Nat) : Bool :=
  d.ptState p = 3 || ((d.ptState p = 5 || d.ptState p = 7) && d.outerAt p ≤ (d.point p).since)

/-- Effect of SHORT_SS (R118): condition C has held for SHORT_MS. -/
def shortSsEffect (q : Fin 32) (d : Dev) : Dev :=
  match (d.point q).shortAt with
  | some a =>
    if d.sampledSoft q && a + d.rd q OUT_SSCFG.SHORT_MS * ticksPerMs ≤ d.outerAt q then
      (d.modPoint q fun x => { x with shortAt := none }).pointFault q 1
    else d
  | none => d

/-- SHORT_SS (R118). -/
def execShortSs (t : Nat) (q : Fin 32) (s : State) := onDev t (shortSsEffect q) s

/-- A write to OUT_RUNCLR (R119). -/
def Dev.pointClear (d : Dev) (p code : Nat) : Except Nat Dev :=
  if d.ptState p = 9 && d.outputsLive p then .error RC.ENERGISED
  else if d.ptState p ≠ 9 || code ≠ d.rd p OUT_RUNSTAT.FAULT then .error RC.RANGE
  else .ok ((d.wr p OUT_RUNSTAT.FAULT 0).setPt p 0)

/-- Effect of RAMPDOWN_TIMEOUT (R121). -/
def rampdownTimeoutEffect (q : Fin 32) (d : Dev) : Dev :=
  if d.ptState q = 5 && d.ptDue q (d.rd q OUT_BOCFG.TMO_MS) then (d.raise q Ev.OUT.BO_FORCED).enterVehWait q else d

/-- RAMPDOWN_TIMEOUT (R121). -/
def execRampdownTimeout (t : Nat) (q : Fin 32) (s : State) := onDev t (rampdownTimeoutEffect q) s

/-- Effect of VEHWAIT_TIMEOUT (R121). -/
def vehwaitTimeoutEffect (q : Fin 32) (d : Dev) : Dev :=
  if d.ptState q = 6 && d.ptDue q (d.rd q OUT_BOEND.VEHWAIT_MS) then d.enterDischarge q true else d

/-- VEHWAIT_TIMEOUT (R121). -/
def execVehwaitTimeout (t : Nat) (q : Fin 32) (s : State) := onDev t (vehwaitTimeoutEffect q) s

/-- Effect of DISCHARGE_TIMEOUT (R123): not verified within 1,000 ms is DIS_FAIL; a verified reverse discharge ends. -/
def dischargeTimeoutEffect (q : Fin 32) (d : Dev) : Dev :=
  if d.ptState q = 7 && (d.point q).disAt + 1000 * ticksPerMs ≤ d.now then
    if (d.point q).verified then d.enterOpening q else d.disFail q
  else d

/-- DISCHARGE_TIMEOUT (R123). -/
def execDischargeTimeout (t : Nat) (q : Fin 32) (s : State) := onDev t (dischargeTimeoutEffect q) s

end Sys2Proof.Machine
end

