-- ==== Sys2Proof/Machine/Skein.lean ====
section
/-!
DEFINITION. The Skein port: bring-up and enumeration (R126, R146), time (R138, R139), frames received from nodes (R130,
R141 to R145), and what their absence brings.
-/

namespace Sys2Proof.Machine

/-! ### Frames in -/

/-- The length a frame of a TYPE has (Table SKN-3); none for a type no node sends. -/
def upLength (f : List Byte) : Option Nat :=
  match leAt f 0 1 with
  | 0x03 => some 16
  | 0x04 => some 12
  | 0x20 => some 40
  | 0x21 => some 24
  | 0x30 => let n := leAt f 2 1; if n % 5 = 0 && 5 ≤ n && n ≤ 120 then some (8 + n) else none
  | 0x32 => some 16
  | 0x40 => let n := leAt f 2 1; if n = 16 || n = 32 || n = 64 then some (8 + n) else none
  | 0x50 => let n := leAt f 2 1; if 1 ≤ n && n ≤ 116 then some (12 + n) else none
  | _ => none

/-- A frame that R130 keeps: its length is its TYPE's and its CRC is right. -/
def frameOk (f : List Byte) : Bool := upLength f = some f.length && crcOk f

/-- The source position of a frame. -/
def framePos (f : List Byte) : Nat := leAt f 1 1 % 8

/-- What identifies a copy of a frame in RING (R128): SEQ, TAG or sample time; none where copies do no harm. -/
def frameKey (f : List Byte) : Option Nat :=
  match leAt f 0 1 with
  | 0x20 => some (leAt f 4 4)
  | 0x30 => some (leAt f 3 1)
  | 0x32 => some (leAt f 2 1)
  | 0x04 => some (leAt f 2 1)
  | 0x40 => some (leAt f (f.length - 4) 4)
  | 0x50 => some ((leAt f 6 1 * 65536 + leAt f 4 2) * 256 + leAt f 3 1)
  | _ => none

/-- A port receives: its domain is ON, its page enabled, its link UP. -/
def Dev.sknLive (d : Dev) (k : Nat) : Bool := d.sknOn k && d.en .skn k && d.on k SKN_LINK.UP

/-- Receive a frame at a port (R128, R130): a bad one is discarded and counted; a ring copy, one of the last 32 frames of
its node (DESIGN CHOICE, log entry 316), is ignored; else it is handled for its position on the home port. -/
def Dev.rxFrame (d : Dev) (k type : Nat) (f : List Byte) (h : Nat → Nat → Dev → Dev) : Dev :=
  if !d.sknLive k then d
  else if !frameOk f then d.inc k SKN_CRCERR.COUNT
  else if leAt f 0 1 ≠ type then d
  else
    let home := d.homePort k
    let pos := framePos f
    match frameKey f with
    | none => h home pos d
    | some key =>
      let x := d.node home pos
      if d.rd home SKN_CFG.TOPO = 1 && x.last.contains (type, key) then d
      else h home pos (d.setNode home pos { x with last := ((type, key) :: x.last).take 32 })

/-! ### Bring-up (R126, R146) -/

/-- The number of nodes enumerated (SKN_LINK.NNODES). -/
def Dev.countNodes (d : Dev) (k : Nat) : Dev :=
  d.wr k SKN_LINK.NNODES ((List.range 8).filter fun pos => d.nodeClass k pos ≠ 0).length

/-- The device sends ENUM with HOP 0 and forgets the positions it had (R146). -/
def Dev.sendEnum (d : Dev) (k : Nat) : Dev :=
  let d := (List.range 8).foldl (fun d pos =>
    (d.wr k (SKN_NODES.POS pos) 0).setNode k pos { d.node k pos with mismatch := false }) d
  let d := d.setSport k { d.sport k with enumAt := d.now }
  (d.countNodes k).sknOut k (withCrc [0x02#8, 0x80#8, 0#8, 0#8])

/-- Both ends of a ring are UP (SKN_LINK.RINGOK). -/
def Dev.ringOk (d : Dev) (k : Nat) : Dev :=
  let q := d.rd k SKN_CFG.PARTNER
  if d.rd k SKN_CFG.TOPO = 1 then
    let b := d.on k SKN_LINK.UP && d.on q SKN_LINK.UP
    (d.wrB k SKN_LINK.RINGOK b).wrB q SKN_LINK.RINGOK b
  else d

/-- Effect of SKN_LINK_UP (R126, R146): in RING the first end alone enumerates. -/
def sknLinkUpEffect (k : Fin 12) (d : Dev) : Dev :=
  if !(d.sknOn k && d.en .skn k) || d.on k SKN_LINK.UP then d
  else
    let d := (((d.wr k SKN_LINK.UP 1).wr k SKN_LINK.SYNCD 1).ringOk k).raise k Ev.SKN.LINK_UP
    if d.homePort k = k then d.sendEnum k else d

/-- SKN_LINK_UP (R126). -/
def execSknLinkUp (t : Nat) (k : Fin 12) (s : State) := onDev t (sknLinkUpEffect k) s

/-- Effect of SKN_SYNC_LOSS (R126, R128). -/
def sknSyncLossEffect (k : Fin 12) (d : Dev) : Dev :=
  if !d.on k SKN_LINK.SYNCD && !d.on k SKN_LINK.UP then d
  else
    let wasUp := d.on k SKN_LINK.UP
    let d := ((d.wr k SKN_LINK.UP 0).wr k SKN_LINK.SYNCD 0).ringOk k
    let d := if wasUp then d.raise k Ev.SKN.LINK_DOWN else d
    if d.rd k SKN_CFG.TOPO = 1 || d.rd k SKN_CFG.TOPO = 2 then d.raise k Ev.SKN.RING_BREAK else d

/-- SKN_SYNC_LOSS (R126). -/
def execSknSyncLoss (t : Nat) (k : Fin 12) (s : State) := onDev t (sknSyncLossEffect k) s

/-- Effect of SKN_SYNC_REGAIN (R126): 3 error-free IDLE sets; the link is UP only after 1,024 code groups. -/
def sknSyncRegainEffect (k : Fin 12) (d : Dev) : Dev :=
  if d.sknOn k && d.en .skn k then d.wr k SKN_LINK.SYNCD 1 else d

/-- SKN_SYNC_REGAIN (R126). -/
def execSknSyncRegain (t : Nat) (k : Fin 12) (s : State) := onDev t (sknSyncRegainEffect k) s

/-- A position becomes a mismatch (R146). -/
def Dev.mismatch (d : Dev) (k pos : Nat) : Dev :=
  (d.setNode k pos { d.node k pos with mismatch := true }).raise k Ev.SKN.NODE_MISMATCH

/-- Points whose pilot an IO node drives must drive it anew: the node has lost its outputs (R147, R197). -/
def Dev.pilotUndriven (d : Dev) (k pos : Nat) : Dev :=
  let mine (p : Nat) : Bool := d.rd 0 (VCM_PT_A.PSRC p) = 1 && d.rd 0 (VCM_PT_A.PORT p) = k && d.rd 0 (VCM_PT_A.NODE p) = pos
  { d with vcm := { d.vcm with pts := d.vcm.pts.map fun e => if mine e.1 then (e.1, { e.2 with driven := none }) else e } }

/-- Effect of IDENT_RX (R146). A position that is a mismatch since the last ENUM stays one: only a later ENUM can match. -/
def identRxEffect (k : Fin 12) (f : List Byte) (d : Dev) : Dev :=
  d.rxFrame k 0x03 f fun k pos d =>
    let cls := leAt f 2 1
    let d := (d.wr k (SKN_NODES.POS pos) cls).countNodes k
    let d := { d with skn := { d.skn with inputs := d.skn.inputs.map fun (e : Nat × Input) =>
      if e.1 / 256 = 8 * k + pos then (e.1, { e.2 with known := false }) else e } }
    let d := (d.pilotUndriven k pos).setNode k pos { d.node k pos with statusAt := d.now, ident := (f.drop 2).take 10, last := [] }
    if !(d.node k pos).mismatch && cls ≠ d.rd k (SKN_EXPECT.POS pos) then d.mismatch k pos else d

/-- IDENT_RX (R146). -/
def execIdentRx (t : Nat) (k : Fin 12) (f : List Byte) (s : State) := onDev t (identRxEffect k f) s

/-- Effect of ENUM_IDENT_TIMEOUT (R146). -/
def enumIdentTimeoutEffect (k : Fin 12) (pos : Fin 8) (d : Dev) : Dev :=
  if d.sknLive k && d.on k (SKN_EXPECT.POS pos) && d.nodeClass k pos = 0 && !(d.node k pos).mismatch
      && (d.sport k).enumAt + ticksPerMs ≤ d.now then d.mismatch k pos
  else d

/-- ENUM_IDENT_TIMEOUT (R146). -/
def execEnumIdentTimeout (t : Nat) (k : Fin 12) (pos : Fin 8) (s : State) := onDev t (enumIdentTimeoutEffect k pos) s

/-! ### Time (R138, R139) -/

/-- The SYNC frame (R138): TIME in 1/64 tick, CORR 0; FLAGS bit 0 from a ring's second end. -/
def syncBody (seq flags time : Nat) : List Byte :=
  [0x01#8, 0x80#8, BitVec.ofNat 8 seq, BitVec.ofNat 8 flags] ++ leBytes 8 (time * 64) ++ leBytes 4 0

/-- The ends from which a frame of home port h leaves: in RING both (R128). -/
def Dev.ringEnds (d : Dev) (h : Nat) : List Nat := if d.rd h SKN_CFG.TOPO = 1 then [h, d.rd h SKN_CFG.PARTNER] else [h]

/-- Effect of SKN_SYNC_SEND (R128, R138): one SEQ for both ends of a ring, its FLAGS telling them apart; an end that
is not UP sends nothing. -/
def sknSyncSendEffect (k : Fin 12) (d : Dev) : Dev :=
  let h := d.homePort k
  let x := d.sport h
  if d.sknLive k && x.syncAt + d.rd h SKN_SYNC.PERIOD_US * ticksPerUs ≤ d.now then
    let d := d.setSport h { x with syncSeq := (x.syncSeq + 1) % 256, syncAt := d.now }
    ((d.ringEnds h).filter d.sknLive).foldl (fun d e =>
      d.sknOut e (withCrc (syncBody x.syncSeq (if e = h then 0 else 1) d.now))) d
  else d

/-- SKN_SYNC_SEND (R138). -/
def execSknSyncSend (t : Nat) (k : Fin 12) (s : State) := onDev t (sknSyncSendEffect k) s

/-- Effect of DLY_REQ_RX (R139): DLY_RESP with T2 the request's arrival and T3 the response's departure, which the spec
leaves open beyond being later (log entry 4). -/
def dlyReqRxEffect (k : Fin 12) (f : List Byte) (d : Dev) : Dev :=
  d.rxFrame k 0x04 f fun k pos d =>
    let (x, d) := d.draw
    let t2 := d.now * 64
    d.sendDown k ([0x05#8, BitVec.ofNat 8 pos, BitVec.ofNat 8 (leAt f 2 1), 0#8] ++ leBytes 8 t2 ++ leBytes 8 (t2 + x)
      ++ leBytes 4 (leAt f 4 4) ++ leBytes 4 0)

/-- DLY_REQ_RX (R139). -/
def execDlyReqRx (t : Nat) (k : Fin 12) (f : List Byte) (s : State) := onDev t (dlyReqRxEffect k f) s

/-! ### Status (R142) -/

/-- Effect of STATUS_RX (R142). -/
def statusRxEffect (k : Fin 12) (f : List Byte) (d : Dev) : Dev :=
  d.rxFrame k 0x21 f fun k pos d =>
    let d := d.setNode k pos { d.node k pos with statusAt := d.now }
    (d.wr k (SKN_NSTAT.LOST pos) 0).wr k (SKN_NSTAT.STATE pos) (leAt f 3 1)

/-- STATUS_RX (R142). -/
def execStatusRx (t : Nat) (k : Fin 12) (f : List Byte) (s : State) := onDev t (statusRxEffect k f) s

/-- The strands whose EDGE node is a position (R129). -/
def Dev.strandsAt (d : Dev) (k pos : Nat) : List Nat :=
  (List.range 48).filter fun s => d.strEn s && d.rd s STR_TLMSRC.PORT = k && d.rd s STR_TLMSRC.NODE = pos

/-- Effect of NODE_LOST (R142). -/
def nodeLostEffect (k : Fin 12) (pos : Fin 8) (d : Dev) : Dev :=
  if d.nodeClass k pos ≠ 0 && !d.on k (SKN_NSTAT.LOST pos)
      && (d.node k pos).statusAt + 5 * d.rd k SKN_STATCFG.PERIOD_MS * ticksPerMs ≤ d.now then
    let d := (d.wr k (SKN_NSTAT.LOST pos) 1).raise k Ev.SKN.NODE_LOST
    (d.strandsAt k pos).foldl (fun d s => if d.strRunning s then d.strandFault s 0x41 else d) d
  else d

/-- NODE_LOST (R142). -/
def execNodeLost (t : Nat) (k : Fin 12) (pos : Fin 8) (s : State) := onDev t (nodeLostEffect k pos) s

/-! ### Input channels (R145) -/

/-- The points whose measurement channels a channel of a node is among. -/
def Dev.pointsOn (d : Dev) (k pos ch : Nat) : List Nat :=
  (List.range 32).filter fun p =>
    d.en .out p && d.rd p OUT_IOSRC.PORT = k && d.rd p OUT_IOSRC.NODE = pos
      && d.rd p OUT_IOSRC.CHBASE ≤ ch && ch ≤ d.rd p OUT_IOSRC.CHBASE + 6

/-- A NODE trigger of the recorder: a named channel whose VALUE changed since the one before it (R372). -/
def Dev.nodeTrig (d : Dev) (k pos ch : Nat) (v : Int) : Dev :=
  let x := d.inRec k pos ch
  let named := (List.range 4).any fun i =>
    d.on 0 (FRC_NODETRG.EN i) && d.rd 0 (FRC_NODETRG.PORT i) = k && d.rd 0 (FRC_NODETRG.NODE i) = pos
      && d.rd 0 (FRC_NODETRG.CH i) = ch
  if named && x.known && x.val ≠ v then d.frcLocal 3 (near32 d.now (ofSigned 32 v)) else d

/-- One entry of an IO_IN frame. -/
def Dev.inUpdate (d : Dev) (k pos ch : Nat) (v : Int) : Dev :=
  let d := d.nodeTrig k pos ch v
  let d := d.setIn k pos ch { val := v, time := d.now, seen := true, stale := false, known := true }
  let d := (d.auxEntries k pos ch).foldl (fun d e => d.auxUpdate e v) d
  (d.pointsOn k pos ch).foldl Dev.isoWatch d

/-- The entries of an IO_IN frame (Table SKN-3). -/
def ioInEntries (f : List Byte) : List (Nat × Int) :=
  (List.range (leAt f 2 1 / 5)).map fun i => (leAt f (4 + 5 * i) 1, toSigned 32 (leAt f (5 + 5 * i) 4))

/-- Effect of IO_IN_RX (R145). -/
def ioInRxEffect (k : Fin 12) (f : List Byte) (d : Dev) : Dev :=
  d.rxFrame k 0x30 f fun k pos d =>
    if d.nodeClass k pos = 0 then d else (ioInEntries f).foldl (fun d e => d.inUpdate k pos e.1 e.2) d

/-- IO_IN_RX (R145). -/
def execIoInRx (t : Nat) (k : Fin 12) (f : List Byte) (s : State) := onDev t (ioInRxEffect k f) s

/-- Effect of INPUT_STALE (R145, R158): stale after 4 cycles without a refresh. -/
def inputStaleEffect (k : Fin 12) (pos : Fin 8) (ch : Fin 256) (d : Dev) : Dev :=
  let x := d.inRec k pos ch
  if x.seen && !x.stale && x.time + 4 * d.rd k SKN_IOCFG.CYC_US * ticksPerUs ≤ d.now then
    let d := d.setIn k pos ch { x with stale := true }
    let d := (d.auxEntries k pos ch).foldl Dev.auxStale d
    (d.pointsOn k pos ch).foldl Dev.isoWatch d
  else d

/-- INPUT_STALE (R145). -/
def execInputStale (t : Nat) (k : Fin 12) (pos : Fin 8) (ch : Fin 256) (s : State) :=
  onDev t (inputStaleEffect k pos ch) s

/-! ### Requests answered and unanswered (R143) -/

/-- A node register read answers: NODE_STAT and NODE_LAT are shown on the SKN page. No rule says when the device reads
NODE_LAT of its own: the model leaves that read to the host's NODE_RD (DESIGN CHOICE, log entry 317). An arming strand is
armed once its node is aligned and configured, else it is read again (R147). -/
def Dev.nodeRead (d : Dev) (o : Op) (index : Nat) (v : Nat) : Dev :=
  let k := o.arg 8 1
  let pos := o.arg 9 1
  if index = 5 then d.wr k (SKN_LAT.LAT pos) v
  else if index = 3 then
    let d := (d.wr k (SKN_NSTAT.STATE pos) (v / 16)).wr k (SKN_NSTAT.ALIGNED pos) (v / 2)
    if !o.host && (d.strandsAt k pos).any fun s => (d.strand s).arming then
      if v.testBit 1 && v.testBit 2 then d.request OK.NODE_ARM [BitVec.ofNat 8 k, BitVec.ofNat 8 pos]
      else d.request OK.NODE_RD [BitVec.ofNat 8 k, BitVec.ofNat 8 pos, 3#8]
    else d
  else d

/-- An ARM ends: the strands of the node may switch, or are no longer arming (R147). -/
def Dev.armDone (d : Dev) (o : Op) (ok : Bool) : Dev :=
  (d.strandsAt (o.arg 8 1) (o.arg 9 1)).foldl (fun d s => d.modStrand s fun x =>
    if x.arming then { x with arming := false, armed := ok } else x) d

/-- The answer of a request reaches what sent it (R143). -/
def Dev.ioDone (d : Dev) (owner : IoOwner) (status index value : Nat) : Dev :=
  match owner with
  | .drive => d
  | .op slot =>
    match d.opAt slot with
    | none => d
    | some o =>
      if o.kind = OK.CONT_CLOSE || o.kind = OK.CONT_OPEN then d.ctmAck o status
      else
        let d := d.opFinish slot (if status = 0 then 0 else 0x10 + status)
        if o.kind = OK.NODE_RD && status = 0 then d.nodeRead o index value
        else if o.kind = OK.NODE_RD && !o.host && o.arg 10 1 = 3 then
          -- not answered yet, BUSY for one: read again until both bits are 1 (R147)
          d.request OK.NODE_RD [BitVec.ofNat 8 (o.arg 8 1), BitVec.ofNat 8 (o.arg 9 1), 3#8]
        else if o.kind = OK.NODE_ARM then d.armDone o (status = 0)
        else d

/-- A request has failed on the link after its retries (R143, R442). -/
def Dev.ioFailed (d : Dev) (owner : IoOwner) : Dev :=
  match owner with
  | .drive => d
  | .op slot =>
    match d.opAt slot with
    | none => d
    | some o =>
      let d := d.opFinish slot 6
      if o.kind = OK.CONT_CLOSE then d.failClose (o.arg 8 1)
      else if o.kind = OK.CONT_OPEN then d.failOpen (o.arg 8 1)
      else if o.kind = OK.NODE_ARM || o.kind = OK.NODE_RD then d.armDone o false
      else d

/-- Effect of IO_ACK_RX (R143, R144): an acknowledgement whose TAG no request waits for is ignored. -/
def ioAckRxEffect (k : Fin 12) (f : List Byte) (d : Dev) : Dev :=
  d.rxFrame k 0x32 f fun k pos d =>
    let tag := leAt f 2 1
    let p (r : IoReq) : Bool := r.port = k && r.pos = pos && r.tag = tag
    match d.skn.reqs.find? p with
    | none => d
    | some r =>
      let d := { d with skn := { d.skn with reqs := removeFirst p d.skn.reqs } }
      d.ioDone r.owner (leAt f 3 1) (leAt f 4 1) (leAt f 8 4)

/-- IO_ACK_RX (R143). -/
def execIoAckRx (t : Nat) (k : Fin 12) (f : List Byte) (s : State) := onDev t (ioAckRxEffect k f) s

/-- Effect of IO_ACK_TIMEOUT (R143): the oldest unanswered request to the position is resent, or fails: after its last
attempt, or when the position is since lost, withheld or no longer enumerated. -/
def ioAckTimeoutEffect (k : Fin 12) (pos : Fin 8) (d : Dev) : Dev :=
  let due (r : IoReq) : Bool :=
    r.port = k && r.pos = pos && r.sentAt + d.rd k SKN_IOCFG.TMO_US * ticksPerUs ≤ d.now
  match d.skn.reqs.find? due with
  | none => d
  | some r =>
    if r.resends < d.rd k SKN_IOCFG.RETRY && d.nodeUp k pos then
      let r' := { r with resends := r.resends + 1, sentAt := d.now }
      let d := { d with skn := { d.skn with reqs := mapIf (fun x => x = r) (fun _ => r') d.skn.reqs } }
      (d.inc k SKN_IORETRY.COUNT).sendDown k (ioReqFrame r')
    else
      let d := { d with skn := { d.skn with reqs := removeFirst (fun x => x = r) d.skn.reqs } }
      (d.ioFail k).ioFailed r.owner

/-- IO_ACK_TIMEOUT (R143). -/
def execIoAckTimeout (t : Nat) (k : Fin 12) (pos : Fin 8) (s : State) := onDev t (ioAckTimeoutEffect k pos) s

/-! ### Telemetry (R141) -/

/-- The sample a TLM frame carries (Table SKN-5). -/
def tlmOf (now : Nat) (f : List Byte) : Tlm :=
  { flags := leAt f 3 1, tnode := toSigned 16 (leAt f 32 2), stime := near32 now (leAt f 4 4), valid := leAt f 2 1, peak := (leAt f 3 1).testBit 4,
    iph := (List.range 8).map fun i => toSigned 16 (leAt f (8 + 2 * i) 2),
    vbus := toSigned 32 (leAt f 24 4), vout := toSigned 32 (leAt f 28 4) }

/-- What the node flags of a TLM frame bring to a strand that runs (R137, R140, R141). -/
def Dev.tlmFlags (d : Dev) (k pos s flags : Nat) : Dev :=
  let _ := pos
  let d := if flags.testBit 1 && d.strRunning s && (d.strand s).armed then
      (d.raise k Ev.SKN.NODE_STOP).strandFault s 0x40 else d
  let d := if flags.testBit 2 && d.strRunning s then (d.raise k Ev.SKN.SYNC_LOST).strandFault s 0x43 else d
  if flags.testBit 3 && (d.strRunning s || (d.strand s).restartAt.isSome) then d.strandFault s 0x42 else d

/-- Whether a frame's STIME is that of a sample at a time: nearer to it than a quarter period (Table SKN-5; log entry
286). -/
def Dev.tlmOfTime (d : Dev) (s : Nat) (m : Tlm) (t : Nat) : Bool :=
  4 * (m.stime - t) < d.rd s STR_CARRIER.PERIOD && 4 * (t - m.stime) < d.rd s STR_CARRIER.PERIOD

/-- Whether a frame belongs to the sample a strand awaits and has met the deadline (R97). -/
def Dev.tlmInTime (d : Dev) (s : Nat) (m : Tlm) : Bool :=
  let x := d.strand s
  if m.peak then
    x.awaitPeak && d.tlmOfTime s m (x.boundary + d.rd s STR_CARRIER.PERIOD / 2) && d.now ≤ d.peakDeadline s
  else x.awaiting && d.tlmOfTime s m x.boundary && d.now ≤ d.tlmDeadline s

/-- The current the safety layer sees in a frame: the sum of its valid phase currents, mA, with nothing of the CLE's (R25,
R295). -/
def Tlm.current (m : Tlm) : Int :=
  ((List.range 8).map fun ph => if m.valid.testBit ph then 10 * m.iph.getD ph 0 else 0).sum

/-- Effect of TLM_RX (R137, R141, R87). -/
def tlmRxEffect (k : Fin 12) (f : List Byte) (d : Dev) : Dev :=
  d.rxFrame k 0x20 f fun k pos d =>
    let flags := leAt f 3 1
    let m := tlmOf d.now f
    let d := if flags.testBit 0 then (d.inc k (SKN_NSTAT.DROPS pos)).raise k Ev.SKN.DROP else d
    (d.strandsAt k pos).foldl (fun d s =>
      let d := d.tlmFlags k pos s flags
      let d := if m.valid = 0 then d else d.modStrand s fun x => { x with tlmI := m.current, tlmAt := some d.now }
      if d.tlmInTime s m then d.sample s m else d) d

/-- TLM_RX (R141). -/
def execTlmRx (t : Nat) (k : Fin 12) (f : List Byte) (s : State) := onDev t (tlmRxEffect k f) s

end Sys2Proof.Machine
end

