-- ==== Sys2Proof/Machine/OpEngine.lean ====
section
/-!
DEFINITION. The operation engine (R313 to R320): the submission ring, descriptors, issue from the three sources,
completion; relocation in the journal (R322); and the operations that act on nodes and on MRAM.
-/

namespace Sys2Proof.Machine

/-! ### Descriptors (R314, R315) -/

/-- Whether a buffer lies wholly within the shared buffers (R313). -/
def bufOk (off len : Nat) : Bool := off + len ≤ 0x400000

/-- Whether the kind is one a host may name, of the class the descriptor gives (Table OPE-1). -/
def hostKind (cls kind : Nat) : Bool :=
  cls = opClass kind &&
    (kind = OK.LSW_OFF || kind = OK.LSW_ON || kind = OK.LSW_PWM || kind = OK.IO_OUT || kind = OK.NVM_WRITE
      || kind = OK.NVM_READ || kind = OK.TX_VEH || kind = OK.TX_YARN || kind = OK.RX_YARN || kind = OK.NODE_RD
      || kind = OK.NODE_WR || kind = OK.CRY_OP || kind = OK.CAP_READ || kind = OK.CAL_RUN)

/-- The functions of Table CRY-1. -/
def cryFunc (f : Nat) : Bool := (1 ≤ f && f ≤ 0x0C) || (0x10 ≤ f && f ≤ 0x14) || (0x18 ≤ f && f ≤ 0x1A)

/-- Whether the arguments of a host operation are in range and its buffers within the shared buffers (R315, Table
OPE-1, R363, R376). -/
def hostArgsOk (kind : Nat) (o : Op) : Bool :=
  if kind = OK.LSW_OFF || kind = OK.LSW_ON || kind = OK.LSW_PWM then o.arg 8 1 < 24
  else if kind = OK.IO_OUT then o.arg 8 1 < 12 && o.arg 9 1 < 8
  else if kind = OK.NVM_WRITE || kind = OK.NVM_READ then
    let len := o.arg 10 2
    o.arg 8 1 ≤ 1 && 4 ≤ len && len ≤ 32768 && len % 4 = 0 && o.arg 12 4 + len ≤ 0x800000 && bufOk (o.arg 16 4) len
      && o.arg 20 4 = 0
  else if kind = OK.TX_VEH then
    let len := o.arg 10 2
    o.arg 8 1 < 32 && 14 ≤ len && len ≤ 1518 && bufOk (o.arg 16 4) len && o.arg 20 4 = 0
  else if kind = OK.TX_YARN then
    let len := o.arg 10 2
    o.arg 8 1 < 64 && 1 ≤ o.arg 9 1 && o.arg 9 1 ≤ 3 && 1 ≤ len && len ≤ 16384 && bufOk (o.arg 16 4) len
      && o.arg 20 4 = 0
  else if kind = OK.RX_YARN then (o.arg 8 1 < 64 || o.arg 8 1 = 0xFF) && bufOk (o.arg 16 4) (o.arg 10 2)
  else if kind = OK.NODE_RD || kind = OK.NODE_WR then o.arg 8 1 < 12 && o.arg 9 1 < 8 && 0x10 ≤ o.arg 10 1
  else if kind = OK.CRY_OP then
    let key := o.arg 9 1
    cryFunc (o.arg 8 1) && (key < 96 || key = 0xFF) && o.arg 11 1 = 0 && o.arg 28 4 = 0
      && bufOk (o.arg 12 4) (o.arg 16 4) && bufOk (o.arg 20 4) (o.arg 24 4)
  else if kind = OK.CAP_READ then
    o.arg 8 1 < 16 && o.arg 9 1 < 4 && o.arg 10 2 = 0 && o.arg 28 4 = 0
      && bufOk (o.arg 16 4) (o.arg 20 4 * frcEntrySize (o.arg 9 1))
  else if kind = OK.CAL_RUN then
    let ix := o.arg 9 1
    (o.arg 8 1 = 0 && ix < 64) || (o.arg 8 1 = 1 && ix < 24) || (o.arg 8 1 = 2 && ix < 32)
  else false

/-- The host operation a 32-byte descriptor asks for. -/
def descOp (bs : List Byte) : Op :=
  { cls := leAt bs 0 1, kind := leAt bs 1 1, args := opArgs (bs.drop 8), host := true,
    ess := (leAt bs 2 1).testBit 0, tag := leAt bs 4 2 }

/-- Whether a descriptor is valid (R315). -/
def descOk (bs : List Byte) : Bool :=
  let o := descOp bs
  hostKind o.cls o.kind && leAt bs 2 1 ≤ 1 && leAt bs 3 1 = 0 && leAt bs 6 2 = 0 && hostArgsOk o.kind o

/-- Whether boot ROM recovery takes an operation: images of the runtime, and DIGEST (Table SYS-1). -/
def recoveryOk (o : Op) : Bool :=
  let f := o.arg 8 1
  o.kind = OK.CRY_OP && (f = 0x0B || ((f = 0x18 || f = 0x19 || f = 0x1A) && o.arg 10 1 = 0))

/-- Whether the device takes a descriptor as valid; in stop state 3 it is the boot ROM that does (R405). -/
def Dev.descTake (d : Dev) (bs : List Byte) : Bool := descOk bs && (d.rd 0 SYS_STAT.STOP ≠ 3 || recoveryOk (descOp bs))

/-- Descriptors written and not yet taken. -/
def Dev.sqWaiting (d : Dev) : Nat :=
  let size := d.rd 0 OPE_SQ_SIZE.SIZE
  (d.rd 0 OPE_SQ_TAIL.IDX + size - d.rd 0 OPE_SQ_HEAD.IDX) % size

/-- The descriptor at the head of the submission ring. -/
def Dev.sqHead (d : Dev) (sram : AMap Byte) : Option (List Byte) :=
  if d.on 0 OPE_CTL.SQ_EN && d.sqWaiting ≠ 0 then
    some (sram.getBytes (d.rd 0 OPE_SQ_BASE.BASE * 4096 + 32 * d.rd 0 OPE_SQ_HEAD.IDX) 32)
  else none

/-- Take the descriptor at the head. -/
def Dev.sqTake (d : Dev) : Dev := d.wr 0 OPE_SQ_HEAD.IDX ((d.rd 0 OPE_SQ_HEAD.IDX + 1) % d.rd 0 OPE_SQ_SIZE.SIZE)

/-- A write of OPE_SQ_TAIL (Table OPE-4): where it stands, or forward within the free descriptors. -/
def Dev.sqTailWrite (d : Dev) (v : Nat) : Except Nat Dev :=
  let size := d.rd 0 OPE_SQ_SIZE.SIZE
  if size ≤ v then .error RC.RANGE
  else if (v + size - d.rd 0 OPE_SQ_TAIL.IDX) % size ≤ size - 1 - d.sqWaiting then .ok (d.wr 0 OPE_SQ_TAIL.IDX v)
  else .error RC.RANGE

/-! ### Issue (R316 to R318) -/

/-- Whether a domain is being lowered (R393). -/
def Dev.lowering (d : Dev) (x : Dom) : Bool := d.rd 0 PWR_ENTRY.PHASE = 1 && d.pwr.lower.any fun e => e.1 = x.ix

/-- Issue is stopped: a power-fail warning, a quiesce window, a return under way (R345), the domain of the engine not
ON or being lowered (R324, R325, R393). -/
def Dev.issueStopped (d : Dev) : Bool :=
  d.ope.pfail || d.ope.quiesce.isSome || d.ply.yieldAt.any (fun k => k ≤ d.rd 0 ALC_ROWCNT.ROWS + 1)
    || !d.domOn .ope || d.lowering .ope

/-- The domain an operation targets (Table OPE-1). -/
def Dev.opDom (d : Dev) (o : Op) : Dom :=
  if o.kind = OK.CONT_CLOSE || o.kind = OK.CONT_OPEN then sknDom (d.rd 0 (CTM_CONT_A.PORT (o.arg 8 1)))
  else if o.kind = OK.DIS_CLOSE || o.kind = OK.DIS_OPEN then sknDom (d.rd (o.arg 8 1) OUT_DISSW.PORT)
  else if o.kind = OK.IO_OUT || o.kind = OK.NODE_RD || o.kind = OK.NODE_WR || o.kind = OK.NODE_ARM then sknDom (o.arg 8 1)
  else if o.kind = OK.NVM_WRITE || o.kind = OK.NVM_READ then .mem
  else if o.kind = OK.TX_VEH then .vcm
  else if o.kind = OK.TX_YARN || o.kind = OK.RX_YARN then .plc
  else if o.kind = OK.CRY_OP then .cry
  else if o.kind = OK.CAP_READ then .frc
  else if o.kind = OK.CAL_RUN then (if o.arg 8 1 = 0 then .safe else if o.arg 8 1 = 1 then .core else .vcm)
  else if o.kind = OK.MARK_START || o.kind = OK.MARK_END then .lgl
  else .core

/-- An operation waits unissued while its target is being lowered (R393). -/
def Dev.opWaits (d : Dev) (o : Op) : Bool := d.lowering (d.opDom o)

/-- A free slot of the general pool; the lowest (log entry 20). -/
def Dev.freeSlot (d : Dev) : Option Nat := (List.range 264).find? fun k => (d.opAt k).isNone

/-- Live sessions: AUTHORISED, CHARGING or ENDING. -/
def Dev.sesLive (d : Dev) : Nat := (List.range 64).countP fun m => 3 ≤ d.sesState m && d.sesState m ≤ 5

/-- Condition 3 of R317. -/
def Dev.jnlRoom (d : Dev) : Bool := 2 * d.generalBusy + 360 + 2 * d.sesLive + 3 ≤ d.jnlFree

/-- A non-essential operation (R317, R376). -/
def Op.nonEss (o : Op) : Bool := o.host && !opSafe o.kind && (o.kind = OK.CAL_RUN || !o.ess)

/-- Condition 4 of R317: the throttling pause has passed. -/
def Dev.pauseOver (d : Dev) (o : Op) : Bool :=
  !o.nonEss || (match d.ope.lastNonEss with
    | some t => t + d.rd 0 DTM_STAT.PAUSE_US * ticksPerUs ≤ d.now
    | none => true)

/-- Issue an operation into a slot: its ISSUE record, then its action may begin (R318). -/
def Dev.issueInto (d : Dev) (o : Op) (slot : Nat) : Dev :=
  let (i, d) := d.jnlWrite fun seq time =>
    { kind := 1, cls := o.cls, opkind := o.kind, rclass := opReplay o.kind, slot := slot, tag := o.tag, seq := seq,
      ref := seq, time := time, body := o.args }
  let o := { o with slot := slot, phase := .issued, refSeq := d.jnlSeq, recIdx := i }
  let d := { d with ope := { d.ope with flight := d.ope.flight ++ [o],
                                        lastNonEss := if o.nonEss then some d.now else d.ope.lastNonEss } }
  let d := if o.nonEss && d.on 0 DTM_STAT.PAUSE_US then d.inc 0 DTM_PAUSES.COUNT else d
  d.inc 0 OPE_ISSUED.COUNT

/-- A wait on condition 2 begins or goes on: STALL_CQ at its start, OPE_STALLCQ counts (log entry 21). -/
def Dev.stallCq (d : Dev) (b : Bool) : Dev :=
  let was := d.ope.waitCq
  let d := { d with ope := { d.ope with waitCq := b } }
  if b then (let d := d.incSat 0 OPE_STALLCQ.COUNT; if was then d else d.raise 0 Ev.OPE.STALL_CQ) else d

/-- A wait on condition 3 begins or goes on. -/
def Dev.stallJnl (d : Dev) (b : Bool) : Dev :=
  let was := d.ope.waitJnl
  let d := { d with ope := { d.ope with waitJnl := b } }
  if b then (let d := d.incSat 0 OPE_STALLJNL.COUNT; if was then d else d.raise 0 Ev.OPE.STALL_JNL) else d

/-- The first safe operation waiting, when the slot of its target is free. -/
def Dev.issueSafe (d : Dev) : Option Dev :=
  match d.ope.safeQ with
  | [] => none
  | o :: rest =>
    let slot := safeSlot o.kind (o.arg 8 1)
    if (d.opAt slot).isSome || d.opWaits o then none
    else some (Dev.issueInto { d with ope := { d.ope with safeQ := rest } } o slot)

/-- The first internal operation waiting, when conditions 1 and 3 hold. -/
def Dev.issueInt (d : Dev) : Option Dev :=
  match d.ope.intQ with
  | [] => none
  | o :: rest =>
    match d.freeSlot with
    | none => none
    | some slot =>
      if d.jnlRoom && !d.opWaits o then some (Dev.issueInto { d with ope := { d.ope with intQ := rest } } o slot) else none

/-- The payload CRC of an operation that has one, put in place at issue (R313). -/
def Op.withPayloadCrc (o : Op) (sram : AMap Byte) : Op :=
  if opHasCrc o.kind then
    { o with args := (o.args.take 12) ++ leBytes 4 (crc32c (sram.getBytes (o.arg 16 4) (o.arg 10 2))) ++ o.args.drop 16 }
  else o

/-- Whether an operation merges with an equal safe one (R316). -/
def Op.mergesWith (o x : Op) : Bool := x.kind = o.kind && x.arg 8 1 = o.arg 8 1 && x.phase ≠ .finished

/-- Add a tag to a safe operation. -/
def Op.addTag (tag : Nat) (o : Op) : Op := { o with merged := o.merged ++ [tag] }

/-- Issue or merge the host operation at the head of the ring, a safe one (R316, R317). -/
def Dev.issueHostSafe (d : Dev) (o : Op) : Option Dev :=
  if d.ope.safeQ.any o.mergesWith then
    some { d.sqTake with ope := { d.sqTake.ope with safeQ := mapIf o.mergesWith (Op.addTag o.tag) d.ope.safeQ } }
  else if d.ope.flight.any o.mergesWith then
    some { d.sqTake with ope := { d.sqTake.ope with flight := mapIf o.mergesWith (Op.addTag o.tag) d.ope.flight } }
  else if (d.opAt (safeSlot o.kind (o.arg 8 1))).isSome || d.opWaits o then none
  else some (d.sqTake.issueInto o (safeSlot o.kind (o.arg 8 1)))

/-- Issue the host operation at the head of the ring when all four conditions hold. -/
def Dev.issueHost (d : Dev) (sram : AMap Byte) : Option Dev :=
  match d.sqHead sram with
  | none => none
  | some bs =>
    let o := descOp bs
    if !d.descTake bs then none
    else if opSafe o.kind then d.issueHostSafe o
    else
      match d.freeSlot with
      | none => none
      | some slot =>
        if d.cqCredits ≠ 0 && d.jnlRoom && d.pauseOver o && !d.opWaits o then some (d.sqTake.issueInto (o.withPayloadCrc sram) slot)
        else none

/-- Whether the host ring's head is a valid operation of the general pool. -/
def Dev.hostGeneral (d : Dev) (sram : AMap Byte) : Bool :=
  match d.sqHead sram with
  | some bs => d.descTake bs && !opSafe (descOp bs).kind
  | none => false

/-- Effect of OPERATION_ISSUE: the first source, safe, internal or host, whose first operation can issue issues it
(R317); a source that waits shows it. -/
def operationIssueEffect (sram : AMap Byte) (d : Dev) : Dev :=
  if d.issueStopped then d
  else
    let wantHost := d.hostGeneral sram
    let d := d.stallJnl ((wantHost || !d.ope.intQ.isEmpty) && !d.jnlRoom)
    let d := d.stallCq (wantHost && d.cqCredits = 0)
    match d.issueSafe with
    | some d' => d'
    | none =>
      match d.issueInt with
      | some d' => d'
      | none => (d.issueHost sram).getD d

/-- OPERATION_ISSUE (R317). -/
def execOperationIssue (t : Nat) (s : State) := onDev t (operationIssueEffect s.mem.sram) s

/-- Effect of INVALID_DESCRIPTOR: an invalid descriptor at the head completes with RANGE once a credit is free; the
spec gives its JNL_INDEX no value (R315; log entry 4). -/
def invalidDescriptorEffect (sram : AMap Byte) (d : Dev) : Dev :=
  if d.issueStopped then d
  else
    match d.sqHead sram with
    | none => d
    | some bs =>
      if d.descTake bs || d.cqCredits = 0 then d
      else
        let o := descOp bs
        let d := (d.sqTake.inc 0 OPE_INVALID.COUNT).raise 0 Ev.OPE.INVALID_DESC
        let (x, d) := d.drawBelow 65536
        d.completeRec { tag := o.tag, cls := o.cls, replayed := false, compensated := false, status := 1, jnlIndex := x,
                        time := d.now, hasRec := false } true

/-- INVALID_DESCRIPTOR (R315). -/
def execInvalidDescriptor (t : Nat) (s : State) := onDev t (invalidDescriptorEffect s.mem.sram) s

/-! ### Completion -/

/-- Effect of OPERATION_COMPLETE on the operation in a slot whose result is determined (R319). -/
def operationCompleteEffect (slot : Fin 384) (d : Dev) : Dev :=
  match d.opAt slot with
  | some o => if o.phase = .finished then d.opClose o else d
  | none => d

/-- OPERATION_COMPLETE (R319). -/
def execOperationComplete (t : Nat) (slot : Fin 384) (s : State) := onDev t (operationCompleteEffect slot) s

/-! ### Relocation (R322) -/

/-- Copy a live record to the head: MOVED for an operation's, SESSION for a session's; a DONE record awaiting its entry
is copied as it stands and the entry follows (log entry 22). -/
def Dev.jnlCopy (d : Dev) (i : Nat) (r : JRec) : Dev :=
  let kind := if r.kind = 1 || r.kind = 3 then 3 else r.kind
  let (j, d) := d.jnlWrite fun seq _ => { r with kind := kind, seq := seq }
  let d := d.inc 0 JNL_RELOCS.COUNT
  let ope := d.ope
  if kind = 3 then
    { d with ope := { ope with flight := mapIf (fun o => o.recIdx = i) (fun o => { o with recIdx := j }) ope.flight } }
  else if kind = 4 then { d with ope := { ope with sesRec := ope.sesRec.set (fun _ => 0) (leAt r.body 0 1) (j + 1) } }
  else
    let d := d.setJrec i (some { r with dlv := true })
    { d with host := { d.host with cqHeld := mapIf (fun e => e.hasRec && e.jnlIndex = i)
                                                   (fun e => { e with jnlIndex := j }) d.host.cqHeld } }

/-- Effect of JOURNAL_RELOCATE (R322): dead records at the tail are freed; below RELOC a live one is copied. -/
def journalRelocateEffect (d : Dev) : Dev :=
  let d := d.jnlTail
  let i := d.rd 0 JNL_TAIL.IDX
  match d.jrec i with
  | some r => if d.ope.used ≠ 0 && d.jnlFree < d.rd 0 JNL_CFG.RELOC then (d.jnlCopy i r).jnlTail else d
  | none => d

/-- JOURNAL_RELOCATE (R322). -/
def execJournalRelocate (t : Nat) (s : State) := onDev t journalRelocateEffect s

/-! ### Node and output operations (R143) -/

/-- Send the request of an operation to a node; a port or position that cannot carry it ends it at once (R143). -/
def Dev.nodeOp (d : Dev) (slot : Nat) (o : Op) (op index : Nat) (v : Int) : Dev :=
  let d := d.setOp slot fun o => { o with phase := .acting, time := d.now }
  let (sent, d) := d.ioRequest (o.arg 8 1) (o.arg 9 1) op index v (.op slot)
  if sent then d
  else
    let d := d.opFinish slot (d.ioStatus (o.arg 8 1))
    if o.kind = OK.NODE_ARM || (o.kind = OK.NODE_RD && !o.host) then d.armDone o false else d

/-- Effect of IO_OUT on the operation in a slot: WR_CH. -/
def ioOutEffect (slot : Fin 384) (d : Dev) : Dev :=
  d.act slot OK.IO_OUT fun o d => d.nodeOp slot o 0 (o.arg 10 1) (toSigned 32 (o.arg 12 4))

/-- IO_OUT (R313, R143). -/
def execIoOut (t : Nat) (slot : Fin 384) (s : State) := onDev t (ioOutEffect slot) s

/-- Effect of NODE_RD on the operation in a slot: RD_REG. -/
def nodeRdEffect (slot : Fin 384) (d : Dev) : Dev := d.act slot OK.NODE_RD fun o d => d.nodeOp slot o 3 (o.arg 10 1) 0

/-- NODE_RD (R143). -/
def execNodeRd (t : Nat) (slot : Fin 384) (s : State) := onDev t (nodeRdEffect slot) s

/-- Effect of NODE_WR on the operation in a slot: WR_REG. -/
def nodeWrEffect (slot : Fin 384) (d : Dev) : Dev :=
  d.act slot OK.NODE_WR fun o d => d.nodeOp slot o 2 (o.arg 10 1) (toSigned 32 (o.arg 12 4))

/-- NODE_WR (R143). -/
def execNodeWr (t : Nat) (slot : Fin 384) (s : State) := onDev t (nodeWrEffect slot) s

/-- Effect of NODE_ARM on the operation in a slot: NODE_CTRL.ARM (Table SKN-7). -/
def nodeArmEffect (slot : Fin 384) (d : Dev) : Dev := d.act slot OK.NODE_ARM fun o d => d.nodeOp slot o 2 2 1

/-- NODE_ARM (R147). -/
def execNodeArm (t : Nat) (slot : Fin 384) (s : State) := onDev t (nodeArmEffect slot) s

/-! ### MRAM (R313) -/

/-- Address in `Mem.mram` of a partition: configuration from 0, general from 8 MiB (log entry 23). -/
def mramBase (partition : Nat) : Nat := partition * 0x800000

/-- Effect of NVM_WRITE on the operation in a slot; only operations of its kind reach the memory. -/
def execNvmWrite (t : Nat) (slot : Fin 384) (s : State) : Host.Outcome State Fault Refusal :=
  let d := Dev.at t s.dev
  match d.opAt slot with
  | some o =>
    if o.kind = OK.NVM_WRITE && o.phase = .issued then
      if !d.domOn .mem then .next { s with dev := d.opFinish slot 8 }
      else
      let bs := s.mem.sram.getBytes (o.arg 16 4) (o.arg 10 2)
      .next { s with dev := d.opFinish slot 0,
                     mem := { s.mem with mram := s.mem.mram.setBytes (mramBase (o.arg 8 1) + o.arg 12 4) bs } }
    else .next { s with dev := d }
  | none => .next { s with dev := d }

/-- NVM_READ (R313): the partition's bytes reach the buffer. -/
def execNvmRead (t : Nat) (slot : Fin 384) (s : State) : Host.Outcome State Fault Refusal :=
  let d := Dev.at t s.dev
  match d.opAt slot with
  | some o =>
    if o.kind = OK.NVM_READ && o.phase = .issued then
      if !d.domOn .mem then .next { s with dev := d.opFinish slot 8 }
      else
      let bs := s.mem.mram.getBytes (mramBase (o.arg 8 1) + o.arg 12 4) (o.arg 10 2)
      .next { s with dev := d.opFinish slot 0, mem := { s.mem with sram := s.mem.sram.setBytes (o.arg 16 4) bs } }
    else .next { s with dev := d }
  | none => .next { s with dev := d }

/-! ### Calibration (R313) -/

/-- The block a calibration target belongs to: THM, LSW or the pilot front end. -/
def calTag (target : Nat) : Tag := if target = 0 then .thm else if target = 1 then .lsw else .vcm

/-- Effect of CAL_RUN on the operation in a slot: the zero of a front end is found inside it; no register shows it. -/
def calRunEffect (slot : Fin 384) (d : Dev) : Dev :=
  d.act slot OK.CAL_RUN fun o d =>
    d.opFinish slot (if d.domOn (domOf (calTag (o.arg 8 1)) (o.arg 9 1)) then 0 else 8)

/-- CAL_RUN (R313). -/
def execCalRun (t : Nat) (slot : Fin 384) (s : State) := onDev t (calRunEffect slot) s

end Sys2Proof.Machine
end

