-- ==== Sys2Proof/Machine/Frc.lean ====
section
/-!
DEFINITION. The fault recorder's commands: the commit of its configuration (R370), arming (R371), triggers by software
(R372), readout (R376), and what resets and domains do to it (R377).
-/

namespace Sys2Proof.Machine

/-! ### Configuration (R370, Table FRC-5) -/

/-- Records per second of a source, times 1,000 ticks resolution: a strand's samples, a point's outer-loop samples (its
lead's), 2,000 conversion rounds, 1,000 evaluations. -/
def Dev.frcRate (d : Dev) (typ index : Nat) : Nat :=
  let strRate (s : Nat) : Nat := 2560000000 * (if d.on s STR_CFG.CSAMP then 2 else 1) / max 1 (d.rd s STR_CARRIER.PERIOD)
  if typ = 1 then strRate index
  else if typ = 2 then (match d.leadOf index with | some s => strRate s | none => 0)
  else if typ = 3 then 2000 else 1000

/-- The write load of the active configuration, bytes/s (R370). -/
def Dev.frcLoad (d : Dev) : Nat :=
  ((List.range 16).map fun n =>
    if !d.on 0 (FRC_S_A.EN n) then 0
    else
      let rate := d.frcRate (d.rd 0 (FRC_S_A.TYPE n)) (d.rd 0 (FRC_S_A.INDEX n))
      let red := d.rd 0 (FRC_S_A.REDMASK n)
      (if red.testBit 0 then rate * 32 else 0)
        + (if red.testBit 1 then rate * 64 / max 1 (d.rd 0 (FRC_S_B.BLK n)) else 0)
        + (if red.testBit 2 then rate * 32 / max 1 (d.rd 0 (FRC_S_B.BLK n)) else 0)
        + (if red.testBit 3 then rate * 32 / max 1 (d.rd 0 (FRC_S_B.DECN n)) else 0)).sum

/-- The sum of the region sizes, 64 KiB units. -/
def Dev.frcTotal (d : Dev) : Nat := ((List.range 64).map d.frcUnits).sum

/-- Whether an enabled stream's TYPE, INDEX and REDMASK agree with its sizes and reductions (Table FRC-5). -/
def Dev.frcStreamOk (d : Dev) (n : Nat) : Bool :=
  let en := d.on 0 (FRC_S_A.EN n)
  let typ := d.rd 0 (FRC_S_A.TYPE n)
  let ix := d.rd 0 (FRC_S_A.INDEX n)
  let red := d.rd 0 (FRC_S_A.REDMASK n)
  let sizes := (List.range 4).all fun r => (d.frcUnits (4 * n + r) ≠ 0) == red.testBit r
  let idx := if typ = 1 then ix < 48 else if typ = 2 then ix < 32 else if typ = 3 then ix < 8 else ix = 0
  let blk := !(red.testBit 1 || red.testBit 2) || 2 ≤ d.rd 0 (FRC_S_B.BLK n)
  let dec := !red.testBit 3 || 2 ≤ d.rd 0 (FRC_S_B.DECN n)
  sizes && (!en || (1 ≤ typ && typ ≤ 4 && idx && red ≠ 0 && blk && dec && !(typ = 4 && red.testBit 2)))

/-- The reasons against a commit that would make d' active (R370, R374). -/
def frcReasons (d d' : Dev) (pageExists : Nat → Bool) : List Nat :=
  let st := d.rd 0 FRC_STAT.STATE
  failIf (st = 1 || st = 2) 0x81
    ++ failIf (!((List.range 16).all d'.frcStreamOk)) RC.RANGE
    ++ failIf ((List.range 8).any fun k => d'.on 0 (FRC_TRIG.EN k) && !pageExists (d'.rd 0 (FRC_TRIG.PAGE k))) RC.RANGE
    ++ failIf (256 < d'.frcTotal || 800000000 < d'.frcLoad) RC.CAPACITY

/-- A commit places the regions from eDRAM address 0 in ascending order, and shows the load (R370). -/
def Dev.frcLayout (d : Dev) : Dev :=
  let go (acc : Nat × Dev) (r : Nat) : Nat × Dev :=
    let n := acc.2.frcUnits r
    (acc.1 + n, acc.2.wr 0 (FRC_R_A.BASE r) (if n = 0 then 0 else acc.1))
  let d := ((List.range 64).foldl go (0, d)).2
  d.wrU 0 FRC_LOAD.BPS d.frcLoad

/-! ### Arming (R371) -/

/-- Empty every region and the trigger log. -/
def Dev.frcEmpty (d : Dev) : Dev :=
  let d := { d with frc := { d.frc with regions := [] } }
  let d := (List.range 64).foldl (fun d r =>
    (((d.wr 0 (FRC_R_A.FROZEN r) 0).wr 0 (FRC_R_A.SHORTPRE r) 0).wr 0 (FRC_R_B.FIRST r) 0).wr 0 (FRC_R_C.TRIGIDX r) 0) d
  let d := (List.range 8).foldl (fun d k =>
    ((d.wr 0 (FRC_TLOG_A.VALID k) 0).wr 0 (FRC_TLOG_A.SRC k) 0).wr64 0 (FRC_TLOG_TLO.T k) (FRC_TLOG_THI.T k) 0) d
  (((d.wr 0 FRC_STAT.CUT 0).wr 0 FRC_STAT.LATE 0).wr 0 FRC_STAT.SRC 0).wr64 0 FRC_TTRIG_LO.T FRC_TTRIG_HI.T 0

/-- The recorder arms under a capture number (R371). -/
def Dev.frcArm (d : Dev) (capid : Nat) : Dev :=
  (((d.wr 0 FRC_CAPID.ID capid).frcEmpty).wr 0 FRC_STAT.STATE 1).raise 0 Ev.FRC.ARMED

/-- The recorder returns to IDLE (R371). -/
def Dev.frcDisarm (d : Dev) : Dev := d.wr 0 FRC_STAT.STATE 0

/-- Whether this unit is the arming unit: alone, PLY-A of a join, the active unit of a guard (R332, R371). -/
def Dev.frcMaster (d : Dev) : Bool :=
  match d.rd 0 PLY_CFG.MODE with
  | 1 => d.rd 0 PLY_CFG.ROLE = 0
  | 2 => d.rd 0 PLY_STAT.STATE = 4 || d.rd 0 PLY_STAT.STATE = 6
  | _ => true

/-- Whether a CAP_READ is in flight. -/
def Dev.capReading (d : Dev) : Bool := d.ope.flight.any fun o => o.kind = OK.CAP_READ

/-- A write of FRC_CTL (R371, R372): DISARM, then ARM, then FIRE (log entry 25). -/
def Dev.frcCtl (d : Dev) (v : Nat) : Except Nat Dev :=
  let arm := v.testBit 0
  let fire := v.testBit 1
  let dis := v.testBit 2
  let st := d.rd 0 FRC_STAT.STATE
  let bad := failIf ((arm || dis) && !d.frcMaster) RC.ROLE ++ failIf (arm && !dis && (st = 1 || st = 2)) 0x81
    ++ failIf (arm && d.capReading) 0x82
  match firstReason bad with
  | some c => .error c
  | none =>
    let d := if dis then
        let d := d.frcDisarm
        if d.plyPaired then d.plySend (.trig 1 0 d.now (d.rd 0 FRC_CAPID.ID)) else d
      else d
    let d := if arm then
        let d := d.frcArm ((d.rd 0 FRC_CAPID.ID + 1) % 2 ^ 32)
        if d.plyPaired then d.plySend (.trig 0 0 d.now (d.rd 0 FRC_CAPID.ID)) else d
      else d
    .ok (if fire then d.frcLocal 1 d.now else d)

/-! ### Readout (R376) -/

/-- The bytes CAP_READ copies: entries in time order from the region's oldest. -/
def Dev.capBytes (d : Dev) (r first count : Nat) : List Byte :=
  let size := frcEntrySize (r % 4)
  let base := d.rd 0 (FRC_R_A.BASE r) * 65536
  (List.range count).flatMap fun i =>
    d.edram.getBytes (base + ((d.rd 0 (FRC_R_B.FIRST r) + first + i) % d.frcDepth r) * size) size

/-- The status of a CAP_READ (R376): 1 RANGE, 2 STATE, 0 DONE. -/
def Dev.capStatus (d : Dev) (o : Op) : Nat :=
  let r := 4 * o.arg 8 1 + o.arg 9 1
  let count := o.arg 20 4
  if count = 0 || d.frcDepth r < o.arg 12 4 + count then 1
  else if !d.on 0 (FRC_R_A.FROZEN r) || o.arg 24 4 ≠ d.rd 0 FRC_CAPID.ID then 2
  else 0

/-- CAP_READ on the operation in a slot (R376). -/
def execCapRead (t : Nat) (slot : Fin 384) (s : State) : Host.Outcome State Fault Refusal :=
  let d := Dev.at t s.dev
  match d.opAt slot with
  | some o =>
    if o.kind = OK.CAP_READ && o.phase = .issued then
      if !d.domOn .frc then .next { s with dev := d.opFinish slot 8 }
      else if d.capStatus o ≠ 0 then .next { s with dev := d.opFinish slot (d.capStatus o) }
      else
        let bs := d.capBytes (4 * o.arg 8 1 + o.arg 9 1) (o.arg 12 4) (o.arg 20 4)
        .next { s with dev := d.opFinish slot 0, mem := { s.mem with sram := s.mem.sram.setBytes (o.arg 16 4) bs } }
    else .next { s with dev := d }
  | none => .next { s with dev := d }

/-! ### Resets and domains (R377) -/

/-- A SYS reset at the end of its quiesce window: regions not frozen are cut. -/
def Dev.frcCut (d : Dev) : Dev :=
  let st := d.rd 0 FRC_STAT.STATE
  if st = 1 || st = 2 then
    let open' := d.frcActive.filter fun r => !(d.frcReg r).frozen
    let d := open'.foldl Dev.frcFreeze d
    ((if open'.isEmpty then d else d.wr 0 FRC_STAT.CUT 1).wr 0 FRC_STAT.STATE 3).raise 0 Ev.FRC.FROZEN
  else d

/-- FRC leaves ON while ARMED or POST. -/
def Dev.frcAbort (d : Dev) : Dev :=
  let st := d.rd 0 FRC_STAT.STATE
  if st = 1 || st = 2 then (d.wr 0 FRC_STAT.STATE 0).raise 0 Ev.FRC.ABORT else d

end Sys2Proof.Machine
end

