-- ==== Sys2Proof/Machine/Lsw.lean ====
section
/-!
DEFINITION. Load-switch channels (R179 to R192): current sensing and the time-current curve, the short trip, the
thermal latch, supply dips, retry and lockout, PWM.
-/

namespace Sys2Proof.Machine

/-- A channel's record. -/
def Dev.lswRec (d : Dev) (n : Nat) : Lsw := d.lsw.get (fun _ => {}) n

/-- Change a channel's record. -/
def Dev.modLsw (d : Dev) (n : Nat) (f : Lsw → Lsw) : Dev := { d with lsw := d.lsw.set (fun _ => {}) n (f (d.lswRec n)) }

/-- The state of a channel: 0 OFF, 1 ON, 2 PWM, 3 TRIPPED, 4 LOCKOUT, 5 UV_OFF. -/
def Dev.lswState (d : Dev) (n : Nat) : Nat := d.rd n LSW_STAT.STATE

/-- Whether a channel is on. -/
def Dev.lswOn (d : Dev) (n : Nat) : Bool := d.lswState n = 1 || d.lswState n = 2

/-- Length of a PWM period in ticks. -/
def Dev.pwmTicks (d : Dev) (n : Nat) : Nat := (rdiv ticksPerS (d.rd n LSW_PWM.FREQ)).toNat

/-- Whether PWM holds the gate on at a time: the on-time opens each period, neither time under 2 µs; a duty acts from when
it is written (R192; log entry 329). -/
def Dev.pwmOn (d : Dev) (n t : Nat) : Bool :=
  let duty := d.rd n LSW_DUTY.DUTY
  let x := d.lswRec n
  let (a, per) := if t < x.pwmAt then x.pwmWas else (x.pwmAt, x.pwmPer)
  let least := 2 * ticksPerUs
  if duty = 0 then false
  else if duty = 0xFFFF then true
  else (t - a) % per < max least (min (per - least) (rdiv (duty * per : Nat) 65536).toNat)

/-- Whether the gate is driven on at a time, with STATE and the duty as they stand (R192). Only the active unit of a pair
drives its channel (Table PLY-3). -/
def Dev.gateOn (d : Dev) (n t : Nat) : Bool :=
  !d.plySilent && (d.lswState n = 1 || (d.lswState n = 2 && d.pwmOn n t))

/-- GATE follows. -/
def Dev.lswGate (d : Dev) (n : Nat) : Dev := d.wrB n LSW_STAT.GATE (d.gateOn n d.now)

/-- PWM periods of the frequency in force begin now. -/
def Dev.pwmStart (d : Dev) (n : Nat) : Dev :=
  let p := d.pwmTicks n
  d.modLsw n fun x => { x with pwmAt := d.now, pwmPer := p, pwmWas := (d.now, p) }

/-- A new frequency acts from the end of the running period (R192). -/
def Dev.pwmRetime (d : Dev) (n : Nat) : Dev :=
  let p := d.pwmTicks n
  d.modLsw n fun x =>
    if d.now < x.pwmAt then { x with pwmPer := p }
    else { x with pwmAt := x.pwmAt + ((d.now - x.pwmAt) / x.pwmPer + 1) * x.pwmPer, pwmPer := p,
                  pwmWas := (x.pwmAt, x.pwmPer) }

/-- A channel enters a state. -/
def Dev.setLsw (d : Dev) (n st : Nat) : Dev :=
  let d := if st = 2 && d.lswState n ≠ 2 then d.pwmStart n else d
  (d.wr n LSW_STAT.STATE st).lswGate n

/-- A channel turns on, or on again, in a mode. -/
def Dev.lswTurnOn (d : Dev) (n mode : Nat) : Dev :=
  ((d.setLsw n mode).modLsw n fun x => { x with prev := mode, retry := false, onAt := d.now, uvAt := none })

/-! ### Faults (R189, R191) -/

/-- The place of a fault in the order of R191: SHORT, I2T, TJ, DT, SENS_FET. -/
def lswRank (f : Nat) : Nat := match f with | 2 => 1 | 1 => 2 | 4 => 3 | 3 => 4 | 5 => 5 | _ => 6

/-- Whether two instants fall in one 100 µs step. -/
def sameStep (a b : Nat) : Bool := a / (100 * ticksPerUs) = b / (100 * ticksPerUs)

/-- Record a fault; in one step the first of R191 stands. -/
def Dev.lswFault (d : Dev) (n f : Nat) : Dev :=
  let x := d.lswRec n
  if d.rd n LSW_STAT.FAULT ≠ 0 && sameStep x.faultAt d.now && lswRank (d.rd n LSW_STAT.FAULT) < lswRank f then d
  else (d.wr n LSW_STAT.FAULT f).modLsw n fun x => { x with faultAt := d.now }

/-- A switch-off of this 100 µs step stands: with a trip or a latching of the step the channel ends OFF (R191). -/
def Dev.lswOffNow (d : Dev) (n : Nat) : Bool :=
  d.lswState n = 0 && (d.lswRec n).offAt.any fun a => sameStep a d.now

/-- A trip I2T or SHORT (R183, R185, R189): recorded and counted; the channel is TRIPPED, or in LOCKOUT when no restart is
left. One already in LOCKOUT stays there. Whichever its state, a channel takes the short trip, which has no condition;
one that was OFF has OFF as the mode to return to (log entry 330). I2T trips a channel that is on, or was till another
trip of this step. -/
def Dev.lswTrip (d : Dev) (n f : Nat) : Dev :=
  let x := d.lswRec n
  let st := d.lswState n
  let live := f = 2 || st = 1 || st = 2 || ((st = 3 || st = 4) && sameStep x.faultAt d.now)
  let offNow := d.lswOffNow n
  if !live && !offNow then d
  else
    let d := ((d.lswFault n f).inc n LSW_TRIPS.COUNT).raise n (if f = 1 then Ev.LSW.TRIP_I2T else Ev.LSW.TRIP_SHORT)
    if offNow || st = 4 then d
    else if d.rd n LSW_RETRY.MAX ≤ d.rd n LSW_STAT.RETRIES then (d.setLsw n 4).raise n Ev.LSW.LOCKOUT
    else
      (d.setLsw n 3).modLsw n fun x =>
        { x with prev := if st < 3 then st else x.prev, retry := true, tripAt := d.now, uvAt := none }

/-- A thermal latching (R186, R187, R189): the channel turns off; LOCKOUT when THTRIPS reaches TH_MAX. -/
def Dev.lswLatch (d : Dev) (n f : Nat) : Dev :=
  let st := d.lswState n
  let d := ((d.lswFault n f).wr n LSW_STAT.TLATCH 1).incSat n LSW_STAT.THTRIPS
  let d := (d.inc n LSW_TRIPS.COUNT).raise n Ev.LSW.TRIP_THERM
  let d := if st = 1 || st = 2 then (d.setLsw n 3).modLsw n fun x => { x with prev := st, retry := false } else d
  if st ≠ 4 && !d.lswOffNow n && d.rd n LSW_RETRY.TH_MAX ≤ d.rd n LSW_STAT.THTRIPS then
    (d.setLsw n 4).raise n Ev.LSW.LOCKOUT
  else d

/-- The latch clears (R186, R189): a channel that only the latch held returns to its mode without a retry. -/
def Dev.lswUnlatch (d : Dev) (n : Nat) : Dev :=
  let x := d.lswRec n
  let d := d.wr n LSW_STAT.TLATCH 0
  if d.lswState n = 3 && !x.retry && (x.prev = 1 || x.prev = 2) then d.lswTurnOn n x.prev else d

/-- Whether a channel's FET sensor is broken. -/
def Dev.thmBroken (d : Dev) (c : Nat) : Bool := d.rd c THM_STAT.BROKEN ≠ 0

/-- The evaluation at a conversion of a channel's FET sensor (R186, R187). -/
def Dev.lswThermal (d : Dev) (n : Nat) : Dev :=
  let fet := d.rd n LSW_TSRC.FET
  let cas := d.rd n LSW_TSRC.CASE
  let caseBad := d.thmBroken cas
  let tf := d.rdI fet THM_TEMP.T
  let tc := if caseBad then d.rdI n LSW_TDEF.CASE_DEF else d.rdI cas THM_TEMP.T
  let dt := tf - tc
  let d := ((d.wrI n LSW_TEMP.TFET tf).wrI n LSW_TEMP.DT dt).wrB n LSW_STAT.CASE_DEF caseBad
  let d := d.level n Ev.LSW.CASE_DEF caseBad
  let lim : Int := d.rd n LSW_TLIM.DT_LIM * 10
  let tj : Int := d.rd n LSW_TLIM.TJ_MAX
  let latched := d.on n LSW_STAT.TLATCH
  if d.thmBroken fet then (if latched then d else d.lswLatch n 5)
  else if d.rd fet THM_TEMP.VALID = 0 then d
  else if !latched then
    if tj < tf then d.lswLatch n 4 else if lim < dt then d.lswLatch n 3 else d
  else if dt ≤ lim - d.rd n LSW_TLIM.DT_HYS * 10 && tf ≤ tj - 100 then d.lswUnlatch n
  else d

/-- The enabled channels whose FET sensor is a THM channel. -/
def Dev.lswOf (d : Dev) (c : Nat) : List Nat :=
  (List.range 24).filter fun n => d.on n LSW_CFG.EN && d.rd n LSW_TSRC.FET = c

/-! ### The time-current curve (R182, R183) -/

/-- I_eff of the step that ended last, mA, from the shunt voltages of its 100 samples, µV, each within ±100 mV; a sample
taken while PWM holds the gate off is zero (R182; log entry 329). -/
def Dev.lswIeff (d : Dev) (n : Nat) (uv : List Int) : Nat :=
  let begins := (d.now / (100 * ticksPerUs) - 1) * (100 * ticksPerUs)
  let sq (i : Nat) : Nat :=
    if d.lswState n = 2 && !d.gateOn n (begins + i * ticksPerUs) then 0
    else (rdiv (clampI (-100000) 100000 (uv.getD i 0) * 1000) (d.rd n LSW_RSHUNT.UOHM)).natAbs ^ 2
  let sum := ((List.range 100).map sq).sum
  let r := Nat.sqrt (sum / 100)
  if 25 * (2 * r + 1) ^ 2 ≤ sum then r + 1 else r

/-- 1/T of curve point k. -/
def Dev.lswInvT (d : Dev) (n k : Nat) : B64 := (B64.ofInt 1).div (B64.ofInt (d.rd n (LSW_CURVE_T.MS k)))

/-- The rate per ms at x mA² (R183), in binary64. -/
def Dev.lswRate (d : Dev) (n x : Nat) : B64 :=
  let i2 (k : Nat) : Nat := d.rd n (LSW_CURVE_I.MA k) * d.rd n (LSW_CURVE_I.MA k)
  if i2 7 ≤ x then
    (B64.ofInt x).div ((B64.ofInt (i2 7)).mul (B64.ofInt (d.rd n (LSW_CURVE_T.MS 7))))
  else
    let k := ((List.range 8).filter fun k => i2 k ≤ x).getLastD 0
    (d.lswInvT n k).add ((((B64.ofInt (x - i2 k : Nat)).mul ((d.lswInvT n (k + 1)).sub (d.lswInvT n k)))).div
      (B64.ofInt (i2 (k + 1) - i2 k : Nat)))

/-- The accumulator after a step at I_eff (R183). -/
def Dev.lswAcc (d : Dev) (n ieff : Nat) : Nat :=
  let a := d.rd n LSW_ACC.A
  let x := ieff * ieff
  let i0 := d.rd n (LSW_CURVE_I.MA 0)
  if x < i0 * i0 then a - (rdiv (a * 100 : Nat) (d.rd n LSW_DECAY.TAU_S * 1000000)).toNat
  else
    let tenth := B64.ofRat (mkRat 1 10)
    let inc := (((B64.ofInt (2 ^ 30)).mul tenth).mul (d.lswRate n x)).toInt 1
    min (2 ^ 30) (a + (max 1 inc).toNat)

/-- Effect of LSW_STEP: a 100 µs step of a channel, on or off (R182, R183). A disabled one that has no curve, as after
reset, accumulates nothing (log entry 330). -/
def lswStepEffect (n : Fin 24) (uv : List Int) (d : Dev) : Dev :=
  if !d.domOn .core || (!d.on n LSW_CFG.EN && d.rd n (LSW_CURVE_I.MA 7) = 0) then d
  else
    let i := d.lswIeff n uv
    let a := d.lswAcc n i
    let d := (d.wrU n LSW_I.MA i).wr n LSW_ACC.A a
    if a = 2 ^ 30 then d.lswTrip n 1 else d

/-- LSW_STEP (R183). -/
def execLswStep (t : Nat) (n : Fin 24) (uv : List Int) (s : State) := onDev t (lswStepEffect n uv) s

/-- Effect of LSW_SHORT_TRIP (R185). -/
def lswShortTripEffect (n : Fin 24) (d : Dev) : Dev :=
  if d.domOn .core then (d.wr n LSW_ACC.A (2 ^ 30)).lswTrip n 2 else d

/-- LSW_SHORT_TRIP (R185). -/
def execLswShortTrip (t : Nat) (n : Fin 24) (s : State) := onDev t (lswShortTripEffect n) s

/-! ### Supply dips (R188) -/

/-- Effect of VAUX24_MEASURE, in 10 mV: shown on every page; UV_HOLD below 9 V. -/
def vaux24MeasureEffect (v : Nat) (d : Dev) : Dev :=
  let hold := decide (v < 900)
  let d := (List.range 24).foldl (fun d n => (d.wrU n LSW_VAUX.MV v).wrB n LSW_STAT.UV_HOLD hold) d
  { d with vaux := { low := if v < 550 then d.vaux.low + 1 else 0,
                     above := if 900 < v then (if d.vaux.above.isNone then some d.now else d.vaux.above) else none } }

/-- VAUX24_MEASURE (R188). -/
def execVaux24Measure (t : Nat) (mv10 : Nat) (s : State) := onDev t (vaux24MeasureEffect mv10) s

/-- Effect of LSW_UV_OFF: 2 consecutive measurements below 5.5 V (R188). -/
def lswUvOffEffect (d : Dev) : Dev :=
  if d.vaux.low < 2 then d
  else
    (List.range 24).foldl (fun d n =>
      if d.lswOn n then
        let st := d.lswState n
        ((d.setLsw n 5).modLsw n fun x => { x with prev := st, uvAt := none }).raise n Ev.LSW.UV_OFF
      else if d.lswState n = 5 then d.modLsw n fun x => { x with uvAt := none }
      else d) d

/-- LSW_UV_OFF (R188). -/
def execLswUvOff (t : Nat) (s : State) := onDev t lswUvOffEffect s

/-- Whether VAUX24 has been above 9 V for 10 ms. -/
def Dev.vauxGood (d : Dev) : Bool :=
  match d.vaux.above with
  | some a => a + 10 * ticksPerMs ≤ d.now
  | none => false

/-- Effect of LSW_UV_RECOVER: channels without RECOVER go OFF; the others are to return in ascending order, 10 ms
apart (R188). -/
def lswUvRecoverEffect (d : Dev) : Dev :=
  if !d.vauxGood then d
  else
    let ns := (List.range 24).filter fun n => d.lswState n = 5 && (d.lswRec n).uvAt.isNone
    let go (acc : Nat × Dev) (n : Nat) : Nat × Dev :=
      let d := acc.2.raise n Ev.LSW.UV_RECOVER
      if d.on n LSW_CFG.RECOVER then
        (acc.1 + 10 * ticksPerMs, d.modLsw n fun x => { x with uvAt := some acc.1 })
      else (acc.1, d.setLsw n 0)
    (ns.foldl go (d.now, d)).2

/-- LSW_UV_RECOVER (R188). -/
def execLswUvRecover (t : Nat) (s : State) := onDev t lswUvRecoverEffect s

/-- Effect of LSW_UV_STAGGER_ON: the channel's turn to return; a thermal latch governs (R188, R191). -/
def lswUvStaggerOnEffect (n : Fin 24) (d : Dev) : Dev :=
  match (d.lswRec n).uvAt with
  | some a =>
    if d.lswState n = 5 && a ≤ d.now then
      if d.on n LSW_STAT.TLATCH then
        (d.setLsw n 3).modLsw n fun x => { x with uvAt := none, retry := false }
      else d.lswTurnOn n (d.lswRec n).prev
    else d
  | none => d

/-- LSW_UV_STAGGER_ON (R188). -/
def execLswUvStaggerOn (t : Nat) (n : Fin 24) (s : State) := onDev t (lswUvStaggerOnEffect n) s

/-! ### Retry, counters, clear (R189, R190) -/

/-- Effect of LSW_RETRY_RESTART (R189). -/
def lswRetryRestartEffect (n : Fin 24) (d : Dev) : Dev :=
  let x := d.lswRec n
  if d.lswState n = 3 && x.retry && x.tripAt + d.rd n LSW_RETRY.DELAY_MS * ticksPerMs ≤ d.now
      && !d.on n LSW_STAT.TLATCH && d.rd n LSW_ACC.A * 100 ≤ d.rd n LSW_RETRY.REARM_PCT * 2 ^ 30
      && d.vaux.above.isSome && d.rd n LSW_STAT.RETRIES < d.rd n LSW_RETRY.MAX then
    ((d.inc n LSW_STAT.RETRIES).lswTurnOn n x.prev).raise n Ev.LSW.RETRY
  else d

/-- LSW_RETRY_RESTART (R189). -/
def execLswRetryRestart (t : Nat) (n : Fin 24) (s : State) := onDev t (lswRetryRestartEffect n) s

/-- Effect of LSW_COUNTER_RESET (R189). -/
def lswCounterResetEffect (n : Fin 24) (d : Dev) : Dev :=
  if d.lswOn n && (d.lswRec n).onAt + d.rd n LSW_RETRY2.RESET_S * ticksPerS ≤ d.now then
    (d.wr n LSW_STAT.RETRIES 0).wr n LSW_STAT.THTRIPS 0
  else d

/-- LSW_COUNTER_RESET (R189). -/
def execLswCounterReset (t : Nat) (n : Fin 24) (s : State) := onDev t (lswCounterResetEffect n) s

/-- A write of LSW_CLR (R190). -/
def Dev.lswClear (d : Dev) (n code : Nat) : Except Nat Dev :=
  if code ≠ d.rd n LSW_STAT.FAULT then .error 0x81
  else
    let d := ((d.wr n LSW_STAT.RETRIES 0).wr n LSW_STAT.THTRIPS 0).wr n LSW_STAT.FAULT 0
    .ok (if d.lswState n = 4 then (d.setLsw n 0).modLsw n fun x => { x with retry := false, prev := 0 } else d)

/-- A write of LSW_DUTY (R192). -/
def Dev.lswDuty (d : Dev) (n duty : Nat) : Except Nat Dev :=
  if d.on n LSW_CFG.AUXOWN then .error 0x83 else .ok ((d.wr n LSW_DUTY.DUTY duty).lswGate n)

/-! ### Operations (R181, R190) -/

/-- Switch a channel off: a pending restart is cancelled; LOCKOUT stays, but for one of a trip in this step (R191). -/
def Dev.lswSwitchOff (d : Dev) (n : Nat) : Dev :=
  let stays := d.lswState n = 4 && !sameStep (d.lswRec n).faultAt d.now
  let d := d.modLsw n fun x => { x with prev := 0, retry := false, uvAt := none, offAt := some d.now }
  if stays then d else d.setLsw n 0

/-- Switch a channel on in a mode: status STATE where it may not be (R181). -/
def Dev.lswSwitchOn (d : Dev) (slot n mode : Nat) : Dev :=
  let st := d.lswState n
  if !d.on n LSW_CFG.EN || 3 ≤ st || d.on n LSW_STAT.TLATCH then d.opFinish slot 2
  else
    let d := if d.lswOn n then (d.setLsw n mode).modLsw n fun x => { x with prev := mode } else d.lswTurnOn n mode
    d.opFinish slot 0

/-- Effect of LSW_OFF on the operation in a slot. -/
def lswOffEffect (slot : Fin 384) (d : Dev) : Dev :=
  d.act slot OK.LSW_OFF fun o d =>
    if !d.domOn .core then d.opFinish slot 8 else (d.lswSwitchOff (o.arg 8 1)).opFinish slot 0

/-- LSW_OFF (R181). -/
def execLswOff (t : Nat) (slot : Fin 384) (s : State) := onDev t (lswOffEffect slot) s

/-- Effect of LSW_ON on the operation in a slot. -/
def lswOnEffect (slot : Fin 384) (d : Dev) : Dev :=
  d.act slot OK.LSW_ON fun o d => if !d.domOn .core then d.opFinish slot 8 else d.lswSwitchOn slot (o.arg 8 1) 1

/-- LSW_ON (R181). -/
def execLswOn (t : Nat) (slot : Fin 384) (s : State) := onDev t (lswOnEffect slot) s

/-- Effect of LSW_PWM on the operation in a slot: its duty is taken when the channel may switch on. -/
def lswPwmEffect (slot : Fin 384) (d : Dev) : Dev :=
  d.act slot OK.LSW_PWM fun o d =>
    let n := o.arg 8 1
    if !d.domOn .core then d.opFinish slot 8
    else if !d.on n LSW_CFG.EN || 3 ≤ d.lswState n || d.on n LSW_STAT.TLATCH then d.opFinish slot 2
    else (d.wr n LSW_DUTY.DUTY (o.arg 12 2)).lswSwitchOn slot n 2

/-- LSW_PWM (R181). -/
def execLswPwm (t : Nat) (slot : Fin 384) (s : State) := onDev t (lswPwmEffect slot) s

/-- Every channel turns off when CORE leaves ON (R180); in RET a LOCKOUT stands, which only LSW_CLR ends (R190). -/
def Dev.lswAllOff (d : Dev) : Dev :=
  (List.range 24).foldl (fun d n =>
    (if d.lswState n = 4 then d else d.wr n LSW_STAT.STATE 0).wr n LSW_STAT.GATE 0) { d with lsw := [] }

end Sys2Proof.Machine
end

