-- ==== Sys2Proof/Machine/Thermal.lean ====
section
/-!
DEFINITION. Temperatures (chapter "Cable and Connector Thermal Management"): channels and their conversions (R162 to
R165), the hardware over-temperature path (R166, R167), the cable model and its headroom (R168 to R173, R176), rate of
rise (R174, R175), die temperature (R177, R178).
-/

namespace Sys2Proof.Machine

/-! ### Channels (R162 to R165) -/

/-- A channel's record. -/
def Dev.thmRec (d : Dev) (c : Nat) : Thm := d.thm.get (fun _ => {}) c

/-- Change a channel's record. -/
def Dev.modThm (d : Dev) (c : Nat) (f : Thm → Thm) : Dev := { d with thm := d.thm.set (fun _ => {}) c (f (d.thmRec c)) }

/-- ln 16 in units of 2^-96. -/
def ln16Fx : Int := lnFx 16 1

/-- The temperature a raw value stands for in 0.1 °C, THM_OFS included, unrounded; none when it is not a number (R163,
R164). -/
def Dev.thmExact (d : Dev) (c raw : Nat) : Option Rat :=
  let ofs : Rat := mkRat (d.rdI c THM_OFS.OFS) 100
  if d.rd c THM_CFG.MODE = 1 then
    let dv : Rat := (raw : Int) - 150 * (d.rd c THM_DIODE.RSER : Int)
    let n := d.rd c THM_DIODE.IDEAL
    if n = 0 then none
    else
      let den : Rat := mkRat ((n : Int) * 861733 * ln16Fx) (10 ^ 8 * 2 ^ 96)
      some ((dv / 10 / den - mkRat 27315 100 + ofs) * 10)
  else
    let num := d.rd c THM_RBIAS.OHM * raw
    let den := (2 ^ 32 - raw) * d.rd c THM_NTC_RNOM.OHM
    let b := d.rd c THM_NTC_B.K
    if num = 0 || den = 0 || b = 0 then none
    else
      let inv : Rat := mkRat 100 29815 + mkRat (lnFx num den) (2 ^ 96) / b
      if inv.num ≤ 0 then none else some ((1 / inv - mkRat 27315 100 + ofs) * 10)

/-- The reading of a raw value, 0.1 °C (R162). -/
def Dev.thmTemp (d : Dev) (c raw : Nat) : Option Int := (d.thmExact c raw).map rround

/-- The conditions of R165 a conversion meets: open, short, range. `vf` is the forward voltage at I1, µV. -/
def Dev.thmBad (d : Dev) (c raw vf : Nat) : Bool × Bool × Bool :=
  let range := match d.thmExact c raw with
    | some t => t < -550 || 2000 < t
    | none => true
  if d.rd c THM_CFG.MODE = 1 then (1000000 < vf, vf < 200000, range)
  else (990 * 2 ^ 32 < 1000 * raw, 1000 * raw < 5 * 2 ^ 32, range)

/-- Whether a measured value lies on the hot side of the comparator's threshold, whose error within ±2 K is the
channel's own: a ratio too low for any temperature lies beyond it (R166). -/
def Dev.thmHot (d : Dev) (c raw : Nat) : Bool :=
  match d.thmTemp c raw with
  | some t => d.rdI c THM_HWTRIP.TRIP + (d.thmRec c).cmpErr ≤ t
  | none => d.rd c THM_CFG.MODE = 2 && (raw = 0
      || (raw < 2 ^ 32 && d.rd c THM_RBIAS.OHM ≠ 0 && d.rd c THM_NTC_RNOM.OHM ≠ 0 && d.rd c THM_NTC_B.K ≠ 0))

/-- Whether the comparator stands tripped. -/
def Dev.cmpTripped (d : Dev) (c : Nat) : Bool := d.on c THM_CFG.HWEN && 2 ≤ (d.thmRec c).hotN

/-- The cool-down conditions of R167. -/
def Dev.coolOk (d : Dev) (c : Nat) : Bool :=
  d.on c THM_TEMP.VALID && d.rdI c THM_TEMP.T ≤ d.rdI c THM_HWTRIP.REL && !d.cmpTripped c

/-- Follow the cool-down timer of a tripped channel. -/
def Dev.coolWatch (d : Dev) (c : Nat) : Dev :=
  let x := d.thmRec c
  if x.trip = 0 then d
  else
    let ok := d.coolOk c
    d.modThm c fun x => { x with coolAt := if ok then (if x.coolAt.isNone then some d.now else x.coolAt) else none }

/-- A clean reading is taken (R162): the register, the row's readings, the history. -/
def Dev.thmTake (d : Dev) (c : Nat) (t : Int) : Dev :=
  let keep := 1100 * ticksPerMs
  let d := d.modThm c fun x =>
    { x with lastAt := d.now, last := t, rowSum := x.rowSum + t, rowN := x.rowN + 1,
             hist := List.take 2400 ((d.now, t) :: x.hist.filter fun e => d.now < e.1 + keep) }
  (d.wrI c THM_TEMP.T t).wr c THM_TEMP.VALID 1

/-- The THM record of the recorder: one per round of a group, at its last channel's conversion (Table FRC-1). -/
def Dev.thmRecord (d : Dev) (c : Nat) : Dev :=
  if c % 8 ≠ 7 then d
  else
    let g := c / 8
    let mask (p : Nat → Bool) : Nat := ((List.range 8).map fun i => if p (8 * g + i) then 2 ^ i else 0).sum
    let valid : FrcFld := .mask 1 (mask fun c => d.on c THM_TEMP.VALID)
    let trip : FrcFld := .mask 1 (mask fun c => d.on c THM_STAT.HWTRIP)
    let temps := (List.range 8).map fun i =>
      FrcFld.num 2 (d.rdI (8 * g + i) THM_TEMP.T) (d.on (8 * g + i) THM_TEMP.VALID)
    d.frcRecord 3 g { time := d.now / 1280000 * 1280000, missed := false,
                      flds := [valid, trip, .mask 2 0] ++ temps ++ [.mask 4 0, .mask 4 0] }

/-- A channel's slot of the round is now, and it has not been converted in this round: channel 4k + j has the 125 µs from
125 × j µs (R162, R440; log entry 327). -/
def Dev.thmSlot (d : Dev) (c : Nat) : Bool :=
  d.now % 1280000 / 320000 = c % 4 && (d.thmRec c).round ≠ some (d.now / 1280000)

/-- Effect of THM_CONVERSION: a conversion's raw value and, in DIODE mode, the forward voltage at I1 (R162 to R166);
the channels that take it as their FET temperature evaluate it (R186). -/
def thmConversionEffect (c : Fin 64) (raw vf : Nat) (d : Dev) : Dev :=
  if d.rd c THM_CFG.MODE = 0 || !d.domOn .safe || !d.thmSlot c then d
  else
    let d := d.modThm c fun x => { x with round := some (d.now / 1280000) }
    let d := (d.wrU c THM_RAW.RAW raw).inc c THM_CONV.COUNT
    let (o, sh, rg) := d.thmBad c raw vf
    let hot := d.thmHot c raw
    let d := d.modThm c fun x =>
      { x with openN := if o then x.openN + 1 else 0, shortN := if sh then x.shortN + 1 else 0,
               rangeN := if rg then x.rangeN + 1 else 0, cleanN := if o || sh || rg then 0 else x.cleanN + 1,
               hotN := if hot then x.hotN + 1 else 0 }
    let clean := !(o || sh || rg)
    let d := if clean && !d.thmBroken c then d.thmTake c ((d.thmTemp c raw).getD 0)
      else if clean then d.modThm c fun x => { x with last := (d.thmTemp c raw).getD 0 } else d
    let d := d.coolWatch c
    let d := if clean || d.thmBroken c then (d.lswOf c).foldl Dev.lswThermal d else d
    d.thmRecord c

/-- THM_CONVERSION (R162). -/
def execThmConversion (t : Nat) (c : Fin 64) (raw vf : Nat) (s : State) := onDev t (thmConversionEffect c raw vf) s

/-- Effect of THM_BROKEN: one condition held for 3 consecutive conversions (R165). -/
def thmBrokenEffect (c : Fin 64) (d : Dev) : Dev :=
  let x := d.thmRec c
  let cause := if 3 ≤ x.openN then 1 else if 3 ≤ x.shortN then 2 else if 3 ≤ x.rangeN then 3 else 0
  if cause = 0 || d.thmBroken c then d
  else
    let d := ((d.wr c THM_TEMP.VALID 0).wr c THM_STAT.BROKEN cause).raise c Ev.THM.BROKEN
    (d.lswOf c).foldl Dev.lswThermal (d.coolWatch c)

/-- THM_BROKEN (R165). -/
def execThmBroken (t : Nat) (c : Fin 64) (s : State) := onDev t (thmBrokenEffect c) s

/-- Effect of THM_RECOVERED: 20 consecutive clean conversions (R165). -/
def thmRecoveredEffect (c : Fin 64) (d : Dev) : Dev :=
  let x := d.thmRec c
  if !d.thmBroken c || x.cleanN < 20 then d
  else
    let d := (d.wr c THM_STAT.BROKEN 0).raise c Ev.THM.RECOVERED
    let d := (d.thmTake c x.last).coolWatch c
    (d.lswOf c).foldl Dev.lswThermal d

/-- THM_RECOVERED (R165). -/
def execThmRecovered (t : Nat) (c : Fin 64) (s : State) := onDev t (thmRecoveredEffect c) s

/-! ### The hardware path (R166, R167) -/

/-- Effect of HW_COMPARATOR_TRIP: an armed comparator, hot in 2 consecutive cycles, trips towards the island; a renewed
trip restarts the cool-down. -/
def hwComparatorTripEffect (c : Fin 64) (d : Dev) : Dev :=
  if !d.cmpTripped c then d
  else
    let d := d.modThm c fun x =>
      { x with trip := if x.trip = 2 then 2 else 1, tripPt := if x.trip = 0 then d.rd c THM_CFG.HWPT else x.tripPt,
               coolAt := none }
    (d.wr c THM_STAT.HWTRIP 1).level c Ev.THM.HWTRIP true

/-- HW_COMPARATOR_TRIP (R166). -/
def execHwComparatorTrip (t : Nat) (c : Fin 64) (s : State) := onDev t (hwComparatorTripEffect c) s

/-- Whether a hardware trip taken by the island acts on a point. -/
def Dev.hwTripOn (d : Dev) (p : Nat) : Bool :=
  (List.range 64).any fun c => let x := d.thmRec c; x.trip = 2 && x.tripPt = p

/-- Seconds left to the release of a tripped channel, rounded up (THM_STAT.COOL_LEFT). -/
def Dev.coolLeft (d : Dev) (c : Nat) : Nat :=
  let x := d.thmRec c
  let full := d.rd c THM_HWCOOL.COOL_S
  if x.trip = 0 then 0
  else match x.coolAt with
    | some a => (a + full * ticksPerS - d.now + ticksPerS - 1) / ticksPerS
    | none => full

/-- Effect of HW_COOL_RELEASE: the conditions of R167 have held for COOL_S, and hold: after a soft reset of the page, which
leaves the timer as it is, not before the channel is valid again (log entry 328). -/
def hwCoolReleaseEffect (c : Fin 64) (d : Dev) : Dev :=
  let x := d.thmRec c
  match x.coolAt with
  | some a =>
    if x.trip = 2 && d.coolOk c && a + d.rd c THM_HWCOOL.COOL_S * ticksPerS ≤ d.now then
      let d := d.modThm c fun x => { x with trip := 0, coolAt := none }
      ((d.wr c THM_STAT.HWTRIP 0).level c Ev.THM.HWTRIP false).raise c Ev.THM.HWREL
    else d
  | none => d

/-- HW_COOL_RELEASE (R167). -/
def execHwCoolRelease (t : Nat) (c : Fin 64) (s : State) := onDev t (hwCoolReleaseEffect c) s

/-! ### The cable model (R168 to R171) -/

/-- A cable's record. -/
def Dev.cblRec (d : Dev) (i : Nat) : Cbl := d.cbl.get (fun _ => {}) i

/-- Change a cable's record. -/
def Dev.modCbl (d : Dev) (i : Nat) (f : Cbl → Cbl) : Dev := { d with cbl := d.cbl.set (fun _ => {}) i (f (d.cblRec i)) }

/-- The mean of a channel's readings in the row just ended, in °C; none while it is broken or had none (R170). -/
def Dev.rowMean (d : Dev) (c : Nat) : Option B64 :=
  let x := d.thmRec c
  if d.on c THM_TEMP.VALID && x.prevN ≠ 0 then some (B64.ofRat (mkRat x.prevSum (10 * x.prevN))) else none

/-- The row's readings become those of the row ended. -/
def Dev.thmRowTurn (d : Dev) : Dev :=
  { d with thm := (List.range 64).foldl (fun m c =>
      let x := AMap.get (fun _ => {}) m c
      AMap.set (fun _ => {}) m c { x with prevSum := x.rowSum, prevN := x.rowN, rowSum := 0, rowN := 0 }) d.thm }

/-- The valid pin readings of a cable's row. -/
def Dev.pinMeans (d : Dev) (i : Nat) : List B64 :=
  (List.range 4).filterMap fun k => if d.on i (CBL_PINSRC.EN k) then d.rowMean (d.rd i (CBL_PINSRC.CH k)) else none

/-- The valid inlet and outlet readings. -/
def Dev.coolMeans (d : Dev) (i : Nat) : Option B64 × Option B64 :=
  (if d.on i CBL_ENVSRC.IN_EN then d.rowMean (d.rd i CBL_ENVSRC.INLET) else none,
   if d.on i CBL_ENVSRC.OUT_EN then d.rowMean (d.rd i CBL_ENVSRC.OUTLET) else none)

/-- The greatest of finite values. -/
def b64Max : List B64 → B64
  | [] => .fin 0
  | x :: xs => xs.foldl (fun a b => if a.toRat < b.toRat then b else a) x

/-- The least of finite values. -/
def b64Min : List B64 → B64
  | [] => .fin 0
  | x :: xs => xs.foldl (fun a b => if b.toRat < a.toRat then b else a) x

/-- Parameters of a cable in Ω, J/K, W/K (Table CBL-2). -/
structure CblPar where
  rc : B64
  alpha : B64
  rp : B64
  rhs : B64
  cc : B64
  cp : B64
  cw : B64
  gcw : B64
  gpw : B64
  gpc : B64
  gca : B64
  gwf : B64

/-- Read the parameters. -/
def Dev.cblPar (d : Dev) (i : Nat) : CblPar :=
  let q (f : Field) (k : Nat) : B64 := B64.ofRat (mkRat (d.rd i f) k)
  { rc := q CBL_RC.UOHM 1000000, alpha := q CBL_ALPHA.PPM 1000000, rp := q CBL_RP.UOHM 1000000,
    rhs := q CBL_RHS.MKW 1000, cc := q CBL_CC.C 10, cp := q CBL_CP.C 10, cw := q CBL_CW.C 10, gcw := q CBL_GCW.G 1000,
    gpw := q CBL_GPW.G 1000, gpc := q CBL_GPC.G 1000, gca := q CBL_GCA.G 1000, gwf := q CBL_GWF.G 1000 }

/-- h = 100 µs. -/
def hSub : B64 := B64.ofRat (mkRat 1 10000)

/-- One substep of R169: Tc, Tp, Tw from the old values. -/
def cblSub (p : CblPar) (i2 ta tin : B64) (x : B64 × B64 × B64) : B64 × B64 × B64 :=
  let (tc, tp, tw) := x
  let pc := (i2.mul p.rc).mul ((B64.ofInt 1).add (p.alpha.mul (tc.sub (B64.ofInt 20))))
  let pp := i2.mul p.rp
  let ec := ((pc.sub (p.gcw.mul (tc.sub tw))).sub (p.gpc.mul (tc.sub tp))).sub (p.gca.mul (tc.sub ta))
  let ep := (pp.sub (p.gpw.mul (tp.sub tw))).sub (p.gpc.mul (tp.sub tc))
  let ew := ((p.gcw.mul (tc.sub tw)).add (p.gpw.mul (tp.sub tw))).sub (p.gwf.mul (tw.sub tin))
  (tc.add ((hSub.div p.cc).mul ec), tp.add ((hSub.div p.cp).mul ep), tw.add ((hSub.div p.cw).mul ew))

/-- So many substeps. -/
def cblSubs (p : CblPar) (i2 ta tin : B64) : Nat → B64 × B64 × B64 → B64 × B64 × B64
  | 0, x => x
  | k + 1, x => cblSubs p i2 ta tin k (cblSub p i2 ta tin x)

/-! ### Headroom (R172, R173) -/

/-- A row vector times a matrix, fixed point. -/
def fxRow (v : List Int) (m : List (List Int)) : List Int :=
  (List.range v.length).map fun j => ((List.range v.length).map fun i => fxMul (v.getD i 0) ((m.getD i []).getD j 0)).sum

/-- Product of matrices given by rows. -/
def fxMat (a b : List (List Int)) : List (List Int) := a.map fun r => fxRow r b

/-- The power of a matrix by squaring; `fuel` bounds the binary digits of the exponent. -/
def fxPow : Nat → List (List Int) → Nat → List (List Int) → List (List Int)
  | 0, _, _, acc => acc
  | fuel + 1, m, n, acc => if n = 0 then acc else fxPow fuel (fxMat m m) (n / 2) (if n % 2 = 1 then fxMat acc m else acc)

/-- One in fixed point. -/
def fxOne : Int := 2 ^ 96

/-- The transition of the prediction over one substep on (Tc, Tp, Tw, 1): each column the new value of a node; with the
current's heat alone as the last entry when `unit` holds, else the ambient's and the inlet's (R172). -/
def cblTrans (p : CblPar) (tc0 ta tin : B64) (unit : Bool) : List (List Int) :=
  let h : Rat := mkRat 1 10000
  let kc := h / p.cc.toRat
  let kp := h / p.cp.toRat
  let kw := h / p.cw.toRat
  let gcw := p.gcw.toRat
  let gpw := p.gpw.toRat
  let gpc := p.gpc.toRat
  let gca := p.gca.toRat
  let gwf := p.gwf.toRat
  let bc := if unit then kc * p.rc.toRat * (1 + p.alpha.toRat * (tc0.toRat - 20)) else kc * gca * ta.toRat
  let bp := if unit then kp * p.rp.toRat else 0
  let bw := if unit then 0 else kw * gwf * tin.toRat
  [[fxOne - toFx (kc * (gcw + gpc + gca)), toFx (kp * gpc), toFx (kw * gcw), 0],
   [toFx (kc * gpc), fxOne - toFx (kp * (gpw + gpc)), toFx (kw * gpw), 0],
   [toFx (kc * gcw), toFx (kp * gpw), fxOne - toFx (kw * (gcw + gpw + gwf)), 0],
   [toFx bc, toFx bp, toFx bw, fxOne]]

/-- The values of Tp after each of 16 equal parts of a horizon. -/
def cblPred (m : List (List Int)) : Nat → List Int → List Int
  | 0, _ => []
  | k + 1, v => let v' := fxRow v m; v'.getD 1 0 :: cblPred m k v'

/-- f_j and s_j, j = 1 to 16, for a horizon of so many ms (R172). -/
def cblFs (p : CblPar) (x : B64 × B64 × B64) (ta tin : B64) (ms : Nat) : List (Rat × Rat) :=
  let n := ms * 10 / 16
  let idm : List (List Int) := [[fxOne, 0, 0, 0], [0, fxOne, 0, 0], [0, 0, fxOne, 0], [0, 0, 0, fxOne]]
  let mf := fxPow 20 (cblTrans p x.1 ta tin false) n idm
  let ms := fxPow 20 (cblTrans p x.1 ta tin true) n idm
  let f := cblPred mf 16 [toFx x.1.toRat, toFx x.2.1.toRat, toFx x.2.2.toRat, fxOne]
  let s := cblPred ms 16 [0, 0, 0, fxOne]
  (List.range 16).map fun j =>
    (mkRat (f.getD j 0) (2 ^ 96), mkRat (s.getD j 0) (2 ^ 96) + p.rhs.toRat * p.rp.toRat)

/-- The binding instant of a horizon and the square of the largest current, A²; instant 0 for none (R172). -/
def cblBind (tlim : Rat) (fs : List (Rat × Rat)) : Nat × Rat :=
  let step (acc : Nat × Rat) (e : Nat × Rat × Rat) : Nat × Rat :=
    let (j, f, s) := e
    let v : Option Rat := if tlim ≤ f then some 0 else if 0 < s then some ((tlim - f) / s) else none
    match v with
    | none => acc
    | some q => if acc.1 = 0 || q < acc.2 then (j, q) else acc
  (fs.mapIdx fun j e => (j + 1, e)).foldl step (0, 0)

/-- The raw headroom of the definition, mA, and its binding instant (0 if the clamp bound it). -/
def cblRaw (tlim : Rat) (fs : List (Rat × Rat)) : Nat × Nat :=
  let (j, q) := cblBind tlim fs
  if j = 0 then (0, 3000000)
  else
    let r := Nat.sqrt (q.num.toNat * 1000000 / q.den)
    if 3000000 ≤ r then (0, 3000000) else (j, r)

/-- The device's own raw headroom: within 1 part in 10,000 of the definition's, or 1 A, the same wherever the state is
the same (R172; log entry 4). -/
def cblDevRaw (r : Nat) : Nat :=
  let tol : Int := max (r / 10000) 1000
  (clampI 0 3000000 (clampI ((r : Int) - tol) (r + tol) (Config.headroom r))).toNat

/-- Write a horizon's J, F and S registers. -/
def Dev.cblShow (d : Dev) (i j : Nat) (fs : List (Rat × Rat)) (fj : Field) (ff fsx : Field) : Dev :=
  let e := fs.getD (j - 1) (0, 0)
  ((d.wr i fj j).wrI i ff (rround (e.1 * 1000))).wrU i fsx (rround (e.2 * 10 ^ 12))

/-- Publish the headroom of a cable (R173); OUT_IROW of a DERATE just entered sets its cap (R174). -/
def Dev.cblPublish (d : Dev) (i raw10 raw60 : Nat) : Dev :=
  let x := d.cblRec i
  let d := if x.derNew then
      let cap := rdiv (max 0 (d.rdI i OUT_IROW.MA) * d.rd i CBL_ROR2.DER_PCT) 100
      (d.wrU i CBL_DERCAP.MA cap).modCbl i fun x => { x with derNew := false }
    else d
  let valid := d.on i CBL_STAT.VALID
  let lvl := d.rd i CBL_STAT.LEVEL
  let cut (r : Nat) : Nat :=
    let r := if valid then r else d.rd i CBL_NOSENS.MA
    let r := if lvl = 2 then min r (d.rd i CBL_DERCAP.MA) else r
    if lvl = 3 then 0 else r
  let h10 := cut raw10
  (d.wr i CBL_H10.MA h10).wr i CBL_H60.MA (min (cut raw60) h10)

/-- The coolant target of a cable with COOL_EN (R176). -/
def Dev.cblCool (d : Dev) (i : Nat) (ths : B64) : Dev :=
  let mx := d.rdI i CBL_COOLT.MAX
  let mn := d.rdI i CBL_COOLT.MIN
  let t0 : Rat := mkRat (d.rdI i CBL_COOLT0.T0) 10
  let tl : Rat := mkRat (d.rd i CBL_LIM.T_LIM) 10
  let v := if !d.on i CBL_STAT.VALID then mn
    else
      let t := ths.toRat
      if t ≤ t0 then mx else if tl ≤ t then mn
      else (let q : Rat := mx - (mx - mn) * (t - t0) / (tl - t0); q.num.tdiv q.den)
  if d.on i CBL_CFG.COOL_EN then d.wrI i CBL_COOLSETP.T v else d

/-- VALID takes a value; MODEL_VALID and MODEL_INVALID mark its changes (R169, R171). -/
def Dev.cblValid (d : Dev) (i : Nat) (b : Bool) : Dev :=
  let was := d.on i CBL_STAT.VALID
  let d := d.wrB i CBL_STAT.VALID b
  if b && !was then d.raise i Ev.CBL.MODEL_VALID else if was && !b then d.raise i Ev.CBL.MODEL_INVALID else d

/-- The ambient of a row (R168). -/
def Dev.cblAmbient (d : Dev) (i : Nat) : Option B64 :=
  if d.on i CBL_ENVSRC.AMB_EN then d.rowMean (d.rd i CBL_ENVSRC.AMB) else none

/-- The row's update of an enabled cable (R169 to R173). -/
def Dev.cblRow (d : Dev) (i rowUs : Nat) : Dev :=
  let par := d.cblPar i
  let pins := d.pinMeans i
  let (tin?, tout?) := d.coolMeans i
  let cool := tin?.toList ++ tout?.toList
  let amb := d.cblAmbient i
  let complete := d.rd i CBL_CFG.MINPIN ≤ pins.length && !cool.isEmpty
  let d := (d.wr i CBL_STAT.NPIN pins.length).wrB i CBL_STAT.COOL1 (cool.length = 1)
  let d := (d.wrB i CBL_STAT.AMB_DEF amb.isNone).level i Ev.CBL.AMB_DEFAULT amb.isNone
  let ta := amb.getD (B64.ofRat (mkRat (d.rdI i CBL_LIM.TAMB_DEF) 10))
  let tpin := b64Max pins
  let tcool := match cool with
    | [a, b] => (a.add b).div (B64.ofInt 2)
    | [a] => a
    | _ => .fin 0
  let spread := decide ((d.rd i CBL_SPREAD.K : Rat) < (b64Max pins).toRat - (b64Min pins).toRat)
  let d := (d.wrB i CBL_STAT.SPREAD spread).level i Ev.CBL.PIN_SPREAD spread
  let x := d.cblRec i
  if !x.init && !complete then (d.cblValid i false).cblPublish i 0 0 |>.cblCool i (.fin 0)
  else
    -- an inlet value is stated only while a coolant channel is valid (log entry 4)
    let (f, d) := d.draw
    let tin := (cool.head?).getD (B64.ofRat (mkRat f 10))
    let i2 := B64.ofInt (d.rd i OUT_I2ROW.A2)
    let st :=
      if !x.init then (tpin, tpin, tcool)
      else
        let y := cblSubs par i2 ta tin (rowUs / 100) (x.tc, x.tp, x.tw)
        let k := B64.ofRat (min 1 (mkRat rowUs (1000 * d.rd i CBL_CORR.TAU_MS)))
        let tp := if pins.isEmpty then y.2.1 else y.2.1.add (k.mul (tpin.sub y.2.1))
        let tw := if cool.isEmpty then y.2.2 else y.2.2.add (k.mul (tcool.sub y.2.2))
        (y.1, tp, tw)
    if !(st.1.isFin && st.2.1.isFin && st.2.2.isFin) then
      let d := d.modCbl i fun x => { x with init := false, tc := .fin 0, tp := .fin 0, tw := .fin 0 }
      ((d.wrB i CBL_STAT.VALID false).raise i Ev.CBL.MODEL_INVALID).cblPublish i 0 0 |>.cblCool i (.fin 0)
    else
      let d := d.modCbl i fun x => { x with init := true, tc := st.1, tp := st.2.1, tw := st.2.2 }
      let d := d.cblValid i complete
      let ths := st.2.1.add (par.rhs.mul (i2.mul par.rp))
      let d := ((d.wrI i CBL_TC.T (st.1.toInt 1000)).wrI i CBL_TP.T (st.2.1.toInt 1000)).wrI i CBL_TW.T (st.2.2.toInt 1000)
      let d := d.wrI i CBL_THS.T (ths.toInt 1000)
      let tlim : Rat := mkRat (d.rd i CBL_LIM.T_LIM) 10
      let d := d.level i Ev.CBL.HS_OVER (decide (tlim < ths.toRat))
      let fs10 := cblFs par st ta tin 10000
      let fs60 := cblFs par st ta tin 60000
      let (j10, r10) := cblRaw tlim fs10
      let (j60, r60) := cblRaw tlim fs60
      let d := d.cblShow i j10 fs10 CBL_HRJ.J10 CBL_HR10F.T CBL_HR10S.S
      let d := d.cblShow i j60 fs60 CBL_HRJ.J60 CBL_HR60F.T CBL_HR60S.S
      (d.cblPublish i (cblDevRaw r10) (cblDevRaw r60)).cblCool i ths

/-- The cable models update in step 3 of the row (R24): a disabled cable publishes its no-sensor current, and asks MIN of
the loop it names (R173, R176). -/
def Dev.cblUpdate (d : Dev) (rowUs : Nat) : Dev :=
  let d := d.thmRowTurn
  (List.range 32).foldl (fun d i =>
    if d.on i CBL_CFG.EN then d.cblRow i rowUs
    else if d.rd i CBL_NOSENS.MA = 0 && d.rd i CBL_H10.MA = 0 && d.rd i CBL_H60.MA = 0 && d.rd i CBL_STAT.LEVEL = 0
        && !d.on i CBL_CFG.COOL_EN then d
    else (d.cblPublish i 0 0).cblCool i (.fin 0)) d

/-! ### Rate of rise (R174, R175) -/

/-- Mean of a channel's readings in a window, none when it holds none. -/
def Thm.window (x : Thm) (a b : Nat) : Option Rat :=
  let vs := (x.hist.filter fun e => a < e.1 && e.1 ≤ b).map Prod.snd
  if vs.isEmpty then none else some (mkRat vs.sum vs.length)

/-- The rate of a pin channel at an evaluation instant, 0.01 K/s. -/
def Dev.rorRate (d : Dev) (c te : Nat) : Option Int :=
  if !d.on c THM_TEMP.VALID then none
  else
    let x := d.thmRec c
    let w := 100 * ticksPerMs
    let s := ticksPerS
    match x.window (te - w) te, x.window (te - s - w) (te - s) with
    | some a, some b => if te < s + w then none else some (rround ((a - b) * 10))
    | _, _ => none

/-- The level a rate gives from the present one (R174). -/
def rorLevel (lvl : Nat) (rate warn der trip hys : Int) : Nat :=
  if trip ≤ rate then 3
  else if der ≤ rate then max lvl 2
  else if warn ≤ rate then (if lvl = 2 && der - hys ≤ rate then 2 else 1)
  else if lvl = 2 && der - hys ≤ rate then 2
  else if 1 ≤ lvl && warn - hys ≤ rate then 1
  else 0

/-- The level of a cable changes (R174): every level passed on the way up acts. -/
def Dev.rorMove (d : Dev) (i lvl' : Nat) : Dev :=
  let lvl := d.rd i CBL_STAT.LEVEL
  let d := d.wr i CBL_STAT.LEVEL lvl'
  let d := if lvl < 1 && 1 ≤ lvl' then d.raise i Ev.CBL.ROR_WARN else d
  let d := if lvl < 2 && 2 ≤ lvl' then
      (d.raise i Ev.CBL.ROR_DERATE).modCbl i fun x => { x with derNew := true } else d
  if lvl < 3 && lvl' = 3 then (d.raise i Ev.CBL.ROR_TRIP).endPointSes i 3 else d

/-- Effect of ROR_EVALUATION: every 100 ms of the timebase (R174). A latched trip stays until it is cleared. -/
def rorEvaluationEffect (q : Fin 32) (d : Dev) : Dev :=
  let ix := d.now / (100 * ticksPerMs)
  if !d.on q CBL_CFG.EN || ix ≤ (d.cblRec q).rorIx then d
  else
    let te := ix * (100 * ticksPerMs)
    let d := d.modCbl q fun x => { x with rorIx := ix }
    let rates := (List.range 4).filterMap fun k =>
      if d.on q (CBL_PINSRC.EN k) then d.rorRate (d.rd q (CBL_PINSRC.CH k)) te else none
    if rates.isEmpty then d
    else
      let rate := maxInt rates
      let d := d.wrI q CBL_ROR.RATE rate
      let lvl := d.rd q CBL_STAT.LEVEL
      if lvl = 3 then d
      else
        d.rorMove q (rorLevel lvl rate (d.rd q CBL_ROR1.WARN) (d.rd q CBL_ROR1.DERATE) (d.rd q CBL_ROR2.TRIP)
          (d.rd q CBL_ROR2.HYS))

/-- ROR_EVALUATION (R174). -/
def execRorEvaluation (t : Nat) (q : Fin 32) (s : State) := onDev t (rorEvaluationEffect q) s

/-- A write of 1 to CBL_TRIPCLR (R175); a write of 0 does nothing. -/
def Dev.rorClear (d : Dev) (i v : Nat) : Except Nat Dev :=
  if v = 0 then .ok d
  else if d.rdI i CBL_ROR.RATE < (d.rd i CBL_ROR1.WARN : Int) - d.rd i CBL_ROR2.HYS then
    .ok (if d.rd i CBL_STAT.LEVEL = 3 then d.wr i CBL_STAT.LEVEL 0 else d)
  else .error 0x80

/-! ### Die temperature (R177, R178, R217) -/

/-- The pause of a throttle level, µs (Table DTM-1). -/
def dtmPause (l : Nat) : Nat := [0, 10, 20, 50, 100, 200, 500, 1000].getD l 1000

/-- The throttle level a Tmax gives from the present one (R177); `fuel` is 7, the number of levels. -/
def dtmLevel (t t1 step hys : Int) : Nat → Nat → Nat
  | 0, l => l
  | fuel + 1, l =>
    if l < 7 && t1 + (l : Int) * step ≤ t then dtmLevel t t1 step hys fuel (l + 1)
    else if 1 ≤ l && t < t1 + ((l : Int) - 1) * step - hys then dtmLevel t t1 step hys fuel (l - 1)
    else l

/-- A die sensor is invalid after 3 consecutive readings outside its range. -/
def Dev.dieBad (d : Dev) (k : Nat) : Bool := 3 ≤ d.die.badN.get (fun _ => 0) k

/-- One reading of a die sensor. -/
def Dev.dieRead (d : Dev) (k : Nat) (t : Int) : Dev :=
  let bad := t < -550 || 1500 < t
  let n := if bad then min 3 (d.die.badN.get (fun _ => 0) k + 1) else 0
  let d := { d with die := { d.die with badN := d.die.badN.set (fun _ => 0) k n } }
  (d.wrI 0 (DTM_TEMP.T k) t).wrB 0 (DTM_TEMP.VALID k) (n < 3)

/-- The throttle follows the readings (R177). -/
def Dev.dtmFollow (d : Dev) : Dev :=
  let good := (List.range 8).filter fun k => !d.dieBad k
  let tmax := maxInt (good.map fun k => d.rdI 0 (DTM_TEMP.T k))
  let sens := (good.find? fun k => d.rdI 0 (DTM_TEMP.T k) = tmax).getD 0
  let lost := 3 ≤ ((List.range 6).filter d.dieBad).length
  let l := d.rd 0 DTM_STAT.LEVEL
  let l' := if lost then 7
    else if good.isEmpty then l
    else dtmLevel tmax (d.rd 0 DTM_THR.T1) (d.rd 0 DTM_THR.STEP) (d.rd 0 DTM_THR.HYS) 7 l
  let d := ((d.wr 0 DTM_STAT.LEVEL l').wr 0 DTM_STAT.PAUSE_US (dtmPause l')).wr 0 DTM_STAT.MAXSENS sens
  let d := if l = 0 && 0 < l' then d.raise 0 Ev.DTM.THROTTLE_ON else d
  let d := if 0 < l && l' = 0 then d.raise 0 Ev.DTM.THROTTLE_OFF else d
  let d := if l < l' then d.raise 0 Ev.DTM.LEVEL_UP else d
  if good.isEmpty then d
  else
    let d := d.level 0 Ev.DTM.SD_NEAR (decide ((d.rd 0 DTM_SD.SD_T : Int) - 50 ≤ tmax))
    if d.rdI 0 DTM_PEAK.T < tmax then d.wrI 0 DTM_PEAK.T tmax else d

/-- The line driver's own limit, from sensor 7 (R217). -/
def Dev.drvHot (d : Dev) : Dev :=
  if d.dieBad 7 || !d.domOn .plc then d
  else
    let t := d.rdI 0 (DTM_TEMP.T 7)
    let lim := d.rdI 0 PLC_DRV.TLIM
    let hot := d.on 0 PLC_STAT.DRVHOT
    let hot' := if lim < t then true else if t < lim - 50 then false else hot
    (d.wrB 0 PLC_STAT.DRVHOT hot').level 0 Ev.PLC.DRV_HOT hot'

/-- Follow how long every comparator has stayed below the restart threshold (R178). -/
def Dev.dieCool (d : Dev) (ts : List Int) : Dev :=
  let lim : Int := (d.rd 0 DTM_SD.SD_T : Int) - d.rd 0 DTM_SD.SD_HYS
  let ok := ts.all fun t => t < lim
  { d with die := { d.die with coolAt := if ok then (if d.die.coolAt.isNone then some d.now else d.die.coolAt) else none } }

/-- Effect of DIE_SENSOR_READ: the eight readings of a millisecond, 0.1 °C (R177, R217). -/
def dieSensorReadEffect (ts : List Int) (d : Dev) : Dev :=
  let ts := (ts ++ List.replicate 8 0).take 8
  let d := d.dieCool ts
  if !d.domOn .core then d
  else ((ts.mapIdx fun k t => (k, t)).foldl (fun d e => d.dieRead e.1 e.2) d).dtmFollow.drvHot

/-- DIE_SENSOR_READ (R177). -/
def execDieSensorRead (t : Nat) (ts : List Int) (s : State) := onDev t (dieSensorReadEffect ts) s

end Sys2Proof.Machine
end

