-- ==== Sys2Proof/Machine/AuxLoops.lean ====
section
/-!
DEFINITION. The auxiliary loops (R104, R105) with the coolant setpoint (R176): one sample of a loop, a bad input, and
the check of a setpoint write.
-/

namespace Sys2Proof.Machine

/-- A loop's record. -/
def Dev.auxRec (d : Dev) (n : Nat) : AuxLoop := d.aux.get (fun _ => {}) n

/-- Change a loop's record. -/
def Dev.modAux (d : Dev) (n : Nat) (f : AuxLoop → AuxLoop) : Dev :=
  { d with aux := d.aux.set (fun _ => {}) n (f (d.auxRec n)) }

/-- The limit of an input's age (R105). -/
def auxAge : Nat := 5 * ticksPerMs

/-- The input of a loop: none when it is flagged broken or stale, or has not been updated for 5 ms (R104, R105). -/
def Dev.auxIn (d : Dev) (n : Nat) : Option Int :=
  if d.on n AUX_CFG.SRCTYPE then
    let k := d.rd n AUX_SRCNODE.PORT
    let pos := d.rd n AUX_SRCNODE.NODE
    let ch := d.rd n AUX_SRCNODE.CH
    if d.now ≤ (d.inRec k pos ch).time + auxAge then d.input k pos ch else none
  else
    let c := d.rd n AUX_CFG.SRC
    if d.thmBroken c || (d.thmRec c).lastAt + auxAge < d.now || (d.thmRec c).lastAt = 0 then none else some (d.rdI c THM_TEMP.T)

/-- The setpoint in use: the lower of AUX_SETP and every coolant target that names the loop (R176). -/
def Dev.auxSetp (d : Dev) (n : Nat) : Int :=
  ((List.range 32).filter fun i => d.on i CBL_CFG.COOL_EN && d.rd i CBL_CFG.COOL_AUX = n).foldl
    (fun v i => min v (d.rdI i CBL_COOLSETP.T)) (d.rdI n AUX_SETP.SETP)

/-- Whether the output channel is off, tripped or latched (R105, R192). -/
def Dev.auxBlocked (d : Dev) (n : Nat) : Bool :=
  !d.on n AUX_OUT.TYPE && (let c := d.rd n AUX_OUT.LSW; !d.lswOn c || d.on c LSW_STAT.TLATCH)

/-- Put an output in use: the duty of a load switch the loop owns, or a node's output, as u itself (R104, R192). -/
def Dev.auxDrive (d : Dev) (n : Nat) (u : Int) : Dev :=
  let d := d.wrI n AUX_U.U u
  if d.on n AUX_OUT.TYPE then d.ioDrive (d.rd n AUX_OUT.PORT) (d.rd n AUX_OUT.NODE) (d.rd n AUX_OUT.CH) u
  else
    let c := d.rd n AUX_OUT.LSW
    if d.on c LSW_CFG.AUXOWN then (d.wrU c LSW_DUTY.DUTY (rdiv u 4096)).lswGate c else d

/-- The loop's own state bits. -/
def Dev.auxBits (d : Dev) (n : Nat) (bad blocked : Bool) : Dev :=
  let d := (d.wrB n AUX_STAT.SRC_BAD bad).wrB n AUX_STAT.OUT_BLOCKED blocked
  (d.level n Ev.AUX.SRC_BAD bad).level n Ev.AUX.OUT_BLOCKED blocked

/-- A bad input: the output is AUX_FAILSAFE and the integrator is held (R105). -/
def Dev.auxBad (d : Dev) (n : Nat) : Dev :=
  (d.auxBits n true (d.auxBlocked n)).auxDrive n (d.rdI n AUX_FAILSAFE.U)

/-- The coefficients of a loop in a bank. -/
def Dev.auxCfg (d : Dev) (n b : Nat) : PidCfg :=
  { kp := d.rdI n (AUX_KP.K b), ki := d.rdI n (AUX_KI.K b), kda := d.rdI n (AUX_KDA.K b), kdb := d.rdI n (AUX_KDB.K b),
    es := d.rd n (AUX_ESHIFT.ESHIFT b), lo := d.rdI n AUX_UMIN.U, hi := d.rdI n AUX_UMAX.U }

/-- One sample of a loop with a good input: the law of R88, its clamping and the output. -/
def Dev.auxRun (d : Dev) (n : Nat) (meas : Int) : Dev :=
  let b := d.rd n AUX_CFG.BANKSEL
  let c := d.auxCfg n b
  let sp := d.auxSetp n
  let x := d.auxRec n
  let blocked := d.auxBlocked n
  let d := d.auxBits n false blocked
  let y := if blocked then { x.pid with hi := true, lo := true } else x.pid
  let (u, pid) := pidRun c y (if d.on n AUX_CFG.DIR then meas - sp else sp - meas) meas false
  let v := clampI c.lo c.hi u
  let d := d.modAux n fun x => { x with pid := { pid with hi := decide (c.hi < u), lo := decide (u < c.lo) }, bank := b }
  let d := (d.wr n AUX_STAT.BANK b).wrB n AUX_STAT.SAT (v ≠ u || blocked)
  let d := if x.bank ≠ b then d.raise n Ev.AUX.BANK_SWAPPED else d
  (d.wrI n AUX_MEAS.MEAS meas).auxDrive n v

/-- Whether a loop runs: its page enabled, its domain ON. -/
def Dev.auxOn (d : Dev) (n : Nat) : Bool := d.domOn .cle && d.en .aux n

/-- Effect of AUX_SAMPLE (R104): the next point of the 1 ms grid. -/
def auxSampleEffect (n : Fin 16) (d : Dev) : Dev :=
  let ix := d.now / ticksPerMs
  if ix ≤ (d.auxRec n).ix || !d.auxOn n then d
  else
    let d := d.modAux n fun x => { x with ix := ix }
    match d.auxIn n with
    | some m => d.auxRun n m
    | none => d.auxBad n

/-- AUX_SAMPLE (R104). -/
def execAuxSample (t : Nat) (n : Fin 16) (s : State) := onDev t (auxSampleEffect n) s

/-- Effect of AUX_SRC_BAD (R105). -/
def auxSrcBadEffect (n : Fin 16) (d : Dev) : Dev := if (d.auxIn n).isNone && d.auxOn n then d.auxBad n else d

/-- AUX_SRC_BAD (R105). -/
def execAuxSrcBad (t : Nat) (n : Fin 16) (s : State) := onDev t (auxSrcBadEffect n) s

/-- The range of AUX_SETP (Table AUX-2). -/
def Dev.auxSetpOk (d : Dev) (n : Nat) (v : Int) : Bool := d.on n AUX_CFG.SRCTYPE || (decide (-550 ≤ v) && decide (v ≤ 2000))

end Sys2Proof.Machine
end

