-- ==== Sys2Proof/Machine/Crypto.lean ====
section
/-!
DEFINITION. Keys and lifecycle (R350 to R367): derivation, tokens, slots, contexts, blobs, the crypto functions, signed
images, the entropy source and the token challenge. The algorithms themselves are free functions of `Config`: the spec
names them and no more.
-/

namespace Sys2Proof.Machine

/-! ### Status codes (Table CRY-2) -/

namespace KS
abbrev EMPTY : Nat := 0x20
abbrev ATTR : Nat := 0x21
abbrev LC : Nat := 0x22
abbrev AUTH : Nat := 0x23
abbrev ORPHAN : Nat := 0x24
abbrev BADSIG : Nat := 0x25
abbrev TOKEN : Nat := 0x26
abbrev BUSY : Nat := 0x27
abbrev FORMAT : Nat := 0x28
abbrev OTP : Nat := 0x29
abbrev ROLLBACK : Nat := 0x2A
abbrev IMAGE : Nat := 0x2B
abbrev ENTROPY : Nat := 0x2C
abbrev GEN : Nat := 0x2D
abbrev SERIAL : Nat := 0x2E
end KS

/-- A byte string cut or padded with zeros to a length. -/
def fixLen (n : Nat) (l : List Byte) : List Byte := (l ++ List.replicate n 0#8).take n

/-- One byte. -/
def b1 (v : Nat) : List Byte := [BitVec.ofNat 8 v]

/-- Bytes a to a + n − 1 of a string. -/
def slice (l : List Byte) (a n : Nat) : List Byte := (l.drop a).take n

/-- Length of a key of a TYPE (Table KEY-2). -/
def keyLen (typ : Nat) : Nat :=
  if typ = 1 || typ = 5 then 32 else if typ = 2 || typ = 6 then 48 else if typ = 3 then 65 else if typ = 4 then 97 else 0

/-- The attributes a key of a TYPE may carry, in a slot or in a context (Table KEY-2). -/
def keyMask (typ : Nat) (slot : Bool) : Nat :=
  if typ = 1 then 0x05 else if typ = 2 then 0x15 else if typ = 3 || typ = 4 then 0x02
  else if typ = 5 then (if slot then 0xD8 else 0xC0) else if typ = 6 then 0x20 else 0

/-- Whether attributes stay within the permitted ones. -/
def attrOk (typ attr : Nat) (slot : Bool) : Bool := Nat.land attr (keyMask typ slot) = attr

namespace KA
abbrev SIGN : Nat := 0
abbrev VERIFY : Nat := 1
abbrev ECDH : Nat := 2
abbrev WRAP : Nat := 3
abbrev UNWRAP : Nat := 4
abbrev MAC : Nat := 5
abbrev ENC : Nat := 6
abbrev DEC : Nat := 7
end KA

/-! ### Slots and contexts as shown -/

/-- Slot s. -/
def Dev.kslot (d : Dev) (s : Nat) : KeySlot := d.key.slots.get (fun _ => {}) s

/-- Debug is enabled (R356). -/
def Dev.debug (d : Dev) : Bool := d.on 0 KEY_LC.DBGEN

/-- KEY_SLOTs shows the record; under debug every slot reads LOCKED (R356, Table KEY-3). -/
def Dev.showSlot (d : Dev) (s : Nat) : Dev :=
  let k := d.kslot s
  let d := d.wr 0 (KEY_SLOT.STATE s) (if d.debug then 3 else k.state)
  let d := (d.wr 0 (KEY_SLOT.TYPE s) k.typ).wr 0 (KEY_SLOT.ATTR s) k.attr
  ((d.wr 0 (KEY_SLOT.LCMASK s) k.lcmask).wr 0 (KEY_SLOT.ROLE s) k.role).wr 0 (KEY_SLOT.PARENT s) k.parent

/-- Replace the record of a slot. -/
def Dev.setKslot (d : Dev) (s : Nat) (k : KeySlot) : Dev :=
  Dev.showSlot { d with key := { d.key with slots := d.key.slots.set (fun _ => {}) s k } } s

/-- A slot becomes INVALID and its key material is overwritten (R359). -/
def Dev.voidSlot (d : Dev) (s : Nat) : Dev := d.setKslot s { d.kslot s with state := 2, key := [] }

/-- Whether context n holds a key. -/
def Dev.ctxUsed (d : Dev) (n : Nat) : Bool := d.on 0 (CRY_CTX.VALID n)

/-- Bit n of CRY_CTXUSE. -/
def Dev.setCtxUse (d : Dev) (n : Nat) (b : Bool) : Dev :=
  if n < 32 then d.wrBit 0 CRY_CTXUSE_LO.USE n b else d.wrBit 0 CRY_CTXUSE_HI.USE (n - 32) b

/-- A key enters context n (R361). -/
def Dev.setCtx (d : Dev) (n typ attr lcmask parent : Nat) (key : List Byte) : Dev :=
  let d := (d.wr 0 (CRY_CTX.VALID n) 1).wr 0 (CRY_CTX.TYPE n) typ
  let d := ((d.wr 0 (CRY_CTX.ATTR n) attr).wr 0 (CRY_CTX.LCMASK n) lcmask).wr 0 (CRY_CTX.PARENT n) parent
  let d := d.setCtxUse n true
  { d with key := { d.key with ctx := d.key.ctx.set (fun _ => []) n key } }

/-- Context n becomes free (R361). -/
def Dev.freeCtx (d : Dev) (n : Nat) : Dev :=
  let d := (d.setWord .cry 0 (0x480 + 4 * n) 0).setCtxUse n false
  { d with key := { d.key with ctx := d.key.ctx.set (fun _ => []) n [] } }

/-- Clear a context otherwise than by UNLOAD: CTX_CLEARED (R361). -/
def Dev.clearCtx (d : Dev) (n : Nat) : Dev :=
  if d.ctxUsed n then (d.freeCtx n).raise 0 Ev.CRY.CTX_CLEARED else d

/-- Clear every context (R353, R357, R361). -/
def Dev.clearCtxs (d : Dev) : Dev := (List.range 64).foldl Dev.clearCtx d

/-! ### Derivation (R357) -/

/-- The ASCII bytes of a string. -/
def ascii (s : String) : List Byte := s.toList.map fun c => BitVec.ofNat 8 c.toNat

/-- SERIAL, 8 bytes little-endian. -/
def Dev.serial (d : Dev) : List Byte := leBytes 8 (d.rd64 0 KEY_SERIAL_LO.SN KEY_SERIAL_HI.SN)

/-- The input key material: the root, or the Swatch root under debug. -/
def Dev.ikm (d : Dev) : List Byte := if d.debug then Config.swatchRoot else d.key.root.getD []

/-- A derived key: 32 bytes of HKDF with salt SERIAL. -/
def Dev.derive (d : Dev) (ikm info : List Byte) : List Byte := fixLen 32 (Config.hkdf ikm d.serial info 32)

/-- The blob key of a PARENT: 0x3F root, else the slot's key (R357). -/
def Dev.blobKey (d : Dev) (parent : Nat) : List Byte :=
  let info := ascii "BLOB" ++ b1 d.key.lc ++ leBytes 2 d.key.gen
  if parent = 0x3F then d.derive d.ikm info else d.derive (d.kslot parent).key (info ++ b1 parent)

/-- The import key of a target (R357, R361). -/
def Dev.importKey (d : Dev) (secret : List Byte) (target : Nat) : List Byte :=
  d.derive secret (ascii "IMPORT" ++ b1 target)

/-! ### Using a key -/

/-- A key as an operation finds it. -/
structure UseKey where
  typ : Nat
  attr : Nat
  lcmask : Nat
  key : List Byte
  deriving DecidableEq, Repr

/-- The key of slot s, if it is VALID and not LOCKED. -/
def Dev.slotUse (d : Dev) (s : Nat) : Except Nat UseKey :=
  let k := d.kslot s
  if d.debug then .error KS.LC
  else if k.state ≠ 1 then .error KS.EMPTY
  else .ok { typ := k.typ, attr := k.attr, lcmask := k.lcmask, key := k.key }

/-- The key a KEYREF names: 0 to 63 context, 64 to 95 slot. -/
def Dev.refUse (d : Dev) (r : Nat) : Except Nat UseKey :=
  if r < 64 then
    if d.ctxUsed r then
      .ok { typ := d.rd 0 (CRY_CTX.TYPE r), attr := d.rd 0 (CRY_CTX.ATTR r), lcmask := d.rd 0 (CRY_CTX.LCMASK r),
            key := d.key.ctx.get (fun _ => []) r }
    else .error KS.EMPTY
  else if r < 96 then d.slotUse (r - 64)
  else .error 1

/-- A key with an attribute, usable in the present lifecycle state (R358). -/
def Dev.withAttr (d : Dev) (k : Except Nat UseKey) (a : Nat) : Except Nat UseKey :=
  match k with
  | .error e => .error e
  | .ok k =>
    if !k.attr.testBit a then .error KS.ATTR else if !k.lcmask.testBit d.key.lc then .error KS.LC else .ok k

/-- The slots of role CFGIMG that are usable, in turn (R366). -/
def Dev.cfgKeys (d : Dev) : List (List Byte) :=
  (List.range 32).filterMap fun s =>
    match d.withAttr (d.slotUse s) KA.VERIFY with
    | .ok k => if (d.kslot s).role = 2 then some k.key else none
    | .error _ => none

/-! ### Tokens (R354) -/

/-- The challenge in force, void 60 s after issue. -/
def Dev.chalValid (d : Dev) : Bool :=
  match d.key.chalAt with
  | some t => d.now < t + 60 * ticksPerS
  | none => false

/-- The 48 bytes of the challenge. -/
def Dev.chal (d : Dev) : List Byte := (List.range 12).flatMap fun w => leBytes 4 (d.rd 0 (KEY_CHAL.DATA w))

/-- The key tokens of a TYPE are verified under. -/
def Dev.tokenKey (d : Dev) (typ : Nat) : List Byte :=
  if typ = 3 then Config.debugKey
  else
    match d.withAttr (d.slotUse 0) KA.VERIFY with
    | .ok k => if (d.kslot 0).role = 1 then k.key else []
    | .error _ => []

/-- Whether 160 bytes are a token for an action on this device. -/
def Dev.tokenOk (d : Dev) (typ arg : Nat) (tok : List Byte) : Bool :=
  let key := d.tokenKey typ
  tok.length = 160 && leAt tok 0 1 = typ && leAt tok 1 1 = arg && leAt tok 2 2 = 0 && slice tok 4 8 = d.serial
    && d.chalValid && slice tok 12 48 = d.chal && leAt tok 60 4 = 0 && !key.isEmpty
    && Config.ecdsaVerify key (Config.digest 1 (tok.take 64)) (slice tok 64 96)

/-- A challenge serves one token: it is void once a token has been checked against it. -/
def Dev.chalUse (d : Dev) : Dev := { d with key := { d.key with chalAt := none } }

/-! ### How a function runs (R362, R363) -/

/-- What a function leaves: its status, its output if it has one, the device. -/
structure CryOut where
  status : Nat
  out : Option (List Byte) := none
  dev : Dev
  deriving DecidableEq, Repr

/-- A failure. -/
def cryFail (d : Dev) (status : Nat) : CryOut := { status := status, dev := d }

/-- Success with an output. -/
def cryDone (d : Dev) (out : List Byte) : CryOut := { status := 0, out := some out, dev := d }

/-- Success without one. -/
def cryOk (d : Dev) : CryOut := { status := 0, dev := d }

/-- FUNC, KEYREF and AUX of an operation. -/
def Op.func (o : Op) : Nat := o.arg 8 1
def Op.keyref (o : Op) : Nat := o.arg 9 1
def Op.aux (o : Op) : Nat := o.arg 10 1

/-- The input of a crypto operation. -/
def Op.cryInput (o : Op) (sram : AMap Byte) : List Byte := sram.getBytes (o.arg 12 4) (o.arg 16 4)

/-- Contexts and slots an operation names, as KEYREF numbers them; a blob's PARENT is named too. -/
def Op.cryRefs (o : Op) (sram : AMap Byte) : List Nat :=
  (if o.keyref < 96 then [o.keyref] else [])
    ++ (if o.func = 0x07 || o.func = 0x10 || o.func = 0x11 then [64 + o.aux] else [])
    ++ (if o.func = 0x04 then [64 + leAt (o.cryInput sram) 2 1] else [])
    ++ (if o.func = 0x05 then [64 + leAt (o.cryInput sram) 4 1] else [])

/-- Whether an operation uses some key. -/
def Op.cryUses (o : Op) : Bool := !(o.func = 0x0B || o.func = 0x0C || 0x14 ≤ o.func)

/-- Slot s and every slot that descends from it through PARENT (R359); `fuel` bounds the depth by the slots. -/
def Dev.descends : Nat → Dev → List Nat → List Nat
  | 0, _, l => l
  | fuel + 1, d, l =>
    let more := (List.range 32).filter fun x =>
      (d.kslot x).state = 1 && l.contains (d.kslot x).parent && !l.contains x
    if more.isEmpty then l else Dev.descends fuel d (l ++ more)

/-- The slots a SLOT_INVALIDATE of slot s takes. -/
def Dev.family (d : Dev) (s : Nat) : List Nat := d.descends 32 [s]

/-- What a destruction affects, as references: the family's slots and the contexts loaded under them. -/
def Dev.familyRefs (d : Dev) (s : Nat) : List Nat :=
  let fam := d.family s
  fam.map (64 + ·) ++ (List.range 64).filter fun n => d.ctxUsed n && fam.contains (d.rd 0 (CRY_CTX.PARENT n))

/-- Whether an earlier operation keeps a later one waiting (R362). -/
def Dev.cryBefore (d : Dev) (sram : AMap Byte) (e o : Op) : Bool :=
  let wide (x : Op) : Bool := x.func = 0x12 || x.func = 0x13
  let refs (x : Op) : List Nat :=
    if x.func = 0x11 then x.cryRefs sram ++ d.familyRefs x.aux else x.cryRefs sram
  ((wide e || wide o) && e.cryUses && o.cryUses) || (refs e).any fun r => (refs o).contains r

/-- Whether an operation waits for an earlier one that is not complete. -/
def Dev.cryWaits (d : Dev) (sram : AMap Byte) (o : Op) : Bool :=
  (d.ope.flight.takeWhile fun e => e.slot ≠ o.slot).any fun e =>
    e.kind = OK.CRY_OP && e.phase ≠ .finished && d.cryBefore sram e o

/-- Counts of the CRY page and OP_ERR (Table CRY-3). -/
def Dev.cryCount (d : Dev) (func status : Nat) : Dev :=
  if !d.domOn .cry then d
  else
    let d := d.inc 0 CRY_OPS.COUNT
    if status = 0 then d
    else (((d.inc 0 CRY_ERRS.COUNT).wr 0 CRY_LAST.FUNC func).wr 0 CRY_LAST.STATUS status).raise 0 Ev.CRY.OP_ERR

/-- Apply a function to the operation it was issued for, unless an output does not fit (R363). -/
def cryApply (f : Op → List Byte → Dev → CryOut) (o : Op) (input : List Byte) (d : Dev) : CryOut :=
  if !d.domOn .cry then cryFail d 8
  else if d.key.lc = 4 then cryFail d KS.LC
  else
    let r := f o input d
    match r.out with
    | some out => if r.status = 0 && o.arg 24 4 < 4 + out.length then cryFail d KS.FORMAT else r
    | none => r

/-- The output in the shared buffers: its length, then the data (R363). -/
def cryStore (o : Op) (r : CryOut) (m : Mem) : Mem :=
  match r.out with
  | some out =>
    if r.status = 0 then { m with sram := m.sram.setBytes (o.arg 20 4) (leBytes 4 out.length ++ out) } else m
  | none => m

/-- A crypto function acts on the operation in a slot when that operation is one of its FUNC and nothing earlier
holds it back. -/
def onCry (t slot func : Nat) (f : Op → List Byte → Dev → CryOut) (s : State) : Host.Outcome State Fault Refusal :=
  let d := Dev.at t s.dev
  match d.opAt slot with
  | some o =>
    if o.kind = OK.CRY_OP && o.phase = .issued && o.func = func && !d.cryWaits s.mem.sram o then
      let r := cryApply f o (o.cryInput s.mem.sram) d
      .next { s with dev := (r.dev.cryCount func r.status).opFinish slot r.status, mem := cryStore o r s.mem }
    else .next { s with dev := d }
  | none => .next { s with dev := d }

/-! ### Signatures and agreement -/

/-- Whether a length is that of a digest a signature takes. -/
def digestLen (n : Nat) : Bool := n = 32 || n = 48

/-- Effect of SIGN. -/
def signEffect (o : Op) (x : List Byte) (d : Dev) : CryOut :=
  match d.withAttr (d.refUse o.keyref) KA.SIGN with
  | .error e => cryFail d e
  | .ok k =>
    if !digestLen x.length then cryFail d KS.FORMAT
    else if d.on 0 KEY_TRNG.FAIL then cryFail d KS.ENTROPY
    else
      let (n, d) := d.draw
      cryDone d (fixLen (2 * keyLen k.typ) (Config.ecdsaSign n k.key x))

/-- SIGN (R363). -/
def execSign (t : Nat) (slot : Fin 384) (s : State) := onCry t slot 0x01 signEffect s

/-- Verify a digest and a signature under a public key whose signature takes 64 or 96 bytes. -/
def verifyWith (d : Dev) (key x : List Byte) (sig : Nat) : CryOut :=
  if x.length < sig || !digestLen (x.length - sig) then cryFail d KS.FORMAT
  else if Config.ecdsaVerify key (x.take (x.length - sig)) (x.drop (x.length - sig)) then cryOk d
  else cryFail d KS.BADSIG

/-- Effect of VERIFY. -/
def verifyEffect (o : Op) (x : List Byte) (d : Dev) : CryOut :=
  if o.keyref = 0xFF then
    if 1 < o.aux then cryFail d KS.FORMAT
    else
      let n := if o.aux = 0 then 65 else 97
      if x.length < n then cryFail d KS.FORMAT else verifyWith d (x.take n) (x.drop n) (n - 1)
  else
    match d.withAttr (d.refUse o.keyref) KA.VERIFY with
    | .error e => cryFail d e
    | .ok k => verifyWith d k.key x (keyLen k.typ - 1)

/-- VERIFY (R363). -/
def execVerify (t : Nat) (slot : Fin 384) (s : State) := onCry t slot 0x02 verifyEffect s

/-- Effect of ECDH. -/
def ecdhEffect (o : Op) (x : List Byte) (d : Dev) : CryOut :=
  match d.withAttr (d.refUse o.keyref) KA.ECDH with
  | .error e => cryFail d e
  | .ok k =>
    if x.length ≠ 2 * keyLen k.typ + 1 then cryFail d KS.FORMAT
    else
      match Config.ecdhSecret k.key x with
      | some z => cryDone d (fixLen (keyLen k.typ) z)
      | none => cryFail d KS.FORMAT

/-- ECDH (R363). -/
def execEcdh (t : Nat) (slot : Fin 384) (s : State) := onCry t slot 0x03 ecdhEffect s

/-! ### Contexts and blobs (R360, R361) -/

/-- Whether a blob may be wrapped or opened under a PARENT with an attribute: 0 it may, else the status. -/
def Dev.parentStatus (d : Dev) (parent a : Nat) : Nat :=
  if parent = 0x3F then 0
  else if 32 ≤ parent then KS.FORMAT
  else
    match d.withAttr (d.slotUse parent) a with
    | .error e => e
    | .ok k => if k.typ = 5 then 0 else KS.ATTR

/-- The blob of a key, with its nonce (R360). -/
def Dev.mkBlob (d : Dev) (typ attr lcmask parent : Nat) (label key : List Byte) : List Byte × Dev :=
  let (nonce, d) := d.drawBytes 12
  let hd := b1 1 ++ b1 typ ++ b1 attr ++ b1 lcmask ++ b1 parent ++ b1 d.key.lc ++ leBytes 2 d.key.gen ++ nonce
    ++ d.serial ++ fixLen 4 label
  (hd ++ fixLen 64 (Config.gcmEnc (d.blobKey parent) nonce hd (fixLen 48 key)), d)

/-- Effect of GENKEY. -/
def genkeyEffect (o : Op) (x : List Byte) (d : Dev) : CryOut :=
  let n := o.keyref
  let typ := o.aux
  let attr := leAt x 0 1
  let parent := leAt x 2 1
  let ps := d.parentStatus parent KA.WRAP
  if 64 ≤ n then cryFail d 1
  else if x.length ≠ 8 || leAt x 3 1 ≠ 0 || !(typ = 1 || typ = 2 || typ = 5 || typ = 6) then cryFail d KS.FORMAT
  else if d.ctxUsed n then cryFail d KS.BUSY
  else if !attrOk typ attr false then cryFail d KS.ATTR
  else if ps ≠ 0 then cryFail d ps
  else if d.on 0 KEY_TRNG.FAIL then cryFail d KS.ENTROPY
  else
    let (key, d) := d.drawBytes (keyLen typ)
    let (blob, d) := d.mkBlob typ attr (leAt x 1 1) parent (slice x 4 4) key
    let pub := if typ ≤ 2 then fixLen (2 * keyLen typ + 1) (Config.ecPublic key) else []
    cryDone (d.setCtx n typ attr (leAt x 1 1) parent key) (pub ++ blob)

/-- GENKEY (R363). -/
def execGenkey (t : Nat) (slot : Fin 384) (s : State) := onCry t slot 0x04 genkeyEffect s

/-- Why a blob is refused; 0 where it is not (R359, R360). -/
def Dev.blobStatus (d : Dev) (x : List Byte) : Nat :=
  let parent := leAt x 4 1
  if leAt x 5 1 ≠ d.key.lc || leAt x 6 2 ≠ d.key.gen then KS.GEN
  else if slice x 20 8 ≠ d.serial then KS.SERIAL
  else if parent < 32 && !d.debug && (d.kslot parent).state = 2 then KS.ORPHAN
  else
    let ps := d.parentStatus parent KA.UNWRAP
    if ps ≠ 0 then ps
    else if leAt x 1 1 = 2 && (leAt x 2 1).testBit KA.UNWRAP then KS.ATTR
    else 0

/-- Effect of LOAD. -/
def loadEffect (o : Op) (x : List Byte) (d : Dev) : CryOut :=
  let n := o.keyref
  if 64 ≤ n then cryFail d 1
  else if x.length ≠ 96 || leAt x 0 1 ≠ 1 then cryFail d KS.FORMAT
  else if d.ctxUsed n then cryFail d KS.BUSY
  else if d.blobStatus x ≠ 0 then cryFail d (d.blobStatus x)
  else
    match Config.gcmDec (d.blobKey (leAt x 4 1)) (slice x 8 12) (x.take 32) (x.drop 32) with
    | none => cryFail d KS.AUTH
    | some key => cryOk (d.setCtx n (leAt x 1 1) (leAt x 2 1) (leAt x 3 1) (leAt x 4 1) (fixLen (keyLen (leAt x 1 1)) key))

/-- LOAD (R360). -/
def execLoad (t : Nat) (slot : Fin 384) (s : State) := onCry t slot 0x05 loadEffect s

/-- Effect of UNLOAD. -/
def unloadEffect (o : Op) (_x : List Byte) (d : Dev) : CryOut :=
  if 64 ≤ o.keyref then cryFail d 1
  else if d.ctxUsed o.keyref then cryOk (d.freeCtx o.keyref) else cryFail d KS.EMPTY

/-- UNLOAD (R361). -/
def execUnload (t : Nat) (slot : Fin 384) (s : State) := onCry t slot 0x06 unloadEffect s

/-- The key of an import package, or why it is refused (R361). -/
def Dev.openPackage (d : Dev) (imp target : Nat) (x : List Byte) : Except Nat (List Byte) :=
  match d.withAttr (d.slotUse imp) KA.UNWRAP with
  | .error e => .error e
  | .ok k =>
    if k.typ ≠ 2 then .error KS.ATTR
    else
      match Config.ecdhSecret k.key (slice x 4 97) with
      | none => .error KS.AUTH
      | some z =>
        match Config.gcmDec (d.importKey (fixLen 48 z) target) (slice x 101 12)
          (d.serial ++ b1 target ++ x.take 3) (x.drop 113) with
        | none => .error KS.AUTH
        | some key => .ok (fixLen (keyLen (leAt x 0 1)) key)

/-- Whether the target of an IMPORT can take the key: 0 it can, else the status. -/
def Dev.importStatus (d : Dev) (r typ attr : Nat) : Nat :=
  if r < 64 then
    if d.ctxUsed r then KS.BUSY
    else if !attrOk typ attr false || (typ = 2 && attr.testBit KA.UNWRAP) then KS.ATTR
    else if d.on 0 KEY_TRNG.FAIL then KS.ENTROPY else 0
  else if d.debug then KS.LC
  else if (d.kslot (r - 64)).state = 1 then KS.BUSY
  else if !attrOk typ attr true || r = 64 then KS.ATTR else 0

/-- Effect of IMPORT. -/
def importEffect (o : Op) (x : List Byte) (d : Dev) : CryOut :=
  let r := o.keyref
  let typ := leAt x 0 1
  let attr := leAt x 1 1
  let st := d.importStatus r typ attr
  if 96 ≤ r || 32 ≤ o.aux then cryFail d 1
  else if !(typ = 1 || typ = 2 || typ = 5 || typ = 6) || x.length ≠ 4 + 97 + 12 + keyLen typ + 16 || leAt x 3 1 ≠ 0 then
    cryFail d KS.FORMAT
  else if st ≠ 0 then cryFail d st
  else
    match d.openPackage o.aux (r % 64) x with
    | .error e => cryFail d e
    | .ok key =>
      if r < 64 then
        let (blob, d) := d.mkBlob typ attr (leAt x 2 1) 0x3F [] key
        cryDone (d.setCtx r typ attr (leAt x 2 1) 0x3F key) blob
      else
        cryOk (d.setKslot (r - 64) { state := 1, typ := typ, attr := attr, lcmask := leAt x 2 1, role := 0,
                                     parent := o.aux, key := key })

/-- IMPORT (R361). -/
def execImport (t : Nat) (slot : Fin 384) (s : State) := onCry t slot 0x07 importEffect s

/-! ### Symmetric functions -/

/-- Effect of MAC. -/
def macEffect (o : Op) (x : List Byte) (d : Dev) : CryOut :=
  match d.withAttr (d.refUse o.keyref) KA.MAC with
  | .error e => cryFail d e
  | .ok k => cryDone d (fixLen 48 (Config.hmac k.key x))

/-- MAC (R363). -/
def execMac (t : Nat) (slot : Fin 384) (s : State) := onCry t slot 0x08 macEffect s

/-- Effect of ENC: nonce, AAD length, AAD, plain text. -/
def encEffect (o : Op) (x : List Byte) (d : Dev) : CryOut :=
  match d.withAttr (d.refUse o.keyref) KA.ENC with
  | .error e => cryFail d e
  | .ok k =>
    let n := leAt x 12 2
    if x.length < 14 + n then cryFail d KS.FORMAT
    else
      let p := x.drop (14 + n)
      cryDone d (fixLen (p.length + 16) (Config.gcmEnc k.key (x.take 12) (slice x 14 n) p))

/-- ENC (R363). -/
def execEnc (t : Nat) (slot : Fin 384) (s : State) := onCry t slot 0x09 encEffect s

/-- Effect of DEC: as ENC, with cipher text and tag. -/
def decEffect (o : Op) (x : List Byte) (d : Dev) : CryOut :=
  match d.withAttr (d.refUse o.keyref) KA.DEC with
  | .error e => cryFail d e
  | .ok k =>
    let n := leAt x 12 2
    if x.length < 30 + n then cryFail d KS.FORMAT
    else
      let c := x.drop (14 + n)
      match Config.gcmDec k.key (x.take 12) (slice x 14 n) c with
      | some p => cryDone d (fixLen (c.length - 16) p)
      | none => cryFail d KS.AUTH

/-- DEC (R363). -/
def execDec (t : Nat) (slot : Fin 384) (s : State) := onCry t slot 0x0A decEffect s

/-- Effect of DIGEST. -/
def digestEffect (o : Op) (x : List Byte) (d : Dev) : CryOut :=
  if o.keyref ≠ 0xFF then cryFail d 1
  else if 1 < o.aux then cryFail d KS.FORMAT
  else cryDone d (fixLen (if o.aux = 0 then 32 else 48) (Config.digest o.aux x))

/-- DIGEST (R363). -/
def execDigest (t : Nat) (slot : Fin 384) (s : State) := onCry t slot 0x0B digestEffect s

/-- Effect of RANDOM: as many bytes as the output takes, up to 4,096. -/
def randomEffect (o : Op) (x : List Byte) (d : Dev) : CryOut :=
  if o.keyref ≠ 0xFF then cryFail d 1
  else if !x.isEmpty || o.arg 24 4 < 4 then cryFail d KS.FORMAT
  else if d.on 0 KEY_TRNG.FAIL then cryFail d KS.ENTROPY
  else
    let (bs, d) := d.drawBytes (min 4096 (o.arg 24 4 - 4))
    cryDone d bs

/-- RANDOM (R363). -/
def execRandom (t : Nat) (slot : Fin 384) (s : State) := onCry t slot 0x0C randomEffect s

/-! ### Slots, lifecycle, generation (R353 to R359) -/

/-- The token rule of slots: none in PROVISIONED, a slot token in FIELD, else not at all (R359). The length a token
takes in the input. -/
def Dev.slotTokLen (d : Dev) : Nat := if d.key.lc = 2 then 160 else 0

/-- Slots can be stored and invalidated in PROVISIONED and FIELD, and not under debug. -/
def Dev.slotOps (d : Dev) : Bool := !d.debug && (d.key.lc = 1 || d.key.lc = 2)

/-- Whether the token of a slot operation passes. -/
def Dev.slotTok (d : Dev) (s : Nat) (tok : List Byte) : Bool := d.key.lc = 1 || d.tokenOk 4 s tok

/-- The key a SLOT_STORE stores: of a context, or the public key in the input. -/
def Dev.storeKey (d : Dev) (r : Nat) (pub : List Byte) : Except Nat (Nat × List Byte) :=
  if r = 0xFF then
    if pub.length = 65 then .ok (3, pub) else if pub.length = 97 then .ok (4, pub) else .error KS.FORMAT
  else if 64 ≤ r then .error 1
  else if !pub.isEmpty then .error KS.FORMAT
  else
    match d.refUse r with
    | .error e => .error e
    | .ok k => .ok (k.typ, k.key)

/-- Whether a store keeps Table KEY-2 and the roles of R358. -/
def storeOk (s typ attr role parent : Nat) : Bool :=
  attrOk typ attr true && role ≤ 2 && (role = 0 || (typ = 4 && attr = 0x02)) && (role = 1) == (s = 0)
    && (parent < 32 || parent = 0x3F)

/-- Effect of SLOT_STORE. -/
def slotStoreEffect (o : Op) (x : List Byte) (d : Dev) : CryOut :=
  let s := o.aux
  let n := d.slotTokLen
  if 32 ≤ s then cryFail d 1
  else if !d.slotOps || (s = 0 && d.key.lc ≠ 1) then cryFail d KS.LC
  else if x.length < 4 + n then cryFail d KS.FORMAT
  else
    match d.storeKey o.keyref (x.drop (4 + n)) with
    | .error e => cryFail d e
    | .ok (typ, key) =>
      if (d.kslot s).state = 1 then cryFail d KS.BUSY
      else if !storeOk s typ (leAt x 0 1) (leAt x 2 1) (leAt x 3 1) then cryFail d KS.ATTR
      else if !d.slotTok s (slice x 4 n) then cryFail d.chalUse KS.TOKEN
      else
        let d := if n = 0 then d else d.chalUse
        cryOk (d.setKslot s { state := 1, typ := typ, attr := leAt x 0 1, lcmask := leAt x 1 1, role := leAt x 2 1,
                              parent := leAt x 3 1, key := key })

/-- SLOT_STORE (R359). -/
def execSlotStore (t : Nat) (slot : Fin 384) (s : State) := onCry t slot 0x10 slotStoreEffect s

/-- An enabled block uses a slot of the list: the Yarn-line network key (R359). -/
def Dev.slotsInUse (d : Dev) (l : List Nat) : Bool := d.on 0 PLC_CFG.YEN && l.contains (d.rd 0 PLC_CFG.NKSLOT)

/-- Effect of SLOT_INVALIDATE. -/
def slotInvalidateEffect (o : Op) (x : List Byte) (d : Dev) : CryOut :=
  let s := o.aux
  if o.keyref ≠ 0xFF || 32 ≤ s then cryFail d 1
  else if !d.slotOps then cryFail d KS.LC
  else if x.length ≠ d.slotTokLen then cryFail d KS.FORMAT
  else if !d.slotTok s x then cryFail d.chalUse KS.TOKEN
  else
    let d := if x.isEmpty then d else d.chalUse
    let fam := d.family s
    if d.slotsInUse fam then cryFail d 2
    else
      let ctxs := (List.range 64).filter fun n => d.ctxUsed n && fam.contains (d.rd 0 (CRY_CTX.PARENT n))
      let d := ctxs.foldl Dev.clearCtx (fam.foldl Dev.voidSlot d)
      cryOk (d.raise 0 Ev.KEY.SLOT_INVALID)

/-- SLOT_INVALIDATE (R359). -/
def execSlotInvalidate (t : Nat) (slot : Fin 384) (s : State) := onCry t slot 0x11 slotInvalidateEffect s

/-- The lifecycle becomes c (R353). -/
def Dev.lcBecome (d : Dev) (c : Nat) : Dev :=
  let d := { d with key := { d.key with lc := c } }
  let d := (d.wr 0 KEY_LC.STATE c).clearCtxs
  let d := if c = 4 then (List.range 32).foldl Dev.voidSlot d else d
  d.raise 0 Ev.KEY.LC_CHANGE

/-- Whether the lifecycle may become c by an operation: Table KEY-1. -/
def Dev.lcMay (d : Dev) (c : Nat) : Bool :=
  (c = 2 && d.key.lc = 1 && (d.kslot 0).state = 1 && (d.kslot 0).role = 1) || (c = 3 && d.key.lc = 2)
    || (c = 4 && d.key.lc ≠ 4)

/-- Effect of LC_ADVANCE: the token names the target; none is needed from RETURNED to SCRAPPED. -/
def lcAdvanceEffect (o : Op) (x : List Byte) (d : Dev) : CryOut :=
  if o.keyref ≠ 0xFF then cryFail d 1
  else if d.debug then cryFail d KS.LC
  else if x.isEmpty && d.key.lc = 3 then cryOk (d.lcBecome 4)
  else if x.length ≠ 160 then cryFail d KS.FORMAT
  else if !d.lcMay (leAt x 1 1) then cryFail d KS.LC
  else if !d.tokenOk 1 (leAt x 1 1) x then cryFail d.chalUse KS.TOKEN
  else cryOk (d.chalUse.lcBecome (leAt x 1 1))

/-- LC_ADVANCE (R353). -/
def execLcAdvance (t : Nat) (slot : Fin 384) (s : State) := onCry t slot 0x12 lcAdvanceEffect s

/-- Effect of GEN_ADVANCE (R357). -/
def genAdvanceEffect (o : Op) (x : List Byte) (d : Dev) : CryOut :=
  if o.keyref ≠ 0xFF then cryFail d 1
  else if d.debug then cryFail d KS.LC
  else if x.length ≠ 160 then cryFail d KS.FORMAT
  else if 63 ≤ d.key.gen then cryFail d KS.OTP
  else if !d.tokenOk 2 0 x then cryFail d.chalUse KS.TOKEN
  else
    let g := d.key.gen + 1
    let d := { d.chalUse with key := { d.chalUse.key with gen := g } }
    cryOk ((((d.wr 0 KEY_GEN.GEN g).wr 0 KEY_GEN.LEFT (63 - g)).clearCtxs).raise 0 Ev.KEY.GEN_ADVANCE)

/-- GEN_ADVANCE (R357). -/
def execGenAdvance (t : Nat) (slot : Fin 384) (s : State) := onCry t slot 0x13 genAdvanceEffect s

/-- Debug is armed for the next cast-on. -/
def Dev.armDebug (d : Dev) : Dev :=
  ({ d with key := { d.key with armed := true } }.wr 0 KEY_LC.DBGARM 1).raise 0 Ev.KEY.DEBUG_ARMED

/-- Effect of DEBUG_ARM (R356). -/
def debugArmEffect (o : Op) (x : List Byte) (d : Dev) : CryOut :=
  if o.keyref ≠ 0xFF then cryFail d 1
  else if d.key.lc = 2 then cryFail d KS.LC
  else if x.length ≠ (if d.key.lc = 3 then 160 else 0) then cryFail d KS.FORMAT
  else if d.key.lc ≠ 3 then cryOk d.armDebug
  else if d.tokenOk 3 0 x then cryOk d.chalUse.armDebug
  else cryFail d.chalUse KS.TOKEN

/-- DEBUG_ARM (R356). -/
def execDebugArm (t : Nat) (slot : Fin 384) (s : State) := onCry t slot 0x14 debugArmEffect s

/-! ### Signed images (R364 to R367) -/

/-- Offset and length of a bank in the boot flash (R364). -/
def bankBase (b : Nat) : Nat := if b = 0 then 0 else if b = 1 then 0x400000 else if b = 2 then 0x800000 else 0x900000
def bankLen (b : Nat) : Nat := if b < 2 then 0x400000 else 0x100000

/-- A sector of the boot flash (log entry 40). -/
def sectorLen : Nat := 4096

/-- State of a bank: 0 EMPTY, 1 CONFIRMED, 2 TRIAL, 3 INVALID. -/
def Dev.bank (d : Dev) (b : Nat) : Nat := d.key.bank.get (fun _ => 0) b

/-- KEY_IMG shows the state of a bank. -/
def Dev.showBank (d : Dev) (b : Nat) : Dev :=
  d.wr 0 (if b = 0 then KEY_IMG.RTA else if b = 1 then KEY_IMG.RTB else if b = 2 then KEY_IMG.CFGA else KEY_IMG.CFGB)
    (d.bank b)

/-- A bank takes a state. -/
def Dev.setBank (d : Dev) (b st : Nat) : Dev :=
  Dev.showBank { d with key := { d.key with bank := d.key.bank.set (fun _ => 0) b st } } b

/-- The bank of a kind that runs: 0 runtime, 1 configuration. -/
def Dev.bankRun (d : Dev) (kind : Nat) : Nat := if kind = 0 then d.rd 0 KEY_IMG.BOOTBANK else d.key.cfgRun

/-- The bank of a kind that IMG_WRITE writes: neither running nor confirmed (R365). -/
def Dev.bankFree (d : Dev) (kind : Nat) : Option Nat :=
  let stop := d.rd 0 SYS_STAT.STOP
  let runs := !((kind = 0 && stop = 3) || (kind = 1 && stop = 4))
  [2 * kind, 2 * kind + 1].find? fun b => !((runs && d.bankRun kind = b) || d.bank b = 1)

/-- Bytes of the boot flash. -/
def Dev.flash (d : Dev) (a n : Nat) : List Byte := (d.key.flash.getBytes a n).map (~~~ ·)

/-- A number in the header of a bank (R364). -/
def Dev.imgNum (d : Dev) (b off n : Nat) : Nat := leNat (d.flash (bankBase b + off) n)

/-- Whether a bank's image passes: header, digest and signature (R364, R366). -/
def Dev.imgOk (d : Dev) (b : Nat) : Bool :=
  let hd := d.flash (bankBase b) 256
  let len := leAt hd 12 4
  let kind := b / 2
  let keys := if kind = 0 then [Config.imageKey] else d.cfgKeys
  leAt hd 0 1 = kind + 1 && leAt hd 1 1 = 1 && leAt hd 2 2 = 0 && len + 256 ≤ bankLen b
    && (slice hd 16 8 = d.serial || leAt hd 16 8 = 0) && (hd.drop 168).all (· = 0#8)
    && slice hd 24 48 = fixLen 48 (Config.digest 1 (d.flash (bankBase b + 256) len))
    && keys.any fun k => Config.ecdsaVerify k (Config.digest 1 (hd.take 72)) (slice hd 72 96)

/-- SVN of a bank's image. -/
def Dev.imgSvn (d : Dev) (b : Nat) : Nat := d.imgNum b 8 4

/-- Erase the sectors of a range that this write sequence has not erased, and write the range. -/
def Dev.flashWrite (d : Dev) (a : Nat) (bs : List Byte) : Dev :=
  let secs := (List.range ((bs.length + sectorLen - 1) / sectorLen + 1)).map (· + a / sectorLen)
  let new := secs.filter fun x => x * sectorLen < a + bs.length && !d.key.erased.contains x
  let fl := new.foldl (fun m x => AMap.clearRange m (x * sectorLen) sectorLen) d.key.flash
  { d with key := { d.key with flash := fl.setBytes a (bs.map (~~~ ·)), erased := d.key.erased ++ new } }

/-- Effect of IMG_WRITE (R365). -/
def imgWriteEffect (o : Op) (x : List Byte) (d : Dev) : CryOut :=
  let a := leAt x 0 4
  let n := x.length - 4
  if o.keyref ≠ 0xFF || 1 < o.aux then cryFail d 1
  else if x.length < 4 || 32768 < n then cryFail d KS.FORMAT
  else
    match d.bankFree o.aux with
    | none => cryFail d 1
    | some b =>
      if a < bankBase b || bankBase b + bankLen b < a + n then cryFail d 1
      else
        let d := (d.flashWrite a (x.drop 4)).setBank b 0
        cryOk { d with key := { d.key with broken := d.key.broken.set (fun _ => false) b false,
                                           fallback := d.key.fallback.set (fun _ => false) b false } }

/-- IMG_WRITE (R365). -/
def execImgWrite (t : Nat) (slot : Fin 384) (s : State) := onCry t slot 0x18 imgWriteEffect s

/-- Effect of IMG_COMMIT (R365, R367). -/
def imgCommitEffect (o : Op) (x : List Byte) (d : Dev) : CryOut :=
  if o.keyref ≠ 0xFF || 1 < o.aux then cryFail d 1
  else if !x.isEmpty then cryFail d KS.FORMAT
  else
    match d.bankFree o.aux with
    | none => cryFail d 1
    | some b =>
      let secs := d.key.erased.filter fun z => !(bankBase b ≤ z * sectorLen && z * sectorLen < bankBase b + bankLen b)
      let d := { d with key := { d.key with erased := secs } }
      if d.key.broken.get (fun _ => false) b || !d.imgOk b then cryFail d KS.IMAGE
      else if d.imgSvn b < d.key.minSvn then cryFail d KS.ROLLBACK
      else
        let d := d.setBank b 2
        let d := { d with key := { d.key with trials := d.key.trials.set (fun _ => 0) o.aux 0 } }
        cryOk ((if o.aux = 0 then d.wr 0 KEY_IMG.TRIALS 0 else d).raise 0 Ev.KEY.IMG_TRIAL)

/-- IMG_COMMIT (R365). -/
def execImgCommit (t : Nat) (slot : Fin 384) (s : State) := onCry t slot 0x19 imgCommitEffect s

/-- MINSVN rises to the SVN of a runtime image confirmed (R367). -/
def Dev.raiseSvn (d : Dev) (v : Nat) : Dev :=
  if d.key.minSvn < v then
    ({ d with key := { d.key with minSvn := v } }.wr 0 KEY_SVN.MINSVN v).raise 0 Ev.KEY.ROLLBACK
  else d

/-- Effect of IMG_CONFIRM (R366, R367): the fallback bank shows EMPTY (log entry 41). -/
def imgConfirmEffect (o : Op) (x : List Byte) (d : Dev) : CryOut :=
  if o.keyref ≠ 0xFF || 1 < o.aux then cryFail d 1
  else if !x.isEmpty then cryFail d KS.FORMAT
  else
    let b := if o.aux = 0 then d.rd 0 KEY_IMG.BOOTBANK else d.key.cfgRun
    if d.bank b ≠ 2 then cryFail d 2
    else if o.aux = 0 && 63 < d.imgSvn b then cryFail d KS.OTP
    else
      let other := if b % 2 = 0 then b + 1 else b - 1
      let was := d.bank other = 1
      let d := (d.setBank b 1).setBank other 0
      let d := { d with key := { d.key with fallback := (d.key.fallback.set (fun _ => false) b false).set (fun _ => false) other was } }
      cryOk (if o.aux = 0 then d.raiseSvn (d.imgSvn b) else d)

/-- IMG_CONFIRM (R366). -/
def execImgConfirm (t : Nat) (slot : Fin 384) (s : State) := onCry t slot 0x1A imgConfirmEffect s

/-- An IMG_WRITE that replay finds in flight leaves its bank unusable until a new sequence (R365). -/
def Dev.imgInterrupted (d : Dev) (o : Op) : Dev :=
  if o.kind = OK.CRY_OP && o.func = 0x18 then
    match d.bankFree o.aux with
    | some b =>
      let d := d.setBank b 3
      { d with key := { d.key with broken := d.key.broken.set (fun _ => false) b true, erased := [] } }
    | none => d
  else d

/-! ### Entropy and the challenge (R351, R354) -/

/-- Effect of ENTROPY_FAIL. -/
def entropyFailEffect (d : Dev) : Dev :=
  let d := (d.wr 0 KEY_TRNG.FAIL 1).incSat 0 KEY_TRNG.FAILS
  ({ d with key := { d.key with failAt := d.now } }).raise 0 Ev.KEY.ENTROPY_FAIL

/-- ENTROPY_FAIL (R351). -/
def execEntropyFail (t : Nat) (s : State) := onDev t entropyFailEffect s

/-- Effect of ENTROPY_RESTART, 1 s after the failure: the start-up test passes and FAIL clears. -/
def entropyRestartEffect (d : Dev) : Dev :=
  if d.on 0 KEY_TRNG.FAIL && d.key.failAt + ticksPerS ≤ d.now then d.wr 0 KEY_TRNG.FAIL 0 else d

/-- ENTROPY_RESTART (R351). -/
def execEntropyRestart (t : Nat) (s : State) := onDev t entropyRestartEffect s

/-- A write of KEY_CHALCMD: NEW draws a challenge; refused in SCRAPPED (R354). -/
def Dev.challengeWrite (d : Dev) (v : Word) : Except Nat Dev :=
  if d.key.lc = 4 then .error RC.LIFECYCLE
  else if v.getLsbD 0 && !d.on 0 KEY_TRNG.FAIL then
    let (bs, d) := d.drawBytes 48
    let d := (List.range 12).foldl (fun d w => d.wr 0 (KEY_CHAL.DATA w) (leAt bs (4 * w) 4)) d
    .ok { d with key := { d.key with chalAt := some d.now } }
  else .ok d

/-- Effect of KEY_CHALLENGE_EXPIRY: 60 s after issue the challenge is void. -/
def keyChallengeExpiryEffect (d : Dev) : Dev :=
  match d.key.chalAt with
  | some t => if t + 60 * ticksPerS ≤ d.now then d.chalUse else d
  | none => d

/-- KEY_CHALLENGE_EXPIRY (R354). -/
def execKeyChallengeExpiry (t : Nat) (s : State) := onDev t keyChallengeExpiryEffect s

end Sys2Proof.Machine
end

