-- ==== Sys2Proof/Machine/LegalCore.lean ====
section
/-!
DEFINITION. What the chapters of the legal island share: its parameters (Tables MTR-1 and TRF-1, R380), RTC time
(R276, R280), energy registers (R246, R247), and the tamper log (R265).
-/

namespace Sys2Proof.Machine

/-! ### Parameters -/

/-- Change the legal island. -/
def Dev.modLgl (d : Dev) (f : Lgl → Lgl) : Dev := { d with lgl := f d.lgl }

/-- Change what a transaction writes. -/
def Dev.modTot (d : Dev) (f : Totals → Totals) : Dev := d.modLgl fun l => { l with tot := f l.tot }

/-! The parameters by their index p, which counts the entries of Table MTR-1, Table TRF-1 and MREF from 1 (R260). -/

namespace MP
abbrev OSR : Nat := 1
abbrev MCLK_MODE : Nat := 2
abbrev MCLK_PHASE : Nat := 3
abbrev CODING : Nat := 4
abbrev ROLE : Nat := 5
abbrev TARGET : Nat := 6
abbrev FS : Nat := 7
abbrev GAIN : Nat := 8
abbrev OFS : Nat := 9
abbrev DELAY : Nat := 10
abbrev ISTART : Nat := 11
abbrev MODE : Nat := 12
abbrev REFPH : Nat := 13
abbrev MODREV_V : Nat := 14
abbrev HOME : Nat := 15
abbrev INTLEN : Nat := 16
abbrev JUMP_LIM : Nat := 17
abbrev SPLIT_ON_JUMP : Nat := 18
abbrev FALLBACK_ON_LOSS : Nat := 19
abbrev RTC_TRIM : Nat := 20
abbrev MREF : Nat := 21
end MP

/-- Instances of a parameter: device, groups, channels, metering points, register sets, incomers, DC points. -/
def parCount (p : Nat) : Nat :=
  if p = 2 || p = 3 then 12 else if 4 ≤ p && p ≤ 10 then 96 else if p = MP.ISTART || p = MP.HOME then 36
  else if p = MP.MODE then 40 else if p = MP.REFPH then 4 else if p = MP.MODREV_V then 32
  else if 1 ≤ p && p ≤ 21 then 1 else 0

/-- The default assignment of roles (R236). -/
def roleDefault (c : Nat) : Int :=
  if c < 64 then 1 + (c % 2 : Nat) else if c < 88 then (if (c - 64) % 6 < 3 then 3 else 4) else 0

/-- The default assignment of targets: DC point n, or 32 + 3j + φ − 1 (R236). -/
def targetDefault (c : Nat) : Int :=
  if c < 64 then (c / 2 : Nat) else if c < 88 then (32 + 3 * ((c - 64) / 6) + (c - 64) % 3 : Nat) else 0

/-- The default of a parameter, by its key. -/
def parDefault (k : Nat) : Int :=
  match k / 256 with
  | 3 => 8
  | 5 => roleDefault (k % 256)
  | 6 => targetDefault (k % 256)
  | 8 => 2 ^ 30
  | 11 => 500
  | 13 => 1
  | 14 => 20000
  | 16 => 2
  | 17 => 5
  | 18 => 1
  | 19 => 1
  | _ => 0

/-- The range of a parameter's values. -/
def parRange (p : Nat) : Int × Int :=
  match p with
  | 1 | 2 | 4 | 12 | 15 | 18 | 19 => (0, 1)
  | 3 => (0, 15)
  | 5 => (0, 4)
  | 6 => (0, 43)
  | 7 => (1, 4294967295)
  | 8 => (2 ^ 29, 2 ^ 31)
  | 9 => (-107374182, 107374182)
  | 10 => (-8192, 8191)
  | 11 => (0, 100000)
  | 13 => (1, 3)
  | 14 => (1000, 100000)
  | 16 => (0, 4)
  | 17 => (1, 300)
  | 20 => (-20000, 20000)
  | _ => (0, 2)

/-- A parameter whose value is signed. -/
def parSigned (p : Nat) : Bool := p = MP.OFS || p = MP.DELAY || p = MP.RTC_TRIM

/-- A parameter of a set. -/
def parOf (m : AMap Int) (p i : Nat) : Int := m.get parDefault (p * 256 + i)

/-- An active parameter. -/
def Dev.par (d : Dev) (p : Nat) (i : Nat := 0) : Int := parOf d.lgl.par p i

/-- The channel that carries a role for a target (R236). -/
def Dev.chanOf (d : Dev) (role target : Nat) : Option Nat :=
  (List.range 96).find? fun c => d.par MP.ROLE c = role && d.par MP.TARGET c = target

/-- Whether a metering point is in use: a channel is assigned to it. Points 32 to 35 are the incomers. -/
def Dev.mpUsed (d : Dev) (mp : Nat) : Bool :=
  (List.range 96).any fun c =>
    let r := d.par MP.ROLE c
    let t := d.par MP.TARGET c
    if mp < 32 then (r = 1 || r = 2) && t = mp
    else (r = 3 || r = 4) && 32 + 3 * ((mp : Int) - 32) ≤ t && t < 35 + 3 * ((mp : Int) - 32)

/-- The channels of a metering point: voltage and current of a DC point; three voltages, then three currents. -/
def Dev.mpChans (d : Dev) (mp : Nat) : List Nat :=
  if mp < 32 then [d.chanOf 1 mp, d.chanOf 2 mp].filterMap id
  else
    let t := 32 + 3 * (mp - 32)
    [d.chanOf 3 t, d.chanOf 3 (t + 1), d.chanOf 3 (t + 2), d.chanOf 4 t, d.chanOf 4 (t + 1), d.chanOf 4 (t + 2)].filterMap id

/-- Whether register k of a point bills: MODE of its set selects ABS or NET (R246). -/
def Dev.bills (d : Dev) (mp k : Nat) : Bool :=
  let set := if mp < 32 then mp else if k < 3 then 32 + 2 * (mp - 32) else 33 + 2 * (mp - 32)
  (k < 3 || 32 ≤ mp) && k < 8 && ((d.par MP.MODE set = 1) = (k = 2 || k = 7))

/-- The interval length in seconds (R283). -/
def Dev.intLen (d : Dev) : Nat :=
  match (d.par MP.INTLEN).toNat with
  | 0 => 300
  | 1 => 600
  | 2 => 900
  | 3 => 1800
  | _ => 3600

/-! ### RTC time (R276, R280) -/

/-- Ticks as RTC time units of 2^-32 s. -/
def rtcUnits (ticks : Nat) : Nat := ticks * 2 ^ 32 / ticksPerS

/-- RTC time units as ticks. -/
def rtcTicks (u : Nat) : Nat := u * ticksPerS / 2 ^ 32

/-- The slew still outstanding: 1,000 ppm of the time since it began is absorbed (R280). -/
def Dev.slewLeft (d : Dev) : Int :=
  let s := d.lgl.rtc.slew
  let k : Nat := rtcUnits ((d.now : Int) - d.lgl.rtc.slewAt).toNat / 1000
  if s < 0 then min 0 (s + k) else max 0 (s - k)

/-- RTC time now, as its 64-bit value. -/
def Dev.rtcNow (d : Dev) : Nat :=
  let r := d.lgl.rtc
  let f : Int := rtcUnits ((d.now : Int) - r.secAt).toNat + (r.slew - d.slewLeft)
  r.sec * 2 ^ 32 + (clampI 0 (2 ^ 32 - 1) f).toNat

/-- The L-die's island is restored and running (R403). -/
def Dev.lglUp (d : Dev) : Bool := d.on 0 LGL_STAT.READY

/-- A power-fail warning is in force at the L-die. -/
def Dev.lglPfail (d : Dev) : Bool := d.on 0 LGL_STAT.PFAIL

/-! ### Record flags (Table LGL-5) -/

namespace RF
abbrev UNCLEAN : Nat := 0x001
abbrev SPLIT : Nat := 0x002
abbrev REPEATED : Nat := 0x004
abbrev TINV : Nat := 0x008
abbrev DEFTARIFF : Nat := 0x010
abbrev RESEAL : Nat := 0x020
abbrev MERGED : Nat := 0x040
abbrev GAP : Nat := 0x080
abbrev DEBUG : Nat := 0x100
abbrev POWERFAIL : Nat := 0x200
abbrev INTERRUPTED : Nat := 0x400
abbrev XCHK : Nat := 0x800
end RF

/-- Flags reach the running interval and every open receipt. -/
def Dev.periodFlag (d : Dev) (f : Nat) : Dev :=
  d.modTot fun t => { t with
    ivFlags := Nat.lor t.ivFlags f,
    rcpts := t.rcpts.map fun e => (e.1, e.2.map fun r => { r with flags := Nat.lor r.flags f }) }

/-! ### Energy registers (R246, R247) -/

/-- Key of a register. -/
def eKey (mp k e : Nat) : Nat := (8 * mp + k) * 17 + e

/-- A register. -/
def Dev.ereg (d : Dev) (mp k e : Nat) : EReg := d.lgl.tot.ereg.get (fun _ => {}) (eKey mp k e)

/-- Add a booking, in 2^-32 µWh, modulo 2^96; WRAP follows a register that passes its end (R247). -/
def EReg.add (x : EReg) (b : Int) : EReg :=
  let s : Int := x.v + b
  { v := (s % 2 ^ 96).toNat, wrap := x.wrap + s / 2 ^ 96 }

/-- The energy between two readings of a register (R247). -/
def eDiff (a b : EReg) : Int := (b.wrap - a.wrap) * 2 ^ 64 + ((b.v / 2 ^ 32 : Nat) : Int) - ((a.v / 2 ^ 32 : Nat) : Int)

/-- Book into a register's total and into the tariff register in force (R287). -/
def Dev.bookReg (d : Dev) (mp k : Nat) (b : Int) : Dev :=
  let tr := d.lgl.tariff
  d.modTot fun t =>
    let m := t.ereg.set (fun _ => {}) (eKey mp k 0) ((t.ereg.get (fun _ => {}) (eKey mp k 0)).add b)
    { t with ereg := m.set (fun _ => {}) (eKey mp k tr) ((m.get (fun _ => {}) (eKey mp k tr)).add b) }

/-- Book a magnitude to an ABS register and its interval accumulator, and the signed booking to its NET register
(R246, R248). -/
def Dev.bookAbs (d : Dev) (mp k net : Nat) (mag signed : Int) : Dev :=
  let d := (d.bookReg mp k mag).bookReg mp net signed
  d.modTot fun t =>
    { t with acc := t.acc.set (fun _ => 0) (8 * mp + k) ((t.acc.get (fun _ => 0) (8 * mp + k)) + mag.toNat) }

/-- Count invalid time of a metering point, in ticks (R248). -/
def Dev.addInvalid (d : Dev) (mp ticks : Nat) : Dev :=
  d.modTot fun t => { t with
    inv := t.inv.set (fun _ => 0) mp (t.inv.get (fun _ => 0) mp + ticks),
    invAll := t.invAll.set (fun _ => 0) mp (t.invAll.get (fun _ => 0) mp + ticks) }

/-- Count invalid time of every metering point in use. -/
def Dev.addInvalidAll (d : Dev) (ticks : Nat) : Dev :=
  (List.range 36).foldl (fun d mp => if d.mpUsed mp then d.addInvalid mp ticks else d) d

/-! ### Tamper log (R265) -/

/-- The event of a tamper code. -/
def tmpEv (c : Nat) : Ev := ⟨.tmp, c - 1⟩

/-- A tamper code's log entry. -/
def Dev.tmp (d : Dev) (c : Nat) : Tmp := d.lgl.tot.tmp.get (fun _ => {}) c

/-- The TMP page shows a code's log. -/
def Dev.showTmp (d : Dev) (c : Nat) : Dev :=
  let x := d.tmp c
  let d := (d.wr 0 (TMP_COUNT.COUNT c) x.count).wr64 0 (TMP_FIRST_LO.T c) (TMP_FIRST_HI.T c) x.first
  let d := (d.wr64 0 (TMP_LAST_LO.T c) (TMP_LAST_HI.T c) x.last).wr 0 (TMP_DETAIL.D c) x.detail
  let d := (d.wrB 0 (TMP_FLAGS.SAT c) x.sat).wrB 0 (TMP_FLAGS.TINV c) x.tinv
  d.wrBit 0 TMP_SUMMARY.SEEN (c - 1) (x.count ≠ 0)

/-- An occurrence of a tamper code: its log, the TAMPER field of the running interval and of every open receipt, its
event (R265). -/
def Dev.tamper (d : Dev) (c detail : Nat) : Dev :=
  let x := d.tmp c
  let now := d.rtcNow
  let n := min (x.count + 1) 0xFFFFFFFF
  let x := { x with count := n, sat := n = 0xFFFFFFFF,
                    first := if x.count = 0 then now else x.first, last := now, detail := detail,
                    tinv := !d.lgl.rtc.valid }
  let bit := 2 ^ (c - 1)
  let d := d.modTot fun t => { t with
    tmp := t.tmp.set (fun _ => {}) c x, ivTamper := Nat.lor t.ivTamper bit,
    rcpts := t.rcpts.map fun e => (e.1, e.2.map fun r => { r with tamper := Nat.lor r.tamper bit }) }
  (d.showTmp c).raise 0 (tmpEv c)

end Sys2Proof.Machine
end

