-- ==== Sys2Proof/Machine/LegalTime.lean ====
section
/-!
DEFINITION. Calendars (R284 to R288): their layout and validity, local calendar time, the tariff in force, and the next
switch point.
-/

namespace Sys2Proof.Machine

/-! ### The layout (Table TRF-2) -/

/-- Length of a calendar. -/
abbrev calLen : Nat := 3820

/-- A calendar's field, unsigned. -/
def calU (c : List Byte) (a n : Nat) : Nat := leAt c a n

/-- A calendar's 16-bit field, two's complement. -/
def calI16 (c : List Byte) (a : Nat) : Int := toSigned 16 (leAt c a 2)

/-- The calendar of a partition first initialised (R288). -/
def calInitial : List Byte :=
  leBytes 4 0xFFFFFFFF ++ [1#8, 1#8, 0#8, 0#8] ++ List.replicate 452 0#8 ++ [1#8, 1#8, 0#8, 0#8]
    ++ List.replicate 156 0#8 ++ [1#8, 0#8, 0#8, 0#8, 0#8, 0#8, 0#8, 1#8] ++ List.replicate 3192 0#8

/-- A UTC offset in range: −720 to 840 minutes, a multiple of 15. -/
def calOffOk (x : Int) : Bool := -720 ≤ x && x ≤ 840 && x % 15 = 0

/-- Days of a month, without 29 February. -/
def monthDays (m : Nat) : Nat := if m = 2 then 28 else if m = 4 || m = 6 || m = 9 || m = 11 then 30 else 31

/-- Whether a list rises strictly. -/
def rising : List Nat → Bool
  | a :: b :: l => a < b && rising (b :: l)
  | _ => true

/-- A day profile that a used week names. -/
def calDayOk (c : List Byte) (p : Nat) : Bool :=
  let b := 620 + 100 * p
  let n := calU c b 1
  let secs := (List.range n).map fun k => calU c (b + 4 + 4 * k) 3
  1 ≤ n && n ≤ 24 && calU c (b + 1) 3 = 0 && rising secs && secs.all (· ≤ 86399)
    && (List.range n).all fun k => let t := calU c (b + 7 + 4 * k) 1; 1 ≤ t && t ≤ 16

/-- A week profile that a used season names. -/
def calWeekOk (c : List Byte) (w : Nat) : Bool :=
  calU c (492 + 8 * w + 7) 1 = 0
    && (List.range 7).all fun k => let p := calU c (492 + 8 * w + k) 1; p ≤ 31 && calDayOk c p

/-- Whether a calendar is valid (Table TRF-2): only the profiles that a used season or week names are checked. -/
def calOk (c : List Byte) : Bool :=
  let ns := calU c 5 1
  let nd := calU c 6 1
  let dst := (List.range nd).map fun k => calU c (76 + 12 * k) 8
  let starts := (List.range ns).map fun k => calU c (460 + 4 * k) 1 * 32 + calU c (461 + 4 * k) 1
  calU c 0 4 ≠ 0 && 1 ≤ calU c 4 1 && calU c 4 1 ≤ 16 && 1 ≤ ns && ns ≤ 8 && nd ≤ 32 && calU c 7 1 = 0
    && calOffOk (calI16 c 8) && calU c 10 2 = 0 && rising dst && dst.all (fun x => x % 2 ^ 32 = 0)
    && ((List.range nd).all fun k => calOffOk (calI16 c (84 + 12 * k)) && calU c (86 + 12 * k) 2 = 0)
    && rising starts
    && (List.range ns).all fun k =>
      let m := calU c (460 + 4 * k) 1
      let dd := calU c (461 + 4 * k) 1
      let w := calU c (462 + 4 * k) 1
      1 ≤ m && m ≤ 12 && 1 ≤ dd && dd ≤ monthDays m && w ≤ 15 && calU c (463 + 4 * k) 1 = 0 && calWeekOk c w

/-! ### Local calendar time (R285) -/

/-- The DST entries of a calendar: second and offset in minutes. -/
def calDst (c : List Byte) : List (Nat × Int) :=
  (List.range (calU c 6 1)).map fun k => (calU c (80 + 12 * k) 4, calI16 c (84 + 12 * k))

/-- The offset in force at a second of calendar time, in minutes. -/
def calOffset (c : List Byte) (s : Nat) : Int :=
  (calDst c).foldl (fun o e => if e.1 ≤ s then e.2 else o) (calI16 c 8)

/-- The local times held through the spans that a decreasing offset repeats: each ends where local time passes what was
reached just before the decrease. -/
def calHolds (s : Nat) : Int → List (Nat × Int) → List Int
  | _, [] => []
  | o, e :: es => (if e.1 ≤ s && e.2 < o then [(e.1 : Int) + o * 60 - 1] else []) ++ calHolds s e.2 es

/-- Local calendar time of a second of calendar time, in seconds from 2000-01-01. -/
def calLocal (c : List Byte) (s : Nat) : Int :=
  (calHolds s (calI16 c 8) (calDst c)).foldl max ((s : Int) + calOffset c s * 60)

/-- Year, month and day of a number of days from 2000-01-01. -/
def civil (days : Int) : Int × Nat × Nat :=
  let z := days + 730425
  let era := z / 146097
  let doe := (z % 146097).toNat
  let yoe := (doe - doe / 1460 + doe / 36524 - doe / 146096) / 365
  let doy := doe - (365 * yoe + yoe / 4 - yoe / 100)
  let mp := (5 * doy + 2) / 153
  let dd := doy - (153 * mp + 2) / 5 + 1
  let m := if mp < 10 then mp + 3 else mp - 9
  ((yoe : Int) + era * 400 + (if m ≤ 2 then 1 else 0), m, dd)

/-! ### The tariff in force (R286) -/

/-- The tariff in force and where it was found. -/
structure TarState where
  tariff : Nat
  season : Nat
  week : Nat
  day : Nat
  sp : Nat
  deriving DecidableEq, Repr

/-- The day profile that applies on a local day: season, week profile, day profile. -/
def calDay (c : List Byte) (day : Int) : Nat × Nat × Nat :=
  let (_, m, dd) := civil day
  let ns := calU c 5 1
  let season := ((List.range ns).filter fun k =>
    calU c (460 + 4 * k) 1 * 32 + calU c (461 + 4 * k) 1 ≤ m * 32 + dd).getLastD (ns - 1)
  let week := calU c (462 + 4 * season) 1
  (season, week, calU c (492 + 8 * week + ((day + 5) % 7).toNat) 1)

/-- The evaluation of R286 at a second of calendar time. -/
def calTariff (c : List Byte) (s : Nat) : TarState :=
  let l := calLocal c s
  let (season, week, day) := calDay c (l / 86400)
  let sod := (l % 86400).toNat
  let b := 620 + 100 * day
  let n := calU c b 1
  let sp := ((List.range n).filter fun k => calU c (b + 4 + 4 * k) 3 ≤ sod).getLastD (n - 1)
  { tariff := calU c (b + 7 + 4 * sp) 1, season := season, week := week, day := day, sp := sp }

/-- Seconds of calendar time, after s and within 48 h of it, at which local calendar time reaches a switch point. -/
def calSwitches (c : List Byte) (s : Nat) : List Nat :=
  let day0 := calLocal c s / 86400
  let offs := [calOffset c s, calOffset c (s + 172800)]
  (List.range 3).flatMap fun (k : Nat) =>
    let (_, _, day) := calDay c (day0 + (k : Int))
    let b := 620 + 100 * day
    (List.range (calU c b 1)).flatMap fun i =>
      let x : Int := (day0 + (k : Int)) * 86400 + calU c (b + 4 + 4 * i) 3
      offs.filterMap fun o =>
        let y := x - o * 60
        if s < y && y ≤ s + 172800 && calLocal c y.toNat = x && calLocal c (y.toNat - 1) < x then some y.toNat else none

/-- The calendar time of the next switch point; all ones when none lies within 48 h (Table TRF-7). -/
def calNext (c : List Byte) (s : Nat) : Nat := (calSwitches c s).foldl min 0xFFFFFFFF

/-- The price of a tariff register. -/
def calPrice (c : List Byte) (t : Nat) : Nat := if 1 ≤ t && t ≤ 16 then calU c (8 + 4 * t) 4 else 0

end Sys2Proof.Machine
end

