-- ==== Sys2Proof/Machine/Tension.lean ====
section
/-!
DEFINITION. Tension: the inputs of a snapshot (R55 to R59, R63, R64, R67), strand assignment (R70), handovers (R72 to
R74), the row means (R95), what a row boundary makes active (R28, R77) and the computation of a row (R62, R75, R441).
-/

namespace Sys2Proof.Machine

/-! ### Cabinets (R58, R67) -/

/-- Whether a cabinet's temperature is stale. -/
def Dev.cabStale (d : Dev) (c : Nat) : Bool :=
  let ch := d.rd 0 (ALC_CABSRC.CH c)
  d.thmBroken ch || (d.thmRec ch).lastAt + 5 * d.rd 0 ALC_ROWCFG.ROW_US * ticksPerUs < d.now

/-- The derate of a cabinet, per mille. -/
def Dev.cabDerate (d : Dev) (c : Nat) : Nat :=
  if !d.on 0 (ALC_CABSRC.EN c) then 1000
  else if d.cabStale c then 10 * d.rd 0 (ALC_CABSRC.STALE_PCT c)
  else
    let t := d.rdI (d.rd 0 (ALC_CABSRC.CH c)) THM_TEMP.T
    let a := d.rdI 0 (ALC_CAB.T_START c)
    let z := d.rdI 0 (ALC_CAB.T_ZERO c)
    if t ≤ a then 1000 else if z ≤ t then 0 else ((1000 * (z - t)).tdiv (z - a)).toNat

/-- The cabinet of a strand, its derate and its temperature. -/
def Dev.strDerate (d : Dev) (s : Nat) : Nat := d.cabDerate (d.rd 0 (ALC_STRCAB.CAB s))

/-- The temperature by which candidates are ordered (R70); a cabinet without a sensor counts as 0. -/
def Dev.strTemp (d : Dev) (s : Nat) : Int :=
  let c := d.rd 0 (ALC_STRCAB.CAB s)
  if d.on 0 (ALC_CABSRC.EN c) then d.rdI (d.rd 0 (ALC_CABSRC.CH c)) THM_TEMP.T else 0

/-- CAB_STALE stands while any enabled cabinet is stale (R58, Table DOC-25). -/
def Dev.cabFollow (d : Dev) : Dev :=
  d.level 0 Ev.ALC.CAB_STALE ((List.range 16).any fun c => d.on 0 (ALC_CABSRC.EN c) && d.cabStale c)

/-- Effect of CAB_STALE (R58). -/
def cabStaleEffect (c : Fin 16) (d : Dev) : Dev := if d.on 0 (ALC_CABSRC.EN c) && d.cabStale c then d.cabFollow else d

/-- CAB_STALE (R58). -/
def execCabStale (t : Nat) (c : Fin 16) (s : State) := onDev t (cabStaleEffect c) s

/-! ### Grid limit and price (R56, R57) -/

/-- The upper bound of the three site limits: 120 MW while MODE is Ply-join, else 60 MW (R334). -/
def Dev.siteMax (d : Dev) : Nat := if d.rd 0 PLY_CFG.MODE = 1 then 120000000 else 60000000

/-- A write of ALC_GRID (R56). -/
def Dev.gridWrite (d : Dev) (v : Nat) : Except Nat Dev :=
  if d.siteMax < v then .error RC.RANGE
  else
    let d := d.wr 0 ALC_GRID.W v
    .ok { d with alc := { d.alc with gridAt := d.now, gridFb := false } }

/-- Effect of GRID_TMO (R56). -/
def gridTmoEffect (d : Dev) : Dev :=
  let ms := d.rd 0 ALC_GRID_TMO.MS
  if ms ≠ 0 && d.alc.started && !d.alc.gridFb && d.alc.gridAt + ms * ticksPerMs ≤ d.now then
    let d := { d with alc := { d.alc with gridFb := true } }
    (d.wrB 0 ALC_STAT.GRID_FB true).raise 0 Ev.ALC.GRID_TMO
  else d

/-- GRID_TMO (R56). -/
def execGridTmo (t : Nat) (s : State) := onDev t gridTmoEffect s

/-- The instant from which the 3 s of R57 run. -/
def Dev.priceBase (d : Dev) : Nat := max d.alc.firstAt d.alc.priceAt

/-- Effect of PRICE_STALE (R57). -/
def priceStaleEffect (d : Dev) : Dev :=
  if d.alc.started && !d.alc.priceRaised && d.priceBase + 3 * ticksPerS ≤ d.now then
    let d := { d with alc := { d.alc with priceNew := false, priceRaised := true } }
    (d.wrB 0 ALC_STAT.PRICE_STALE true).raise 0 Ev.ALC.PRICE_STALE
  else d

/-- PRICE_STALE (R57). -/
def execPriceStale (t : Nat) (s : State) := onDev t priceStaleEffect s

/-- A price arrives from the L-die (R20, R57). -/
def Dev.priceArrives (d : Dev) (p : Nat) : Dev :=
  { d with alc := { d.alc with price := p, priceAt := d.now, priceNew := true, priceRaised := false } }

/-- The flags of the two inputs as the snapshot finds them. -/
def Dev.inputFlags (d : Dev) : Dev :=
  (d.wrB 0 ALC_STAT.GRID_FB (d.alc.gridFb && d.on 0 ALC_GRID_TMO.MS)).wrB 0 ALC_STAT.PRICE_STALE (!d.alc.priceNew)

/-- The grid limit in use. -/
def Dev.gridLimit (d : Dev) : Nat := if d.on 0 ALC_STAT.GRID_FB then d.rd 0 ALC_GRID_FB.W else d.rd 0 ALC_GRID.W

/-! ### Snapshot -/

/-- The limits a strand would report with k active phases. -/
def Dev.limitsWith (d : Dev) (s k : Nat) : StrIn :=
  { num := s, imax := d.phaseLimit s (d.rd s STR_IMAX.MA) k, pmax := d.phaseLimit s (d.rd s STR_PMAX.W) k,
    derate := d.strDerate s }

/-- The limits a strand reports: 0 while it is stopped (Table ALC-11). -/
def Dev.limitsOf (d : Dev) (s : Nat) : StrIn :=
  let st := d.rd s STR_STAT.STATE
  let p := d.asgPt s
  if st = 5 || (st = 1 && d.ptState p = 4) then { num := s, imax := 0, pmax := 0, derate := d.strDerate s }
  else d.limitsWith s (if d.strRunning s then d.rd s STR_STAT.NACT else d.rd s STR_CFG.NPH)

/-- The vehicle inputs of a session (R206): the active set, its current held while HOLD is set. -/
def Dev.vehIn (d : Dev) (m : Nat) (pending : Bool) : VehIn :=
  let x := d.sesRec m
  let i := if pending then x.pimax else x.aimax
  let i := if d.on 0 (SES_STAT.HOLD m) then min i x.holdI.toNat else i
  if pending then { imax := i, pmax := x.ppmax, vpres := x.pvpres, cls := x.pclass }
  else { imax := i, pmax := x.apmax, vpres := x.avpres, cls := x.aclass }

/-- The inputs of one point. -/
def Dev.ptIn (d : Dev) (p : Nat) : PtIn :=
  { alloc := d.allocatable p
    veh := match d.liveSes p with
      | some m => d.vehIn m false
      | none => {}
    vRow := if d.energised p then some (d.rdI p OUT_VROW.MV) else none
    h10 := d.rd p CBL_H10.MA, h60 := d.rd p CBL_H60.MA
    strs := ((d.strandsOf p).filter fun s => d.asg s ≠ 2).map d.limitsOf
    imax := d.rd p OUT_IMAX.MA, pmax := d.rd p OUT_PMAX.W
    prev := d.rdI 0 (ALC_PTSET.MA p), ramp := d.rd 0 (ALC_PTCFG.RAMP_UP p)
    cv := if d.on 0 ALC_CFG.CV_RECLAIM && d.rd p OUT_LOOPSTAT.ROWMODE ≠ 0 then some (d.rdI p OUT_IROW.MA) else none }

/-- The site's inputs; the share of R336 scales the grid term and the reserve. -/
def Dev.siteIn (d : Dev) (share : Nat) : SiteIn :=
  { grid := min (d.rd 0 ALC_BUDGET.W) d.gridLimit * share / 100
    reserve := d.rd 0 ALC_RESERVE.W * share / 100
    eff := d.rd 0 ALC_EFF.EFF
    price := if d.on 0 ALC_STAT.PRICE_STALE then d.rd 0 ALC_PRICE_DEF.PRICE else d.alc.price
    rowUs := d.rd 0 ALC_ROWCFG.ROW_US
    cvMargin := d.rd 0 ALC_CFG.CV_MARGIN
    cls := (List.range 4).map fun c =>
      ⟨d.rd 0 (ALC_CLASS_A.GUAR_KW c), d.rd 0 (ALC_CLASS_A.WEIGHT c), d.rd 0 (ALC_CLASS_CEIL.CEIL c)⟩ }

/-- The candidate premises in order (R75, Table ALC-11). -/
def Dev.candidates (d : Dev) (rowLen : Nat) : List Premise :=
  let ps := List.range 32
  let ends := ps.filterMap fun p => match d.liveSes p with
    | some m => if d.on 0 (SES_STAT.ENDREQ m) && d.sesState m ≠ 5 then some (Premise.sesEnd p) else none
    | none => none
  let reqs := ps.filterMap fun p => match d.liveSes p with
    | some m => if d.on 0 (SES_STAT.PEND m) && d.sesState m ≠ 5 then some (Premise.vehReq p (d.vehIn m true)) else none
    | none => none
  let strs (p : Nat) : List Nat := (List.range 48).filter fun s => d.asg s = 1 && d.asgPt s = p
  let rets := ps.flatMap fun p => ((strs p).filter fun s => (d.strand s).restartAt.isSome).map fun s =>
    Premise.strRet p s { num := s, imax := (d.strand s).limI, pmax := (d.strand s).limP, derate := d.strDerate s }
  let sheds := ps.flatMap fun p => ((strs p).filter fun s => match (d.strand s).holdAt with
      | some h => h + d.rd s STR_SHEDCFG.HOLD_US * ticksPerUs < d.now + rowLen
      | none => false).map fun s => Premise.shed p s (d.limitsWith s (d.rd s STR_STAT.NACT - 1))
  ends ++ reqs ++ rets ++ sheds

/-- The capability terms by which shares are formed (R94), as of the snapshot. -/
def Dev.shareCaps (d : Dev) : Dev :=
  ((List.range 48).filter fun s => let a := d.asg s; a = 1 || a = 2 || a = 3).foldl (fun d s =>
    let v := (d.ptIn (d.asgPt s)).volt
    d.modStrand s fun x => { x with cap := ((d.limitsOf s).cap v : Nat) }) d

/-! ### Strand assignment (R70) -/

/-- The wanted number of strands of a point for a vehicle's maximum power. -/
def Dev.wantedStr (d : Dev) (p pmax : Nat) : Nat :=
  let ss := (List.range 48).filter fun s => d.en .str s && d.canConnect s p
  let mx := d.rd 0 (ALC_PTCFG.MAXSTR p)
  match ss.map fun s => d.rd s STR_PMAX.W with
  | [] => 1
  | w :: ws =>
    let ref := ws.foldl min w
    if ref = 0 then mx else min mx (max 1 ((pmax + ref - 1) / ref))

/-- The candidates of a point, in no order. -/
def Dev.freeFor (d : Dev) (p : Nat) : List Nat :=
  (List.range 48).filter fun s => d.asg s = 0 && d.en .str s && d.canConnect s p && d.strDerate s ≠ 0

/-- Whether strand a comes before strand b. -/
def Dev.strBefore (d : Dev) (a b : Nat) : Bool :=
  if d.strDerate a ≠ d.strDerate b then d.strDerate b < d.strDerate a
  else if d.strTemp a ≠ d.strTemp b then d.strTemp a < d.strTemp b
  else a ≤ b

/-- Insert a strand into an ordered list. -/
def Dev.strInsert (d : Dev) (s : Nat) : List Nat → List Nat
  | [] => [s]
  | x :: xs => if d.strBefore s x then s :: x :: xs else x :: d.strInsert s xs

/-- Whether a point's authorised session waits for strands (R70, R72). -/
def Dev.awaitsStr (d : Dev) (p : Nat) : Bool :=
  match d.liveSes p with
  | some m => d.sesState m = 3 && !(List.range 48).any fun s => d.asgPt s = p && (let a := d.asg s; 1 ≤ a && a ≤ 4)
  | none => false

/-- Pick the strands of a point whose authorised session has none (R70): RESERVED, their closes requested. -/
def Dev.pickStrands (d : Dev) (p : Nat) : Dev :=
  match d.liveSes p with
  | some m =>
    if !d.awaitsStr p then d
    else
      let n := d.wantedStr p (d.sesRec m).apmax
      let ss := ((d.freeFor p).foldr d.strInsert []).take n
      let d := if ss.isEmpty then d else d.modSes m fun x => { x with reserved := true }
      ss.foldl (fun d s => (d.linkTo s p).foldl Dev.reqClose ((d.setAsg s 4 p))) d
  | none => d

/-- Strands for every point, lowest first, and NO_STRAND (R70, Table DOC-25). -/
def Dev.pickAll (d : Dev) : Dev :=
  let d := (List.range 32).foldl Dev.pickStrands d
  d.level 0 Ev.ALC.NO_STRAND ((List.range 32).any fun p => d.awaitsStr p && (d.freeFor p).isEmpty)

/-! ### Handovers (R72, R73) -/

/-- Handover slots in progress: states 1 to 5. -/
def Dev.hoBusy (d : Dev) : List Nat :=
  (List.range 4).filter fun h => let st := d.rd 0 (ALC_HANDSTAT.STATE h); 1 ≤ st && st ≤ 5

/-- The strands ASSIGNED to a point. -/
def Dev.assigned (d : Dev) (p : Nat) : List Nat := (List.range 48).filter fun s => d.asg s = 1 && d.asgPt s = p

/-- The conditions of Table ALC-4 that do not hold, as reason codes. -/
def Dev.hoChecks (d : Dev) (s q : Nat) : List Nat :=
  let p := d.asgPt s
  let inOne (x : Nat) : Bool := d.hoBusy.any fun h => d.rd 0 (ALC_HANDSTAT.FROM h) = x || d.rd 0 (ALC_HANDSTAT.TO h) = x
  failIf (d.asg s ≠ 1 || (d.assigned p).length ≤ 1) 0x80 ++
    failIf (d.rd 0 ALC_CFG.MAX_HANDOVER ≤ d.hoBusy.length || inOne p || inOne q) 0x81 ++
    failIf (!d.canConnect s q) 0x82 ++
    failIf (!(d.allocatable q || d.awaitsStr q)) 0x83 ++
    failIf (d.rd 0 (ALC_PTCFG.MAXSTR q) ≤
      ((List.range 48).filter fun x => d.asgPt x = q && (let a := d.asg x; a = 1 || a = 3 || a = 4)).length) 0x84

/-- The first condition of Table ALC-4 that does not hold, as a reason code (R438). -/
def Dev.hoReason (d : Dev) (s q : Nat) : Option Nat := firstReason (d.hoChecks s q)

/-- The lowest idle handover slot; one that holds a waiting request is not idle. -/
def Dev.hoIdle (d : Dev) : Option Nat :=
  (List.range 4).find? fun h => d.rd 0 (ALC_HANDSTAT.STATE h) = 0 && !d.alc.hoWait.contains h

/-- Name the parties of a slot. -/
def Dev.hoName (d : Dev) (h s q : Nat) : Dev :=
  let d := ((d.wr 0 (ALC_HANDSTAT.FROM h) (d.asgPt s)).wr 0 (ALC_HANDSTAT.STRAND h) s).wr 0 (ALC_HANDSTAT.TO h) q
  d.wr 0 (ALC_HANDSTAT.CAUSE h) 0

/-- Idle a slot (R72). -/
def Dev.hoClear (d : Dev) (h : Nat) : Dev := d.setWord .alc 0 (0x464 + 4 * h) 0#32

/-- The ACK bits of a write to ALC_HANDOVER: slots in state 6 or 7 become idle. -/
def Dev.hoAck (d : Dev) (ack : Nat) : Dev :=
  (List.range 4).foldl (fun d h =>
    let st := d.rd 0 (ALC_HANDSTAT.STATE h)
    if ack.testBit h && (st = 6 || st = 7) then d.hoClear h else d) d

/-- A write to ALC_HANDOVER (R72, Table ALC-9). A request that is rejected leaves its slots acknowledged or not as the
whole write is rejected: nothing changes (R13). With no slot idle it is HO_BUSY. -/
def Dev.handoverWrite (d : Dev) (v : Nat) : Except Nat Dev :=
  let s := v / 256 % 64
  let q := v % 32
  let d := d.hoAck (v / 2 ^ 20 % 16)
  if v < 2 ^ 31 then .ok d
  else if 48 ≤ s then .error RC.RANGE
  else
    match firstReason (d.hoChecks s q ++ failIf d.hoIdle.isNone 0x81), d.hoIdle with
    | some c, _ => .error c
    | none, none => .error 0x81
    | none, some h => .ok { (d.hoName h s q) with alc := { d.alc with hoWait := d.alc.hoWait ++ [h] } }

/-- An accepted handover begins: the strand is HAND_OUT; its share falls from the next boundary (R73). -/
def Dev.hoStart (d : Dev) (h : Nat) : Dev :=
  let s := d.rd 0 (ALC_HANDSTAT.STRAND h)
  ((d.setAsg s 2 (d.asgPt s)).wr 0 (ALC_HANDSTAT.STATE h) 1).modStrand s fun x =>
    { x with ramp := 4, rampAt := d.now, restartAt := none }

/-- The waiting requests meet the snapshot (R72). -/
def Dev.hoSnapshot (d : Dev) : Dev :=
  let hs := d.alc.hoWait.filter (· < 4)
  let d := { d with alc := { d.alc with hoWait := [] } }
  hs.foldl (fun d h =>
    match d.hoReason (d.rd 0 (ALC_HANDSTAT.STRAND h)) (d.rd 0 (ALC_HANDSTAT.TO h)) with
    | none => d.hoStart h
    | some c =>
      let d := (d.wr 0 (ALC_HANDSTAT.STATE h) 7).wr 0 (ALC_HANDSTAT.CAUSE h) (8 + (c - 0x80))
      d.raise 0 Ev.ALC.HANDOVER_ABORT) d

/-- The better donor of R72: lower priority, then more strands, then the higher number. -/
def Dev.betterDonor (d : Dev) (cls : Nat → Nat) (a b : Nat) : Bool :=
  if cls a ≠ cls b then cls b < cls a
  else if (d.assigned a).length ≠ (d.assigned b).length then (d.assigned b).length < (d.assigned a).length
  else b < a

/-- One automatic handover for the row (R72). Of several receivers that want a strand the lowest point number is served, and
one whose try fails Table ALC-4 is passed over without a trace (DESIGN CHOICE, log entry 310). -/
def Dev.hoAuto (d : Dev) : Dev :=
  if !d.on 0 ALC_CFG.AUTO_HANDOVER then d
  else
    let cls (p : Nat) : Nat := match d.liveSes p with
      | some m => (d.sesRec m).aclass
      | none => 0
    let holders := (List.range 32).filter fun p => d.allocatable p
    let wants := (List.range 32).filter fun q => (d.allocatable q || d.awaitsStr q) && (d.freeFor q).isEmpty
      && (match d.liveSes q with
          | some m => (d.assigned q).length < d.wantedStr q (d.sesRec m).apmax
          | none => false)
    let tries := wants.filterMap fun q =>
      match (holders.filter fun p => cls q < cls p && 2 ≤ (d.assigned p).length) with
      | [] => none
      | p :: ps =>
        let donor := ps.foldl (fun a b => if d.betterDonor cls b a then b else a) p
        match (d.assigned donor).getLast? with
        | some s => if (d.hoReason s q).isNone then some (s, q) else none
        | none => none
    match tries, d.hoIdle with
    | (s, q) :: _, some h => (d.hoName h s q).hoStart h
    | _, _ => d

/-- A handover whose strand was released with its receiver's strands ends there (R74). -/
def Dev.hoOrphans (d : Dev) : Dev :=
  (List.range 4).foldl (fun d h =>
    if d.rd 0 (ALC_HANDSTAT.STATE h) = 5 && d.asg (d.rd 0 (ALC_HANDSTAT.STRAND h)) ≠ 3 then
      ((d.wr 0 (ALC_HANDSTAT.STATE h) 7).wr 0 (ALC_HANDSTAT.CAUSE h) 4).raise 0 Ev.ALC.HANDOVER_ABORT
    else d) d

/-- Ramps that wait for a boundary: a fall begins at the next, a rise at the one after the next snapshot (R73). -/
def Dev.rampTurn (d : Dev) : Dev :=
  (List.range 48).foldl (fun d s =>
    let r := (d.strand s).ramp
    if r = 4 then d.modStrand s fun x => { x with ramp := 1, rampAt := d.alc.rowAt }
    else if r = 5 then d.modStrand s fun x => { x with ramp := 3 }
    else if r = 3 then d.modStrand s fun x => { x with ramp := 2, rampAt := d.alc.rowAt }
    else d) d

/-- Whether a strand's ramp is complete. -/
def Dev.rampOver (d : Dev) (s ramp : Nat) : Bool :=
  (d.strand s).ramp = ramp && (d.strand s).rampAt + d.rd 0 ALC_HANDCFG.RAMP_MS * ticksPerMs ≤ d.now

/-- Effect of HANDOVER_RAMP_OUT_END (R73): Opening. -/
def handoverRampOutEndEffect (h : Fin 4) (d : Dev) : Dev :=
  let s := d.rd 0 (ALC_HANDSTAT.STRAND h)
  if d.rd 0 (ALC_HANDSTAT.STATE h) = 1 && d.rampOver s 1 then
    let d := (((d.wr 0 (ALC_HANDSTAT.STATE h) 2).stopEdges s).setStr s 1).reverseEnds (d.rd 0 (ALC_HANDSTAT.FROM h))
    d.openAll (d.linkTo s (d.rd 0 (ALC_HANDSTAT.FROM h)))
  else d

/-- HANDOVER_RAMP_OUT_END (R73). -/
def execHandoverRampOutEnd (t : Nat) (h : Fin 4) (s : State) := onDev t (handoverRampOutEndEffect h) s

/-- Effect of HANDOVER_PREBIAS_DONE (R73): Closing. -/
def handoverPrebiasDoneEffect (h : Fin 4) (d : Dev) : Dev :=
  let s := d.rd 0 (ALC_HANDSTAT.STRAND h)
  if d.rd 0 (ALC_HANDSTAT.STATE h) = 3 && (d.strand s).preOk.isSome then
    let q := d.rd 0 (ALC_HANDSTAT.TO h)
    (d.linkTo s q).foldl Dev.reqClose (d.wr 0 (ALC_HANDSTAT.STATE h) 4)
  else d

/-- HANDOVER_PREBIAS_DONE (R73). -/
def execHandoverPrebiasDone (t : Nat) (h : Fin 4) (s : State) := onDev t (handoverPrebiasDoneEffect h) s

/-- Effect of HANDOVER_RAMP_IN_END (R73): Done. -/
def handoverRampInEndEffect (h : Fin 4) (d : Dev) : Dev :=
  let s := d.rd 0 (ALC_HANDSTAT.STRAND h)
  let q := d.rd 0 (ALC_HANDSTAT.TO h)
  if d.rd 0 (ALC_HANDSTAT.STATE h) = 5 && d.asg s = 3 && d.rampOver s 2 then
    let d := (((d.setAsg s 1 q).wr 0 (ALC_HANDSTAT.STATE h) 6).modStrand s fun x => { x with ramp := 0 })
    d.raise 0 Ev.ALC.HANDOVER_DONE
  else d

/-- HANDOVER_RAMP_IN_END (R73). -/
def execHandoverRampInEnd (t : Nat) (h : Fin 4) (s : State) := onDev t (handoverRampInEndEffect h) s

/-! ### Row means (R95) -/

/-- The means of the row just ended of one point: no current flows at a point without a sample, and V_point is not
measured there, so its register stands. -/
def Dev.rowMeans (d : Dev) (p : Nat) : Dev :=
  let x := d.point p
  let m := x.rowModes
  let mode := if x.rowN = 0 || m.testBit 0 then 0 else if m = 2 then 1 else if m = 4 then 2 else 3
  let d := d.wr p OUT_LOOPSTAT.ROWMODE mode
  let d := if x.rowN = 0 then (d.wr p OUT_IROW.MA 0).wr p OUT_I2ROW.A2 0
    else
      let d := (d.wrI p OUT_IROW.MA (rdiv x.rowI x.rowN)).wrI p OUT_VROW.MV (rdiv x.rowV x.rowN)
      d.wrU p OUT_I2ROW.A2 (rdiv x.rowI2 (x.rowN * 1000000))
  d.modPoint p fun x => { x with rowN := 0, rowI := 0, rowV := 0, rowI2 := 0, rowModes := 0 }

/-! ### The boundary: what becomes active (R28, R77) -/

/-- Publish the allocation of one point. -/
def Dev.putPoint (d : Dev) (p : Nat) (r : PtRes) : Dev :=
  let was := d.rdI 0 (ALC_PTSET.MA p)
  let d := ((d.wrI 0 (ALC_PTSET.MA p) r.set).wr 0 (ALC_PTINFO.LIMIT p) r.limit).wrB 0 (ALC_PTINFO.SHORT_G p) r.shortG
  let d := (d.wr 0 (ALC_PTINFO.NSTR p) (d.assigned p).length).wr 0 (ALC_PTINFO.KW p) (r.w / 1000)
  let d := d.wr 0 (ALC_PTINFO.CLASS p) (match d.liveSes p with
    | some m => (d.sesRec m).aclass
    | none => 0)
  d.modPoint p fun x => { x with slope := r.set - was }

/-- An allocation becomes active; the part of a session that has ended since the snapshot is discarded (R68). -/
def Dev.putAlloc (d : Dev) (r : AlcRes) (first : Nat) : Dev :=
  let gone (p : Nat) : Bool := d.alc.live.any fun e => e.1 = p && d.liveSes p ≠ some e.2
    || (e.1 = p && d.sesState e.2 = 5)
  let res (p : Nat) : PtRes := if gone p then {} else r.pts.getD (first + p) {}
  let lost := (((List.range 32).filter gone).map fun p => (r.pts.getD (first + p) {}).w).sum
  let d := (List.range 32).foldl (fun d p => d.putPoint p (res p)) d
  let d := ((d.wr 0 ALC_DCBUDGET.W r.dc).wr 0 ALC_ALLOCATED.W (r.total - lost)).wr 0 ALC_LEVEL.W r.level
  (((d.wr 0 ALC_PRICE.PRICE r.price).wrB 0 ALC_STAT.SHORT r.short)).level 0 Ev.ALC.BUDGET_SHORT r.short

/-- The held allocation: each setpoint at most the newest 10 s headroom (R28). -/
def Dev.holdAlloc (d : Dev) : Dev :=
  (List.range 32).foldl (fun d p =>
    let was := d.rdI 0 (ALC_PTSET.MA p)
    let now := min was (d.rd p CBL_H10.MA : Int)
    (d.wrI 0 (ALC_PTSET.MA p) now).modPoint p fun x => { x with slope := now - was }) d

/-- A scenario is discarded with a reason (Table ALC-12). -/
def Dev.scnDiscard (d : Dev) (i reason : Nat) (x : Scn) : Dev :=
  let d := ((d.specTag i 6 reason x).inc 0 ALC_SPEC_DISC.COUNT).inc 0 (ALC_SPEC_DRSN.COUNT reason)
  if reason = 3 then d.raise 0 Ev.ALC.SPEC_LATE else d

/-- The reason against a scenario that is not adopted: not complete is LATE whatever its premise (R441). -/
def scnReason (bound : Nat) (x : Scn) : Nat :=
  if bound < x.doneAt then 3 else if x.verdict = 2 then 1 else if x.verdict = 0 then 2 else 4

/-- The slots as they stand just before the boundary: what completed by then is written. -/
def Dev.specClose (d : Dev) (bound : Nat) : Dev :=
  d.slots.foldl (fun d e =>
    let t := d.now
    let d := ({ d with now := bound }).specSlot e.2 e.1
    { d with now := t }) d

/-- The selection of R77. -/
def Dev.rowSelect (d : Dev) (bound : Nat) : Dev :=
  let d := d.specClose bound
  let ss := d.slots
  let d := (d.wr 0 ALC_SPEC_LAST.VALID 0)
  match d.alc.next with
  | none => d
  | some r =>
    if bound < d.alc.doneAt then
      let d := ss.foldl (fun d e => d.scnDiscard e.2 5 e.1) d
      let d := (d.holdAlloc.wrB 0 ALC_STAT.OVERRUN true).raise 0 Ev.ALC.ROW_OVERRUN
      { d with alc := { d.alc with overruns := d.alc.overruns + 1 } }
    else
      let d := ((d.wrB 0 ALC_STAT.STALL false).level 0 Ev.ALC.ALC_STALL false).wrB 0 ALC_STAT.OVERRUN false
      let d := { d with alc := { d.alc with overruns := 0 } }
      let hit := ss.find? fun e => e.1.doneAt ≤ bound && e.1.verdict = 1
      let d := ss.foldl (fun d e => if hit = some e then d else d.scnDiscard e.2 (scnReason bound e.1) e.1) d
      match hit with
      | some (x, i) =>
        let d := ((d.specTag i 5 0 x).inc 0 ALC_SPEC_HIT.COUNT).inc 0 (ALC_SPEC_HITTYP.COUNT x.prem.typ)
        let d := (((d.wr 0 ALC_SPEC_LAST.VALID 1).wr 0 ALC_SPEC_LAST.TYPE x.prem.typ).wr 0 ALC_SPEC_LAST.SCN i)
        ((d.wr 0 ALC_SPEC_LASTROW.ROW x.row).putAlloc x.res 0).raise 0 Ev.ALC.SPEC_ADOPT
      | none => d.putAlloc r 0

/-- Effect of ALC_STALL (R28): after 8 consecutive overruns every energised point ramps to zero. -/
def alcStallEffect (d : Dev) : Dev :=
  if 8 ≤ d.alc.overruns && !d.on 0 ALC_STAT.STALL then
    let d := (d.wrB 0 ALC_STAT.STALL true).level 0 Ev.ALC.ALC_STALL true
    let d := { d with alc := { d.alc with stallAt := d.now } }
    ((List.range 32).filter d.energised).foldl (fun d p =>
      let ramping := d.ptState p = 5
      d.modPoint p fun x => { x with r0 := if ramping then x.r0 else x.r, stalled := true }) d
  else d

/-- ALC_STALL (R28). -/
def execAlcStall (t : Nat) (s : State) := onDev t alcStallEffect s

/-! ### Computing a row (R62, R75, R441) -/

/-- Begin the committed computation from a snapshot over the points of the unit or the pair, with its scenarios one
after another behind it. How long each takes is free, the first within its bound. -/
def Dev.rowCompute (d : Dev) (boundUs : Nat) (site : SiteIn) (pts : List PtIn) (prems : List Premise) : Dev :=
  let (us, d) := d.drawBelow (boundUs + 1)
  let at0 := d.now
  let done := d.alc.rowAt + us * ticksPerUs
  let done := if done < at0 then at0 else done
  let ps := prems.take (d.rd 0 ALC_ROWCFG.NSPEC)
  let (_, scns, d) := ps.foldl (fun (acc : Nat × List Scn × Dev) p =>
    let (us, d) := acc.2.2.draw
    let fin := acc.1 + us * ticksPerUs
    let x : Scn := { prem := p, row := d.rd 0 ALC_ROWCNT.ROWS, startAt := acc.1, doneAt := fin, res := allocate site (p.apply pts) }
    (fin, acc.2.1 ++ [x], d)) (done, [], d)
  { d with alc := { d.alc with next := some (allocate site pts), doneAt := done, calcUs := us, scns := scns } }

end Sys2Proof.Machine
end

