-- ==== Sys2Proof/Machine/Session.lean ====
section
/-!
DEFINITION. Vehicle sessions: opening (R203), the targets (R204, R205), the commands of Table SES-3, the timers (R207,
R208), the link (R207) and the pilot's acceptance by the session (R209, R210).
-/

namespace Sys2Proof.Machine

/-- The vehicle interface record of a point. -/
def Dev.veh (d : Dev) (p : Nat) : Veh := d.vcm.pts.get (fun _ => {}) p

/-- Change a vehicle interface record. -/
def Dev.modVeh (d : Dev) (p : Nat) (f : Veh → Veh) : Dev :=
  { d with vcm := { d.vcm with pts := d.vcm.pts.set (fun _ => {}) p (f (d.veh p)) } }

/-- Whether a point's vehicle interface acts: enabled, the VCM domain ON (R212), the unit not a standby (Table PLY-3). -/
def Dev.vehOn (d : Dev) (p : Nat) : Bool := d.domOn .vcm && d.on 0 (VCM_PT_A.EN p) && !d.plySilent

/-! ### Opening (R203) -/

/-- Whether the connection of a point is accepted. -/
def Dev.connected (d : Dev) (p : Nat) : Bool :=
  if d.rd p OUT_CFG.TYPE = 0 then d.rd 0 (VCM_CP.ID p) = 1
  else let c := d.rd 0 (VCM_CP.CP p); 1 ≤ c && c ≤ 3

/-- Sessions of a point in any state but FREE. -/
def Dev.sesCount (d : Dev) (p : Nat) : Nat :=
  (List.range 64).countP fun m => d.sesState m ≠ 0 && d.rd 0 (SES_STAT.POINT m) = p

/-- Whether a point has room for another session: none live, and fewer than two in all. -/
def Dev.sesRoom (d : Dev) (p : Nat) : Bool := (d.liveSes p).isNone && d.sesCount p < 2

/-- Whether the link of a point is up. -/
def Dev.linkUp (d : Dev) (p : Nat) : Bool := d.bit 0 VCM_LINK.UP p

/-- A session becomes LINKED (Table SES-1). -/
def Dev.sesLinked (d : Dev) (m : Nat) : Dev :=
  ((d.setSes m 2).modSes m fun x => { x with waitAt := d.now }).raise 0 Ev.SES.LINKED

/-- Open a session on a point in the lowest FREE slot; LINKED at once where the link is up already. -/
def Dev.sesOpen (d : Dev) (p : Nat) : Dev :=
  match (List.range 64).find? fun m => d.sesState m = 0 with
  | none => d
  | some m =>
    let gen := d.rd 0 (SES_STAT.GEN m) + 1
    let d := d.setWord .ses 0 (0x500 + 4 * m) 0#32
    let d := (d.wr 0 (SES_STAT.GEN m) gen).wr 0 (SES_STAT.POINT m) p
    let d := { d with ses := d.ses.set (fun _ => {}) m { waitAt := d.now } }
    let d := ((d.setSes m 1).raise 0 Ev.SES.DETECT).setCe p true
    if d.linkUp p then d.sesLinked m else d

/-- The connection check (R203). -/
def Dev.connCheck (d : Dev) (p : Nat) : Dev :=
  if d.vehOn p && d.connected p && d.sesRoom p then d.sesOpen p else d

/-! ### Link (R207) -/

/-- A point's link comes up or is lost; a session AUTHORISED on the way to charging brings its point to rest. -/
def Dev.linkChange (d : Dev) (p : Nat) (up : Bool) : Dev :=
  if d.linkUp p = up then d
  else
    let d := (d.wrBit 0 VCM_LINK.UP p up).raise 0 (if up then Ev.VCM.LINK_UP else Ev.VCM.LINK_DOWN)
    match d.liveSes p with
    | none => d
    | some m =>
      let st := d.sesState m
      if up then (if st = 1 then d.sesLinked m else d)
      else if st = 2 || st = 3 then
        let d := (d.setSes m 1).modSes m fun x => { x with waitAt := d.now }
        if st = 3 then
          let ps := d.ptState p
          if 1 ≤ ps && ps ≤ 4 then d.startBindOff p else if ps = 0 || ps = 9 then d.releaseStrands p else d
        else d
      else d

/-! ### Targets (R204, R205) -/

/-- A write to a pending field of the window (R204): the offset within the page selects the field. -/
def Dev.pendWrite (d : Dev) (off v : Nat) : Except Nat Dev :=
  let m := d.rd 0 SES_WSEL.SES
  let st := d.sesState m
  let p := d.rd 0 (SES_STAT.POINT m)
  let x := d.sesRec m
  let lim := if off = 0x480 then d.rd p OUT_IMAX.MA else if off = 0x484 then d.rd p OUT_PMAX.W
    else if off = 0x490 then 3 else d.rd p OUT_VMAX.MV
  let dead := st = 0 || 6 ≤ st
  match firstReason (failIf dead 0x80 ++ failIf (st ≠ 0 && lim < v) RC.RANGE) with
  | some c => .error c
  | none =>
    let x := { x with pseq := (x.pseq + 1) % 65536 }
    let x := if off = 0x480 then { x with pimax := v } else if off = 0x484 then { x with ppmax := v }
      else if off = 0x488 then { x with pvpres := v } else if off = 0x48C then { x with pvtgt := v } else { x with pclass := v }
    .ok (((d.modSes m fun _ => x).wrB 0 (SES_STAT.PEND m) true).noteRow (.targetsChanged p))

/-- A refresh is accepted: the timer restarts where it runs, HOLD clears (R208). -/
def Dev.refresh (d : Dev) (m : Nat) : Dev :=
  (d.wrB 0 (SES_STAT.HOLD m) false).modSes m fun x => { x with refreshAt := x.refreshAt.map fun _ => d.now }

/-! ### Commands (Table SES-3) -/

/-- The reasons against a command, by its OP. -/
def Dev.sesReasons (d : Dev) (op m pseq : Nat) : List Nat :=
  let st := d.sesState m
  let p := d.rd 0 (SES_STAT.POINT m)
  let within (a b : Nat) : List Nat := failIf (!(a ≤ st && st ≤ b)) 0x80
  let bad (b : Bool) : List Nat := failIf b 0x80
  match op with
  | 1 | 2 => within 1 4 ++ bad (!d.on 0 (SES_STAT.PEND m)) ++ failIf (pseq ≠ (d.sesRec m).pseq) 0x81
  | 3 => within 3 4
  | 4 => within 2 2 ++ failIf (!(d.sesRec m).validated) 0x82
      ++ failIf (!d.on 0 SYS_STAT.RELEASED || d.on 0 CLK_STAT.FB || d.ptState p ≠ 0 || d.ptLocked p
        || (List.range 64).any fun k => k ≠ m && d.rd 0 (SES_STAT.POINT k) = p && 3 ≤ d.sesState k && d.sesState k ≤ 5) 0x83
  | 5 => within 3 4
  | 6 => within 3 4 ++ bad (!d.on 0 (SES_STAT.ENDREQ m))
  | 7 => within 1 4
  | 8 => within 5 5
  | 9 => within 6 7
  | _ => [RC.RANGE]

/-- The effect of an accepted command. -/
def Dev.sesDo (d : Dev) (op m : Nat) : Dev :=
  let p := d.rd 0 (SES_STAT.POINT m)
  match op with
  | 1 =>
    let d := d.modSes m fun x => { x with aimax := x.pimax, apmax := x.ppmax, avpres := x.pvpres, avtgt := x.pvtgt,
                                          aclass := x.pclass, validated := true }
    ((d.wrB 0 (SES_STAT.PEND m) false).refresh m).noteRow (.validated p)
  | 2 => (d.wrB 0 (SES_STAT.PEND m) false).noteRow (.rejected p)
  | 3 => d.refresh m
  | 4 =>
    let d := d.modSes m fun x => { x with refreshAt := some d.now, startAt := d.now, reserved := false, charged := false }
    (d.setSes m 3).raise 0 Ev.SES.AUTHORISED
  | 5 => d.wrB 0 (SES_STAT.ENDREQ m) true
  | 6 => (d.wrB 0 (SES_STAT.ENDREQ m) false).noteRow (.endWithdrawn p)
  | 7 => d.sesEnd m 0x0A
  | 8 =>
    let d := d.modPoint p fun x => { x with vehOpen := true }
    if d.ptState p = 6 then d.enterDischarge p true else d
  | _ =>
    let gen := d.rd 0 (SES_STAT.GEN m)
    let d := (d.setWord .ses 0 (0x500 + 4 * m) 0#32).wr 0 (SES_STAT.GEN m) gen
    Dev.connCheck (Dev.endedCheck { d with ses := d.ses.set (fun _ => {}) m {} } p) p

/-- A write of SES_CMD. -/
def Dev.sesCmd (d : Dev) (v : Nat) : Except Nat Dev :=
  let op := v / 2 ^ 28
  let m := v / 2 ^ 16 % 64
  match firstReason (d.sesReasons op m (v % 65536)) with
  | some c => .error c
  | none => .ok (d.sesDo op m)

/-! ### Timers (R207, R208) -/

/-- Effect of LINKWAIT_TIMEOUT (R207). -/
def linkwaitTimeoutEffect (m : Fin 64) (d : Dev) : Dev :=
  if d.sesState m = 1 && (d.sesRec m).waitAt + d.rd 0 SES_CFG.LINKWAIT_S * ticksPerS ≤ d.now then d.sesEnd m 0x0C else d

/-- LINKWAIT_TIMEOUT (R207). -/
def execLinkwaitTimeout (t : Nat) (m : Fin 64) (s : State) := onDev t (linkwaitTimeoutEffect m) s

/-- Effect of AUTHWAIT_TIMEOUT (R207): a value of 0 turns the timer off. -/
def authwaitTimeoutEffect (m : Fin 64) (d : Dev) : Dev :=
  let w := d.rd 0 SES_CFG.AUTHWAIT_S
  if d.sesState m = 2 && w ≠ 0 && (d.sesRec m).waitAt + w * ticksPerS ≤ d.now then d.sesEnd m 0x0D else d

/-- AUTHWAIT_TIMEOUT (R207). -/
def execAuthwaitTimeout (t : Nat) (m : Fin 64) (s : State) := onDev t (authwaitTimeoutEffect m) s

/-- Whether the refresh timer of a session stands at n times TMO_MS or beyond. -/
def Dev.refreshDue (d : Dev) (m n : Nat) : Bool :=
  match (d.sesRec m).refreshAt with
  | some a => a + n * d.rd 0 SES_CFG.TMO_MS * ticksPerMs ≤ d.now
  | none => false

/-- A SES_CMD value whose command refreshes a session now: VALIDATE or REFRESH, and accepted (R208). -/
def Dev.refreshes (d : Dev) (m : Nat) (v : Word) : Bool :=
  let op := v.toNat / 2 ^ 28
  (op = 1 || op = 3) && v.toNat / 2 ^ 16 % 64 = m && (d.sesReasons op m (v.toNat % 65536)).isEmpty

/-- A command still waiting for this very cycle refreshes a session: it counts as before an expiry of the cycle (R208). -/
def State.refreshComes (s : State) (t : Nat) (m : Nat) : Bool :=
  s.pending.any fun c =>
    match c with
    | .sesRefresh t' _ v => t' = t && (Dev.at t s.dev).refreshes m v
    | .sesValidate t' _ v => t' = t && (Dev.at t s.dev).refreshes m v
    | .regWrite t' _ (.bar0 a) v => t' = t && a = pageIx .ses 0 * 4096 + 0x444 && (Dev.at t s.dev).refreshes m v
    | _ => false

/-- Effect of REFRESH_HOLD (R206, R208). -/
def refreshHoldEffect (m : Fin 64) (d : Dev) : Dev :=
  if d.refreshDue m 1 && !d.on 0 (SES_STAT.HOLD m) then
    let i := d.rdI 0 (ALC_PTSET.MA (d.rd 0 (SES_STAT.POINT m)))
    ((d.wrB 0 (SES_STAT.HOLD m) true).modSes m fun x => { x with holdI := i }).raise 0 Ev.SES.REFRESH_HOLD
  else d

/-- REFRESH_HOLD (R208). -/
def execRefreshHold (t : Nat) (m : Fin 64) (s : State) :=
  onDev t (if s.refreshComes t m then id else refreshHoldEffect m) s

/-- Effect of REFRESH_TMO (R208). -/
def refreshTmoEffect (m : Fin 64) (d : Dev) : Dev := if d.refreshDue m 2 then d.sesEnd m 0x0B else d

/-- REFRESH_TMO (R208). -/
def execRefreshTmo (t : Nat) (m : Fin 64) (s : State) :=
  onDev t (if s.refreshComes t m then id else refreshTmoEffect m) s

/-! ### What the vehicle's signals do to the session (R209, R210) -/

/-- The vehicle-open indication moves a waiting point on (R210). -/
def Dev.vehOpenSeen (d : Dev) (p : Nat) : Dev := if d.ptState p = 6 && d.vehOpen p then d.enterDischarge p true else d

/-- A pilot state has been accepted. -/
def Dev.pilotActs (d : Dev) (p c : Nat) : Dev :=
  let d := if c = 0 then d.endPointSes p 0x07
    else if c = 1 then (match d.liveSes p with
      | some m => if d.sesState m = 4 then d.sesEnd m 0x09 else d
      | none => d)
    else d
  (d.vehOpenSeen p).connCheck p

/-- An ID class has been accepted. -/
def Dev.idActs (d : Dev) (p c : Nat) : Dev :=
  let d := if c = 0 then d.endPointSes p 0x07 else d
  (d.vehOpenSeen p).connCheck p

end Sys2Proof.Machine
end

