-- ==== Sys2Proof/Machine/Vehicle.lean ====
section
/-!
DEFINITION. The vehicle interfaces: the pilot (R195 to R197), ID and CE (R198), the links and their frames (R199 to R201),
SLAC (R202), and the checks of a VCM commit (R194).
-/

namespace Sys2Proof.Machine

/-! ### Pilot (R195 to R197) -/

/-- The drive a point's conditions ask for: 0 X1, 1 X2, 2 F (R195). -/
def Dev.driveOf (d : Dev) (p : Nat) : Nat :=
  if !d.en .out p || d.ptState p = 9 then 2
  else if d.tripActs p || d.interrupted p || ((d.liveSes p).isNone && !d.sesRoom p) then 0
  else 1

/-- The IO node of a point is reachable and has not been given a drive since its enumeration or the last commit (R197). -/
def Dev.nodeUndriven (d : Dev) (p v : Nat) : Bool :=
  d.rd 0 (VCM_PT_A.PSRC p) = 1 && (d.veh p).driven ≠ some v && d.nodeUp (d.rd 0 (VCM_PT_A.PORT p)) (d.rd 0 (VCM_PT_A.NODE p))

/-- The IO node of a point is given its drive (R197). -/
def Dev.nodeDrive (d : Dev) (p v : Nat) : Dev :=
  if d.rd 0 (VCM_PT_A.PSRC p) = 1 then
    let (sent, d) := d.ioRequest (d.rd 0 (VCM_PT_A.PORT p)) (d.rd 0 (VCM_PT_A.NODE p)) 0 (d.rd 0 (VCM_PT_A.CHBASE p)) v .drive
    d.modVeh p fun x => { x with driven := if sent then some v else none }
  else d

/-- Effect of PILOT_DRIVE_CHANGE (R195, R197): the drive in force at the end of the running pilot period. -/
def pilotDriveChangeEffect (q : Fin 32) (d : Dev) : Dev :=
  let v := d.driveOf q
  if !d.vehOn q || (d.rd 0 (VCM_CP.DRIVE q) = v && !d.nodeUndriven q v) then d
  else
    let d := (d.wr 0 (VCM_CP.DRIVE q) v).nodeDrive q v
    if v = 2 then
      let d := d.modVeh q fun x => { x with cand := 7, badAt := none }
      if d.rd 0 (VCM_CP.CP q) = 5 then d else (d.wr 0 (VCM_CP.CP q) 5).raise 0 Ev.VCM.CP_CHANGE
    else d

/-- PILOT_DRIVE_CHANGE (R195). -/
def execPilotDriveChange (t : Nat) (q : Fin 32) (s : State) := onDev t (pilotDriveChangeEffect q) s

/-- The band of a sample in mV (Table VCM-1): 0 A to 4 E, 6 INVALID; the low plateau counts under X2 alone. -/
def pilotBand (hi lo : Int) (x2 : Bool) : Nat :=
  let within (a b : Int) : Bool := decide (a ≤ hi) && decide (hi ≤ b)
  if x2 && !(decide (-13000 ≤ lo) && decide (lo ≤ -11000)) then 6
  else if within 11000 13000 then 0 else if within 8000 10000 then 1 else if within 5000 7000 then 2
  else if within 2000 4000 then 3 else if within (-1000) 1000 then 4 else 6

/-- A node input of a point's pilot source, by its offset in Table VCM-2. -/
def Dev.pilotIn (d : Dev) (p off : Nat) : Option Int :=
  d.input (d.rd 0 (VCM_PT_A.PORT p)) (d.rd 0 (VCM_PT_A.NODE p)) (d.rd 0 (VCM_PT_A.CHBASE p) + off)

/-- Effect of PILOT_SAMPLE (R196, R197): the plateaus at the local pin in mV, or those the IO node has reported. -/
def pilotSampleEffect (q : Fin 32) (hi lo : Int) (d : Dev) : Dev :=
  let drive := d.rd 0 (VCM_CP.DRIVE q)
  if !d.vehOn q || drive = 2 then d
  else
    let node := d.rd 0 (VCM_PT_A.PSRC q) = 1
    let x2 := drive = 1
    let band := if node then
        (match d.pilotIn q 0, d.pilotIn q 1 with
         | some h, some l => pilotBand h l x2
         | _, _ => 6)
      else pilotBand hi lo x2
    let v := if node then (d.pilotIn q 0).getD 0 else hi
    let d := d.wrI 0 (VCM_CP.VHI q) (rdiv v 10)
    let bad := band = 4 || band = 6
    let d := d.modVeh q fun x =>
      { x with
        cand := band, candAt := if x.cand = band then x.candAt else d.now
        badAt := if bad then (if x.badAt.isSome then x.badAt else some d.now) else none }
    d.connCheck q

/-- PILOT_SAMPLE (R196). -/
def execPilotSample (t : Nat) (q : Fin 32) (hi lo : Int) (s : State) := onDev t (pilotSampleEffect q hi lo) s

/-- A Green PHY link goes down: its match is over (R202). -/
def Dev.gpDown (d : Dev) (p : Nat) : Dev := (d.wr 0 (VCM_SLAC.STATE (d.rd 0 (VCM_PT_B.IDX p))) 0).linkChange p false

/-- Every sample for FILT_MS has fallen in one band (R196). -/
def Dev.pilotHeld (d : Dev) (p : Nat) : Bool :=
  let x := d.veh p
  d.vehOn p && d.rd 0 (VCM_CP.DRIVE p) ≠ 2 && x.cand ≠ 7 && x.candAt + d.rd 0 VCM_CPFILT.FILT_MS * ticksPerMs ≤ d.now

/-- Effect of PILOT_STATE_ACCEPT (R196): every sample for FILT_MS has fallen in one band. The state that stands, accepted
anew after E or INVALID, lets PILOT_FAULT be raised again. -/
def pilotStateAcceptEffect (q : Fin 32) (d : Dev) : Dev :=
  let x := d.veh q
  let d := if d.pilotHeld q && x.cand ≠ 4 && x.cand ≠ 6 && x.badRaised then d.modVeh q fun x => { x with badRaised := false } else d
  if d.pilotHeld q && x.cand ≠ d.rd 0 (VCM_CP.CP q) then
    let d := (d.wr 0 (VCM_CP.CP q) x.cand).raise 0 Ev.VCM.CP_CHANGE
    let d := if x.cand = 0 && d.rd 0 (VCM_PT_B.LTYPE q) = 2 then d.gpDown q else d
    d.pilotActs q x.cand
  else d

/-- PILOT_STATE_ACCEPT (R196). -/
def execPilotStateAccept (t : Nat) (q : Fin 32) (s : State) := onDev t (pilotStateAcceptEffect q) s

/-- Effect of PILOT_FAULT (R196, R209). -/
def pilotFaultEffect (q : Fin 32) (d : Dev) : Dev :=
  let x := d.veh q
  match x.badAt with
  | some a =>
    if d.vehOn q && !x.badRaised && a + d.rd 0 VCM_CPFILT.INV_MS * ticksPerMs ≤ d.now then
      ((d.modVeh q fun x => { x with badRaised := true }).raise 0 Ev.VCM.PILOT_FAULT).endPointSes q 0x05
    else d
  | none => d

/-- PILOT_FAULT (R196). -/
def execPilotFault (t : Nat) (q : Fin 32) (s : State) := onDev t (pilotFaultEffect q) s

/-! ### ID and CE (R198) -/

/-- The class of an ID voltage in mV: 0 UNPLUGGED, 1 PLUGGED, 2 FAULT. -/
def Dev.idClass (d : Dev) (mv : Int) : Nat :=
  if 10 * (d.rd 0 VCM_ID_A.PLUG_LO : Int) ≤ mv && mv ≤ 10 * (d.rd 0 VCM_ID_A.PLUG_HI : Int) then 1
  else if 10 * (d.rd 0 VCM_ID_B.UNPLUG : Int) < mv then 0 else 2

/-- Effect of ID_STATE_ACCEPT (R198): one sample of the ID line, its voltage at the pin or from the IO node; its class is
accepted once it has stood for FILT_MS. -/
def idStateAcceptEffect (q : Fin 32) (mv : Int) (d : Dev) : Dev :=
  if !d.vehOn q || d.rd q OUT_CFG.TYPE ≠ 0 then d
  else
    let c := if d.rd 0 (VCM_PT_A.PSRC q) = 1 then (match d.pilotIn q 3 with
        | some v => d.idClass v
        | none => 2) else d.idClass mv
    let at0 := if (d.veh q).idCand = c then (d.veh q).idAt else d.now
    let d := d.modVeh q fun x => { x with idCand := c, idAt := at0 }
    if c = d.rd 0 (VCM_CP.ID q) || d.now < at0 + d.rd 0 VCM_CPFILT.FILT_MS * ticksPerMs then d
    else ((d.wr 0 (VCM_CP.ID q) c).raise 0 Ev.VCM.ID_CHANGE).idActs q c

/-- ID_STATE_ACCEPT (R198). -/
def execIdStateAccept (t : Nat) (q : Fin 32) (mv : Int) (s : State) := onDev t (idStateAcceptEffect q mv) s

/-- Effect of CE_FAULT (R198): one readback in mV, at the pin or from the IO node, against the drive; it raises CE_FAULT
once it has disagreed for CE_MS. -/
def ceFaultEffect (q : Fin 32) (mv : Int) (d : Dev) : Dev :=
  if !d.vehOn q || d.rd q OUT_CFG.TYPE ≠ 0 then d
  else
    let v := if d.rd 0 (VCM_PT_A.PSRC q) = 1 then (d.pilotIn q 2).getD 0 else mv
    let ce := d.rd 0 (VCM_CP.CE q)
    let active := ce % 2 = 1
    let agrees := active = decide (10 * (d.rd 0 VCM_CE.CE_TH : Int) ≤ v)
    let d := d.wr 0 (VCM_CP.CE q) (ce % 2 + if agrees then 2 else 0)
    let bad := (d.veh q).ceBadAt.getD d.now
    let d := d.modVeh q fun x => { x with ceRaised := x.ceRaised && !agrees, ceBadAt := if agrees then none else some bad }
    if agrees || (d.veh q).ceRaised || d.now < bad + d.rd 0 VCM_CE.CE_MS * ticksPerMs then d
    else ((d.modVeh q fun x => { x with ceRaised := true }).raise 0 Ev.VCM.CE_FAULT).endPointSes q 0x06

/-- CE_FAULT (R198). -/
def execCeFault (t : Nat) (q : Fin 32) (mv : Int) (s : State) := onDev t (ceFaultEffect q mv) s

/-! ### Links and frames (R199 to R201) -/

/-- Effect of VEH_LINK_CHANGE (R199, R201, R202): the state of a local link, or of the DISP node's port. A Green PHY link
comes up by its match alone, and ends with the logical network. -/
def vehLinkChangeEffect (q : Fin 32) (up : Bool) (d : Dev) : Dev :=
  if !d.vehOn q then d
  else
    match d.rd 0 (VCM_PT_B.LTYPE q) with
    | 1 => d.linkChange q up
    | 2 => if up then d else d.gpDown q
    | 3 => d.linkChange q (d.input (d.rd 0 (VCM_PT_B.PORT q)) (d.rd 0 (VCM_PT_B.NODE q)) (240 + d.rd 0 (VCM_PT_B.IDX q)) = some 1)
    | _ => d

/-- VEH_LINK_CHANGE (R207). -/
def execVehLinkChange (t : Nat) (q : Fin 32) (up : Bool) (s : State) := onDev t (vehLinkChangeEffect q up) s

/-- The MAC address of a point's link. -/
def Dev.macOf (d : Dev) (p : Nat) : Nat := d.rd 0 VCM_MACBASE_LO.MAC + 2 ^ 32 * d.rd 0 VCM_MACBASE_HI.MAC + p

/-- A big-endian number. -/
def beNat (bs : List Byte) : Nat := bs.foldl (fun v b => 256 * v + b.toNat) 0

/-- Whether the device passes a frame to the host: its own address, broadcast or multicast (R199). -/
def Dev.macPass (d : Dev) (p : Nat) (f : List Byte) : Bool :=
  beNat (f.take 6) = d.macOf p || (f.headD 0#8).getLsbD 0

/-- Where a received frame goes in the receive ring, descriptor first, and the device after it (R200); `at0` is the arrival
of its first bit, known to the model as the time of its command, or of its first fragment. -/
def Dev.rxPut (d : Dev) (p : Nat) (tunnel : Bool) (at0 : Nat) (f : List Byte) : Option (Nat × List Byte) × Dev :=
  let n := d.rd 0 VCM_RX.NSLOT
  if n ≤ d.vcm.rxUsed then (none, (d.inc 0 VCM_RXDROP.COUNT).raise 0 Ev.VCM.RX_DROP)
  else
    let i := d.rd 0 VCM_RXTAIL.IDX
    let ph := d.rd 0 VCM_RXTAIL.PHASE
    let a := d.rd 0 VCM_RX.BASE * 4096 + i * 2048
    let desc := leBytes 2 f.length ++ leBytes 1 p ++ leBytes 1 (ph + if tunnel then 2 else 0) ++ leBytes 4 0 ++ leBytes 8 at0
    let last := n ≤ i + 1
    let d := d.wr 0 VCM_RXTAIL.IDX (if last then 0 else i + 1)
    let d := if last then d.wr 0 VCM_RXTAIL.PHASE (1 - ph) else d
    let d := { d with vcm := { d.vcm with rxUsed := d.vcm.rxUsed + 1 } }
    (some (a, desc ++ f), d.raise 0 Ev.VCM.RX)

/-- Take in a frame of a point's link: one to another address or of an impossible length is dropped, one with a bad FCS
is dropped and counted (R199, Table VCM-4). -/
def Dev.rxTake (d : Dev) (p : Nat) (tunnel : Bool) (at0 : Nat) (f : List Byte) (fcsOk : Bool) : Option (Nat × List Byte) × Dev :=
  if !d.vehOn p then (none, d)
  else if !fcsOk then (none, d.inc 0 VCM_RXDROP.COUNT)
  else if f.length < 14 || 1518 < f.length || !d.macPass p f then (none, d)
  else d.rxPut p tunnel at0 f

/-- Store what a reception writes into the shared buffers. -/
def State.rxStore (s : State) (r : Option (Nat × List Byte) × Dev) : State :=
  match r.1 with
  | some (a, bs) => { s with dev := r.2, mem := { s.mem with sram := s.mem.sram.setBytes a bs } }
  | none => { s with dev := r.2 }

/-- The Green PHY link of a point carries frames: its coupling is served and matched (R202, R214). -/
def Dev.gpMatched (d : Dev) (p : Nat) : Bool :=
  let g := d.rd 0 (VCM_PT_B.IDX p)
  d.domOn .plc && d.bit 0 PLC_CFG.GPEN g && d.rd 0 (VCM_SLAC.STATE g) = 3

/-- VEH_FRAME_RX (R199, R200): a frame without its FCS on a local link. -/
def execVehFrameRx (t : Nat) (q : Fin 32) (f : List Byte) (fcsOk : Bool) (s : State) : Host.Outcome State Fault Refusal :=
  let d := Dev.at t s.dev
  let lt := d.rd 0 (VCM_PT_B.LTYPE q)
  .next (s.rxStore (if lt = 1 || (lt = 2 && d.gpMatched q) then d.rxTake q false d.now f fcsOk else (none, d)))

/-- A TUN fragment joins the frame of its T1S port and FRAME ID; a missed fragment discards that frame (R130, R201). -/
def Dev.tunFrag (f : List Byte) (k pos : Nat) (d : Dev) : Dev :=
  let x := d.node k pos
  let frag := leAt f 3 1 % 128
  let mine (y : Tun) : Bool := y.id = leAt f 4 2 && y.port = leAt f 6 1
  let data := (f.drop 8).take (leAt f 2 1)
  let begun : Option Tun :=
    if frag = 0 then some { id := leAt f 4 2, port := leAt f 6 1, next := 0, at0 := d.now, bytes := [] }
    else (x.tuns.find? mine).filter fun y => y.next = frag
  let rest := x.tuns.filter fun y => !mine y
  match begun with
  | none => d.setNode k pos { x with tuns := rest }
  | some y =>
    let y := { y with next := frag + 1, bytes := y.bytes ++ data }
    if 128 ≤ leAt f 3 1 then d.setNode k pos { x with tuns := rest, tunReady := some y }
    else d.setNode k pos { x with tuns := rest ++ [y] }

/-- The point whose tunnelled link is a port of a DISP node. -/
def Dev.tunPoint (d : Dev) (k pos port : Nat) : Option Nat :=
  (List.range 32).find? fun p =>
    d.on 0 (VCM_PT_A.EN p) && d.rd 0 (VCM_PT_B.LTYPE p) = 3 && d.rd 0 (VCM_PT_B.PORT p) = k
      && d.rd 0 (VCM_PT_B.NODE p) = pos && d.rd 0 (VCM_PT_B.IDX p) = port

/-- TUN_RX (R201). -/
def execTunRx (t : Nat) (k : Fin 12) (f : List Byte) (s : State) : Host.Outcome State Fault Refusal :=
  let d := (Dev.at t s.dev).rxFrame k 0x50 f (Dev.tunFrag f)
  let home := d.homePort k
  let x := d.node home (framePos f)
  match x.tunReady with
  | none => .next { s with dev := d }
  | some y =>
    let d := d.setNode home (framePos f) { x with tunReady := none }
    match d.tunPoint home (framePos f) y.port with
    | some p => .next (s.rxStore (d.rxTake p true y.at0 y.bytes true))
    | none => .next { s with dev := d }

/-- A write of VCM_RXHEAD: it consumes the slots it passes, up to the tail (Table VCM-4, R45). -/
def Dev.rxHeadWrite (d : Dev) (v : Nat) : Except Nat Dev :=
  let n := d.rd 0 VCM_RX.NSLOT
  let h := d.rd 0 VCM_RXHEAD.IDX
  let k := (v + n - h) % n
  if n ≤ v || d.vcm.rxUsed < k then .error RC.RANGE
  else
    let d := d.wr 0 VCM_RXHEAD.IDX v
    .ok { d with vcm := { d.vcm with rxUsed := d.vcm.rxUsed - k } }

/-- The TUN fragments of a frame, from a fragment index on; `fuel` bounds their number. -/
def tunFrags (pos id port : Nat) : Nat → Nat → List Byte → List (List Byte)
  | 0, _, _ => []
  | fuel + 1, i, bs =>
    let part := bs.take 116
    let rest := bs.drop 116
    let body := [0x50#8, BitVec.ofNat 8 pos, BitVec.ofNat 8 part.length, BitVec.ofNat 8 (i + if rest.isEmpty then 128 else 0)]
      ++ leBytes 2 id ++ [BitVec.ofNat 8 port, 0#8] ++ part
    if rest.isEmpty then [body] else body :: tunFrags pos id port fuel (i + 1) rest

/-- Send a frame on a point's link: none where no link carries it (R199, R201). The device adds the FCS; on a tunnelled
link the node's own port does (DESIGN CHOICE, log entry 321). -/
def Dev.vehSend (d : Dev) (p : Nat) (f : List Byte) : Option Dev :=
  if !d.on 0 (VCM_PT_A.EN p) || !d.linkUp p then none
  else
    match d.rd 0 (VCM_PT_B.LTYPE p) with
    | 1 => some (d.send (.veh p (f ++ ethFcs f)))
    | 2 => if d.gpMatched p then some (d.send (.veh p (f ++ ethFcs f))) else none
    | 3 =>
      let k := d.rd 0 (VCM_PT_B.PORT p)
      let pos := d.rd 0 (VCM_PT_B.NODE p)
      if !d.nodeUp k pos then none
      else
        let id := d.vcm.tunId
        let d := { d with vcm := { d.vcm with tunId := (id + 1) % 65536 } }
        some ((tunFrags pos id (d.rd 0 (VCM_PT_B.IDX p)) 14 0 f).foldl (fun d b => d.sendDown k b) d)
    | _ => none

/-- TX_VEH (R199): the payload named by the operation leaves unchanged; one whose CRC no longer matches is not sent. -/
def execTxVeh (t : Nat) (slot : Fin 384) (s : State) : Host.Outcome State Fault Refusal :=
  onDev t (fun d => d.act slot OK.TX_VEH fun o d =>
    let f := s.mem.sram.getBytes (o.arg 16 4) (o.arg 10 2)
    if !d.domOn .vcm then d.opFinish slot 8
    else if o.replayed && o.arg 20 4 ≠ crc32c f then d.opFinish slot 7
    else
      match d.vehSend (o.arg 8 1) f with
      | some d => d.opFinish slot 0
      | none => d.opFinish slot 6) s

/-! ### SLAC (R202) -/

/-- The point whose link is an enabled Green PHY coupling. -/
def Dev.gpPoint (d : Dev) (g : Nat) : Option Nat :=
  if !(d.domOn .plc && d.bit 0 PLC_CFG.GPEN g) then none
  else (List.range 32).find? fun p => d.vehOn p && d.rd 0 (VCM_PT_B.LTYPE p) = 2 && d.rd 0 (VCM_PT_B.IDX p) = g

/-- The session a coupling serves: live on its point. -/
def Dev.gpSes (d : Dev) (g : Nat) : Option Nat :=
  match d.gpPoint g with
  | some p => d.liveSes p
  | none => none

/-- The SLAC record of a coupling. -/
def Dev.slacRec (d : Dev) (g : Nat) : Slac := d.vcm.slac.get (fun _ => {}) g

/-- Replace the SLAC record of a coupling. -/
def Dev.setSlac (d : Dev) (g : Nat) (x : Slac) : Dev :=
  { d with vcm := { d.vcm with slac := d.vcm.slac.set (fun _ => {}) g x } }

/-- Effect of SLAC_PARM_REQ (R202): the request of a vehicle's run is answered. -/
def slacParmReqEffect (g : Fin 4) (run mac : Nat) (d : Dev) : Dev :=
  match d.gpSes g with
  | none => d
  | some m =>
    let d := (d.wr 0 (VCM_SLAC.STATE g) 1).wr 0 (VCM_SLAC.SES g) m
    (d.setSlac g { run := run, mac := mac, at0 := d.now }).send (.slac g 1 run [])

/-- SLAC_PARM_REQ (R202). -/
def execSlacParmReq (t : Nat) (g : Fin 4) (run mac : Nat) (s : State) := onDev t (slacParmReqEffect g run mac) s

/-- The mean of an attenuation profile, dB, to the nearest (R202). -/
def profileMean (bs : List Nat) : Nat := (rdiv bs.sum bs.length).toNat

/-- The coupling that answers a run's sounding, of those that may: the one that heard it alone; where several have
received it, the one whose mean attenuation lies below every other's by the margin, and within the limit (R202). -/
def Dev.slacChoice (d : Dev) (mine heard : List (Nat × List Nat)) : Option (Nat × List Nat) :=
  mine.find? fun x =>
    heard.all (fun y => y.1 = x.1)
      || (profileMean x.2 ≤ d.rd 0 VCM_SLAC.ATTN_MAX
          && heard.all fun y => y.1 = x.1 || profileMean x.2 + d.rd 0 VCM_SLAC.MARGIN ≤ profileMean y.2)

/-- A SLAC run is still within the time ISO 15118-3 gives the matching process, TT_EVSE_match_session of 10 s (PRESUMED,
log entry 322). -/
def Dev.slacFresh (d : Dev) (g : Nat) : Bool := d.now ≤ (d.slacRec g).at0 + 10 * ticksPerS

/-- Effect of SLAC_SOUNDING (R202): the sounding of one run, with the couplings that received it and the attenuation
profile of each, dB by group of carriers. -/
def slacSoundingEffect (run : Nat) (all : List (Nat × List Nat)) (d : Dev) : Dev :=
  let heard := all.filter fun x => x.1 < 4 && d.domOn .plc && d.bit 0 PLC_CFG.GPEN x.1
  let hs := heard.filter fun x => (d.gpSes x.1).isSome && (d.slacRec x.1).run = run && d.slacFresh x.1
    && (let st := d.rd 0 (VCM_SLAC.STATE x.1); st = 1 || st = 2)
  if hs.isEmpty then d
  else
    let d := hs.foldl (fun d x => d.wr 0 (VCM_SLAC.ATTN x.1) (profileMean x.2)) d
    match d.slacChoice hs heard with
    | some (g, att) =>
      let d := hs.foldl (fun d x => d.wr 0 (VCM_SLAC.STATE x.1) (if x.1 = g then 2 else 0)) d
      d.send (.slac g 2 run (att.map (BitVec.ofNat 8)))
    | none => (hs.foldl (fun d x => d.wr 0 (VCM_SLAC.STATE x.1) 4) d).raise 0 Ev.VCM.SLAC_FAIL

/-- SLAC_SOUNDING (R202). -/
def execSlacSounding (t : Nat) (run : Nat) (heard : List (Nat × List Nat)) (s : State) := onDev t (slacSoundingEffect run heard) s

/-- Effect of SLAC_MATCH_REQ (R202): a NID and an NMK drawn for this session; the link is up. -/
def slacMatchReqEffect (g : Fin 4) (run mac : Nat) (d : Dev) : Dev :=
  let x := d.slacRec g
  match d.gpPoint g with
  | some p =>
    if d.rd 0 (VCM_SLAC.STATE g) = 2 && x.run = run && x.mac = mac && d.slacFresh g && (d.liveSes p).isSome then
      let (nid, d) := d.drawBytes 7
      let (nmk, d) := d.drawBytes 16
      let d := (d.setSlac g { x with nid := nid, nmk := nmk }).wr 0 (VCM_SLAC.STATE g) 3
      ((d.send (.slac g 3 run (nid ++ nmk))).raise 0 Ev.VCM.SLAC_MATCH).linkChange p true
    else d
  | none => d

/-- SLAC_MATCH_REQ (R202). -/
def execSlacMatchReq (t : Nat) (g : Fin 4) (run mac : Nat) (s : State) := onDev t (slacMatchReqEffect g run mac) s

/-- Effect of GP_MGMT_MSG_RX (R218, Table PLC-1): messages of network join and key exchange are answered with the
session's keys, a leave ends the link, others are discarded. -/
def gpMgmtMsgRxEffect (g : Fin 4) (msg : GpMsg) (d : Dev) : Dev :=
  if !((d.gpPoint g).any fun p => d.gpMatched p && d.linkUp p) then d
  else
    match msg with
    | .join => d.send (.slac g 4 (d.slacRec g).run (d.slacRec g).nid)
    | .keyExchange => d.send (.slac g 4 (d.slacRec g).run (d.slacRec g).nmk)
    | .leave =>
      match d.gpPoint g with
      | some p => d.gpDown p
      | none => d
    | .other => d

/-- GP_MGMT_MSG_RX (R218). -/
def execGpMgmtMsgRx (t : Nat) (g : Fin 4) (msg : GpMsg) (s : State) := onDev t (gpMgmtMsgRxEffect g msg) s

/-! ### Commit checks (R194, Table VCM-4) -/

/-- What two enabled points may not share: the local pilot set, or the resource of the link. -/
def Dev.vcmUses (d : Dev) (p : Nat) : List (Nat × Nat) :=
  if !d.on 0 (VCM_PT_A.EN p) then []
  else
    let lt := d.rd 0 (VCM_PT_B.LTYPE p)
    (if d.rd 0 (VCM_PT_A.PSRC p) = 0 then [(0, d.rd 0 (VCM_PT_A.SET p))] else []) ++
    (if lt = 1 || lt = 2 then [(lt, d.rd 0 (VCM_PT_B.IDX p))]
     else if lt = 3 then [(3, (d.rd 0 (VCM_PT_B.PORT p) * 8 + d.rd 0 (VCM_PT_B.NODE p)) * 8 + d.rd 0 (VCM_PT_B.IDX p))]
     else [])

/-- The checks of a VCM commit: `d'` holds the values that would become active. -/
def vcmReasons (d d' : Dev) : List Nat :=
  let ps := List.range 32
  let uses := ps.flatMap d'.vcmUses
  let gp (p : Nat) : Bool := d'.rd 0 (VCM_PT_B.LTYPE p) = 2
  let changed (p : Nat) : Bool := d.word .vcm 0 (0x80 + 8 * p) ≠ d'.word .vcm 0 (0x80 + 8 * p)
    || d.word .vcm 0 (0x84 + 8 * p) ≠ d'.word .vcm 0 (0x84 + 8 * p)
  let held (p : Nat) : Bool := (List.range 64).any fun m =>
    d.sesState m ≠ 0 && d.sesState m ≠ 6 && d.rd 0 (SES_STAT.POINT m) = p
  failIf (decide ¬uses.Nodup) 0x81 ++
  failIf (ps.any fun p => gp p && (d'.rd 0 (VCM_PT_A.PSRC p) = 1 || d'.rd 0 (VCM_PT_A.SET p) ≠ d'.rd 0 (VCM_PT_B.IDX p))) 0x82 ++
  failIf (ps.any fun p => d'.rd 0 (VCM_PT_B.LTYPE p) = 3
    && (12 ≤ d'.rd 0 (VCM_PT_B.PORT p) || d.rd (d'.rd 0 (VCM_PT_B.PORT p)) (SKN_EXPECT.POS (d'.rd 0 (VCM_PT_B.NODE p))) ≠ 3)) 0x83 ++
  failIf (ps.any fun p => changed p && held p) RC.ENERGISED ++
  failIf (d'.rd 0 VCM_ID_A.PLUG_HI ≤ d'.rd 0 VCM_ID_A.PLUG_LO || d'.rd 0 VCM_ID_B.UNPLUG ≤ d'.rd 0 VCM_ID_A.PLUG_HI) RC.PAIR ++
  failIf (0x400000 < d'.rd 0 VCM_RX.BASE * 4096 + d'.rd 0 VCM_RX.NSLOT * 2048
    || ps.any fun p => gp p && 4 ≤ d'.rd 0 (VCM_PT_B.IDX p)) RC.RANGE

end Sys2Proof.Machine
end

