-- ==== Sys2Proof/Machine/YarnCore.lean ====
section
/-!
DEFINITION. The Yarn line's own working: peers, queues, airtime and costs (R219 to R223, R228).
-/

namespace Sys2Proof.Machine

/-- Peer n. -/
def Dev.ypeer (d : Dev) (n : Nat) : YPeer := d.yarn.peers.get (fun _ => {}) n

/-- Change peer n. -/
def Dev.modPeer (d : Dev) (n : Nat) (f : YPeer → YPeer) : Dev :=
  { d with yarn := { d.yarn with peers := d.yarn.peers.set (fun _ => {}) n (f (d.ypeer n)) } }

/-- Yarn line is enabled and its domain is ON (R214, R234). -/
def Dev.yarnOn (d : Dev) : Bool := d.domOn .plc && d.on 0 PLC_CFG.YEN

/-- Whether entry n is UP. -/
def Dev.peerUp (d : Dev) (n : Nat) : Bool := d.rd 0 (PLC_NBR_A.STATE n) = 2

/-- What the line driver does to a frame sent now: TXATT, 6 dB more while it is hot, and the notches (R216, R217). -/
def Dev.yarnTxc (d : Dev) : YarnTx :=
  { att := d.rd 0 PLC_CFG.TXATT + if d.on 0 PLC_STAT.DRVHOT then 12 else 0
    notch := ((List.range 8).filter fun k => d.on 0 (PLC_NOTCH.EN k)).map fun k =>
      (d.rd 0 (PLC_NOTCH.LO k), d.rd 0 (PLC_NOTCH.HI k)) }

/-! ### Backoff (R222) -/

/-- The contention window of a class: PLC_CW, doubled after failures up to four times. -/
def Dev.yarnCw (d : Dev) (cls : Nat) : Nat :=
  d.rd 0 (match cls with | 0 => PLC_CW.CW0 | 1 => PLC_CW.CW1 | 2 => PLC_CW.CW2 | _ => PLC_CW.CW3)
    * 2 ^ d.yarn.cw.get (fun _ => 0) cls

/-- A frame contends from now with a new backoff, 0 to CW − 1, which no rule gives: a free value (log entry 324). -/
def Dev.yarnDraw (d : Dev) (x : YTx) : YTx × Dev :=
  let (b, d) := d.drawBelow (d.yarnCw x.cls)
  ({ x with boff := b, boffAt := d.now }, d)

/-- A payload waits for the medium (R222). -/
def Dev.yarnPush (d : Dev) (x : YTx) : Dev :=
  let (x, d) := d.yarnDraw x
  { d with yarn := { d.yarn with q := d.yarn.q ++ [x] } }

/-! ### Tone maps (Table PLC-2) -/

/-- A tone map gives each carrier in use off, BPSK, QPSK, 16-QAM or 64-QAM. -/
def toneOk (m : List Nat) : Bool := m.length ≤ 1065 && m.all fun b => [0, 1, 2, 4, 6].contains b

/-- Payload bits per symbol of a tone map at rate 1/2. -/
def toneBps (m : List Nat) : Nat := m.sum / 2

/-- The cost of a link in µs from its bits per symbol and its failure estimate (R228). -/
def linkCost (b f : Nat) : Nat :=
  let b := if b = 0 then 266 else b
  min 65535 (rdiv (((40500 + (8192 + b - 1) / b * 4608) * 256 : Nat) : Int) (100 * (256 - f))).toNat

/-- The failure estimate after a frame (R228). -/
def ferStep (f : Nat) (fail : Bool) : Nat :=
  min 240 ((f : Int) + (((if fail then 256 else 0) - (f : Int)).tdiv 16)).toNat

/-- Payload symbols of a payload of so many bytes with its CRC (Table PLC-2). -/
def yarnSyms (len b : Nat) : Nat := ((len + 4) * 8 + b - 1) / b

/-- Duration of a frame with so many payload symbols, in 1/100 µs. -/
def yarnDur (nsym : Nat) : Nat := 10240 + 4608 * nsym

/-- Ticks of a duration in 1/100 µs, rounded up. -/
def ticksOfCus (c : Nat) : Nat := (c * ticksPerUs + 99) / 100

/-- The longest piece of a payload one frame carries (R223). -/
def Dev.yarnPiece (d : Dev) (b : Nat) : Nat :=
  let sym := min 781 ((d.rd 0 PLC_MAC.MAXFRAME_MS * 100000 - 10240) / 4608)
  sym * b / 8 - 4

end Sys2Proof.Machine
end

