-- ==== Sys2Proof/Machine/SafetyFn.lean ====
section
/-!
DEFINITION. The safety island (R293 to R312): input channels, the evaluation of the functions on the 1 ms grid, trips,
the reset input, the output pairs and their tests, and the safety layer.
-/

namespace Sys2Proof.Machine

/-! ### Records -/

/-- Function n, pair q, connection m. -/
def Dev.safFn (d : Dev) (n : Nat) : SafFn := d.saf.fns.get (fun _ => {}) n
def Dev.safPair (d : Dev) (q : Nat) : SafPair := d.saf.pairs.get (fun _ => {}) q
def Dev.sfcCon (d : Dev) (m : Nat) : SfcCon := d.saf.cons.get (fun _ => {}) m

/-- Change function n. -/
def Dev.modFn (d : Dev) (n : Nat) (f : SafFn → SafFn) : Dev :=
  { d with saf := { d.saf with fns := d.saf.fns.set (fun _ => {}) n (f (d.safFn n)) } }

/-- Change pair q. -/
def Dev.modPair (d : Dev) (q : Nat) (f : SafPair → SafPair) : Dev :=
  { d with saf := { d.saf with pairs := d.saf.pairs.set (fun _ => {}) q (f (d.safPair q)) } }

/-- Change connection m. -/
def Dev.modCon (d : Dev) (m : Nat) (f : SfcCon → SfcCon) : Dev :=
  { d with saf := { d.saf with cons := d.saf.cons.set (fun _ => {}) m (f (d.sfcCon m)) } }

/-- Change the reset input's record. -/
def Dev.modRst (d : Dev) (f : SafRst → SafRst) : Dev := { d with saf := { d.saf with rst := f d.saf.rst } }

/-- The island runs: its domain is ON, its configuration active, no failure latched (R293). -/
def Dev.safRuns (d : Dev) : Bool := d.domOn .safe && d.on 0 SAF_STAT.READY && !d.on 0 SAF_STAT.FAIL

/-- The number of the present point of the 1 ms grid (R440). -/
def Dev.safIx (d : Dev) : Nat := d.now / ticksPerMs

/-! ### Inputs (R296) -/

/-- Effect of SAFE_CHANNEL_ACCEPT: channel A or B of an input has read a new level, active or not, for its filter time;
input 32 is the reset input, whose filter is 1 ms (R300). -/
def safeChannelAcceptEffect (c : Fin 33) (chB active : Bool) (d : Dev) : Dev :=
  if !d.domOn .safe then d
  else if c.val = 32 then d.wrB 0 (if chB then SAF_RST.B else SAF_RST.A) active
  else
    { d with saf := { d.saf with level := d.saf.level.set (fun _ => false) (2 * c + if chB then 1 else 0) active } }

/-- SAFE_CHANNEL_ACCEPT (R296). -/
def execSafeChannelAccept (t : Nat) (c : Fin 33) (chB active : Bool) (s : State) :=
  onDev t (safeChannelAcceptEffect c chB active) s

/-- Whether a local channel reads demand. -/
def Dev.localDemand (d : Dev) (n : Nat) (chB : Bool) : Bool :=
  let active := d.saf.level.get (fun _ => false) (2 * n + if chB then 1 else 0)
  if chB && d.on 0 (SAF_IN_A.CHMODE n) then active else !active

/-- Whether the remote bit of a function reads demand. -/
def Dev.remoteDemand (d : Dev) (n : Nat) : Bool :=
  let m := d.rd 0 (SAF_IN_SRCB.CON n)
  d.rd 0 (SFC_STAT.STATE m) ≠ 2 || !d.bit 0 (SFC_RX.BITS m) (d.rd 0 (SAF_IN_SRCB.BIT n))

/-- Whether either channel of a function reads demand, as SAF_INSTn shows them. -/
def Dev.anyDemand (d : Dev) (n : Nat) : Bool :=
  d.on 0 (SAF_INST.A n) || d.on 0 (SAF_INST.B n) || d.on 0 (SAF_INST.REMOTE n)

/-- Whether both channels read demand together. -/
def Dev.bothDemand (d : Dev) (n : Nat) : Bool :=
  (d.on 0 (SAF_INST.A n) && d.on 0 (SAF_INST.B n)) || d.on 0 (SAF_INST.REMOTE n)

/-- Take the channel levels into SAF_INSTn: the local channels, or the remote bit and its copy. -/
def Dev.fnLevels (d : Dev) (n : Nat) : Dev :=
  let src := d.rd 0 (SAF_IN_A.SRC n)
  let r := src ≠ 0 && d.remoteDemand n
  let d := (d.wrB 0 (SAF_INST.A n) (if src = 1 then r else d.localDemand n false)).wrB 0 (SAF_INST.B n)
    (if src = 1 then r else d.localDemand n true)
  d.wrB 0 (SAF_INST.REMOTE n) r

/-! ### Functions (R297 to R299, Table SAF-1) -/

/-- The points of a function's mask. -/
def Dev.fnPts (d : Dev) (n : Nat) : List Nat := (List.range 32).filter fun p => d.bit 0 (SAF_IN_MASK.PTS n) p

/-- Whether the demand of a function is ignored: LATCH while no OUTPUT contactor of its mask is commanded or confirmed
closed, WELD while one is commanded closed. -/
def Dev.fnIgnored (d : Dev) (n : Nat) : Bool :=
  let es := (d.fnPts n).flatMap d.outEntries
  let cmd (e : Nat) : Bool := d.on 0 (CTM_STAT.CMD e) || d.ctmState e = 1
  match d.rd 0 (SAF_IN_A.KIND n) with
  | 3 => !es.any fun e => cmd e || d.ctmState e = 2
  | 5 => es.any cmd
  | _ => false

/-- The discrepancy timer at an evaluation: it starts when the channels begin to differ, agreement stops it (R298). -/
def Dev.fnDisc (d : Dev) (n : Nat) : Dev :=
  let differ := d.on 0 (SAF_INST.A n) ≠ d.on 0 (SAF_INST.B n)
  let x := d.safFn n
  let d := if !differ then d.wr 0 (SAF_INST.DISCRUN n) 0
    else if x.differ then d
    else (d.wr 0 (SAF_INST.DISCRUN n) 1).modFn n fun x => { x with e0 := d.safIx }
  d.modFn n fun x => { x with differ := differ, discBoth := x.discBoth || d.bothDemand n }

/-- A function becomes RELEASED. -/
def Dev.fnRelease (d : Dev) (n : Nat) : Dev := (d.wr 0 (SAF_INST.STATE n) 3).raise 0 Ev.SAF.RELEASE

/-- One function at an evaluation. -/
def Dev.fnEval (d : Dev) (n : Nat) : Dev :=
  if !d.on 0 (SAF_IN_A.EN n) then d
  else
    let d := (d.fnLevels n).fnDisc n
    match d.rd 0 (SAF_INST.STATE n) with
    | 1 =>
      let d := d.modFn n fun x => { x with testBoth := x.testBoth || d.bothDemand n }
      if (d.safFn n).testBoth && !d.anyDemand n then d.wr 0 (SAF_INST.STATE n) 2 else d
    | 2 => if d.on 0 (SAF_IN_A.AUTO n) && !d.on 0 (SAF_INST.DISCF n) && !d.anyDemand n then d.fnRelease n else d
    | 3 =>
      if d.anyDemand n && !d.fnIgnored n then
        ((d.wr 0 (SAF_INST.STATE n) 2).inc 0 SAF_TRIPCNT.COUNT).raise 0 Ev.SAF.TRIP
      else d
    | _ => d

/-- Effect of DISC_FAULT: at E0 + DISC_MS the channels still disagree (R298). -/
def discFaultEffect (n : Fin 32) (d : Dev) : Dev :=
  if d.safRuns && d.on 0 (SAF_INST.DISCRUN n) && (d.safFn n).e0 + d.rd 0 (SAF_IN_A.DISC_MS n) ≤ d.safIx then
    let d := ((d.wr 0 (SAF_INST.DISCF n) 1).wr 0 (SAF_INST.DISCRUN n) 0).modFn n fun x => { x with discBoth := false }
    let d := if d.rd 0 (SAF_INST.STATE n) = 3 then d.wr 0 (SAF_INST.STATE n) 2 else d
    d.raise 0 Ev.SAF.DISC_FAULT
  else d

/-- DISC_FAULT (R298). -/
def execDiscFault (t : Nat) (n : Fin 32) (s : State) := onDev t (discFaultEffect n) s

/-! ### Points under trip (R294, R302) -/

/-- A point under trip of its own: a function that is TRIPPED, or whose start-up test is pending, names it, or its
over-temperature function has tripped. -/
def Dev.tripOwn (d : Dev) (p : Nat) : Bool :=
  d.hwTripOn p || (List.range 32).any fun n =>
    d.on 0 (SAF_IN_A.EN n) && d.bit 0 (SAF_IN_MASK.PTS n) p
      && (d.rd 0 (SAF_INST.STATE n) = 1 || d.rd 0 (SAF_INST.STATE n) = 2)

/-- The points assigned to a pair. -/
def Dev.pairPts (d : Dev) (q : Nat) : List Nat := (List.range 32).filter fun p => d.rd 0 (SAF_PTPAIR.PAIR p) = q

/-- Whether a pair is under trip: a point of it is, or it is in FAULT. -/
def Dev.pairTrip (d : Dev) (q : Nat) : Bool := d.rd 0 (SAF_PAIRST.STATE q) = 2 || (d.pairPts q).any d.tripOwn

/-- Whether a point is under trip. -/
def Dev.underTrip (d : Dev) (p : Nat) : Bool :=
  d.tripOwn p || match d.pairOf p with | some q => d.pairTrip q | none => false

/-- Bring SAF_PTTRIP and SAF_PTOT up to date; a point newly under trip is acted on (R25, R124, R294). -/
def Dev.safTrips (d : Dev) : Dev :=
  let ps := (List.range 32).filter d.underTrip
  let new := ps.filter fun p => !d.tripActs p
  let ot := (List.range 32).filter d.hwTripOn
  let d := (List.range 32).foldl (fun d p =>
    (d.wrBit 0 SAF_PTTRIP.PTS p (ps.contains p)).wrBit 0 SAF_PTOT.PTS p (ot.contains p)) d
  new.foldl (fun d p => d.tripPoint p (if ot.contains p then 2 else 1)) d

/-- The comparator trips the island takes at this evaluation: the function of a point that was not tripped trips
(R302). -/
def Dev.takeOvertemp (d : Dev) : Dev :=
  let new := (List.range 32).filter fun p =>
    !d.hwTripOn p && (List.range 64).any fun c => let x := d.thmRec c; x.trip = 1 && x.tripPt = p
  let d := (List.range 64).foldl (fun d c =>
    if (d.thmRec c).trip = 1 then d.modThm c fun x => { x with trip := 2 } else d) d
  new.foldl (fun d _ => (d.inc 0 SAF_TRIPCNT.COUNT).raise 0 Ev.SAF.OVERTEMP_TRIP) d

/-! ### Output pairs (R295, R304 to R306) -/

/-- Both switches of a pair go off. -/
def Dev.pairOff (d : Dev) (q : Nat) : Dev :=
  let d := (d.wrBit 0 SAF_STAT.PAIRON q false).modPair q fun x => { x with tripAt := none }
  if d.rd 0 (SAF_PAIRST.STATE q) = 2 then d else d.wr 0 (SAF_PAIRST.STATE q) 0

/-- Every output switch goes off. -/
def Dev.pairsOff (d : Dev) : Dev := (List.range 8).foldl Dev.pairOff d

/-- Both switches of a pair go on. -/
def Dev.pairUp (d : Dev) (q : Nat) : Dev :=
  ((d.wrBit 0 SAF_STAT.PAIRON q true).wr 0 (SAF_PAIRST.STATE q) 1).modPair q fun x => { x with tripAt := none }

/-- The strands whose telemetry the island sums for a point. -/
def Dev.safStrands (d : Dev) (p : Nat) : List Nat := (List.range 48).filter fun s => d.asg s ≠ 0 && d.asgPt s = p

/-- Whether a point's current is below 5 % of its OUT_IMAX, each strand with a sample in the last 1 ms (R295). -/
def Dev.lowCurrent (d : Dev) (p : Nat) : Bool :=
  let ss := d.safStrands p
  !ss.isEmpty
    && (ss.all fun s => match (d.strand s).tlmAt with | some t => d.now ≤ t + ticksPerMs | none => false)
    && 20 * ((ss.map fun s => (d.strand s).tlmI).sum).natAbs < d.rd p OUT_IMAX.MA

/-- A safety state as the active unit mirrored it last; none while it has not (Table PLY-2). -/
def Dev.mirrored (d : Dev) (f : Field) : Option Nat :=
  (d.ply.mirSaf.find? fun e => e.1 = pageIx f.tag 0 * 4096 + f.off).map fun e => fget f.hi f.lo e.2

/-- The partner's island has tripped a point of a pair: both units drop the pair (Table PLY-3). -/
def Dev.partnerTrip (d : Dev) (q : Nat) : Bool :=
  (List.range 32).any fun n =>
    d.on 0 (SAF_IN_A.EN n) && (d.fnPts n).any (fun p => d.pairOf p = some q)
      && (let st := d.mirrored (SAF_INST.STATE n); st = some 1 || st = some 2)

/-- Whether a pair may energise (R295, R303, R405). -/
def Dev.mayEnergise (d : Dev) (q : Nat) : Bool :=
  d.bit 0 SAF_PAIREN.EN q && !d.partnerTrip q && !(d.pairPts q).isEmpty && !(d.pairPts q).any d.tripActs && d.rd 0 (SAF_PAIRST.STATE q) ≠ 2
    && !d.on 0 SAF_STAT.FAIL && d.rd 0 SYS_STAT.STOP = 0 && d.die.shutAt.isNone

/-- Whether the quiesce window opens a pair: a point of it is energised (R325). -/
def Dev.quiesces (d : Dev) (q : Nat) : Bool := d.ope.quiesce.isSome && (d.pairPts q).any d.energised

/-- The quiesce window opens a pair; it stays open until replay is complete. -/
def Dev.pairCut (d : Dev) (q : Nat) : Dev :=
  let d := d.pairOff q
  { d with sys := { d.sys with pairHold := Nat.lor d.sys.pairHold (2 ^ q) } }

/-- One pair at an evaluation. A drop that a trip has begun is completed though the trip is released before (R295). -/
def Dev.pairEval (d : Dev) (q : Nat) : Dev :=
  let begun := (d.safPair q).tripAt.isSome
  if !d.pairOn q then (if d.mayEnergise q && !d.sys.pairHold.testBit q then d.pairUp q else d)
  else if d.quiesces q && (d.pairPts q).all d.lowCurrent then d.pairCut q
  else if d.mayEnergise q && !begun then d
  else if (d.pairPts q).all d.lowCurrent
      || (!begun && !((d.pairPts q).any d.tripActs || d.die.shutAt.isSome || d.partnerTrip q)) then d.pairOff q
  else if begun then d
  else d.modPair q fun x => { x with tripAt := some d.now }

/-- Effect of PAIR_DROP_TIMEOUT: 8 ms after the trip. -/
def pairDropTimeoutEffect (q : Fin 8) (d : Dev) : Dev :=
  match (d.safPair q).tripAt with
  | some t => if d.pairOn q && t + 8 * ticksPerMs ≤ d.now then d.pairOff q else d
  | none => d

/-- PAIR_DROP_TIMEOUT (R295). -/
def execPairDropTimeout (t : Nat) (q : Fin 8) (s : State) := onDev t (pairDropTimeoutEffect q) s

/-- The code of a node level that its switch's command does not bring (Table SAF-3); 0 for the level it brings. -/
def pairCode (on hHigh lHigh : Bool) : Nat :=
  if hHigh && !on then 1 else if !hHigh && on then 2 else if !lHigh && !on then 3 else if lHigh && on then 4 else 0

/-- Effect of PAIR_READBACK, every 100 µs: bit q of `h` and `l` is the level of the high- and low-side node of pair q
(R304). -/
def pairReadbackEffect (h l : Fin 256) (d : Dev) : Dev :=
  if !d.domOn .safe then d
  else
    (List.range 8).foldl (fun d q =>
      let hb := h.val.testBit q
      let lb := l.val.testBit q
      let d := (d.wrB 0 (SAF_PAIRST.RB_H q) hb).wrB 0 (SAF_PAIRST.RB_L q) lb
      let c := pairCode (d.pairOn q) hb lb
      d.modPair q fun x => { x with mis := if c = 0 || !d.bit 0 SAF_PAIREN.EN q then 0 else x.mis + 1, code := c }) d

/-- PAIR_READBACK (R304). -/
def execPairReadback (t : Nat) (h l : Fin 256) (s : State) := onDev t (pairReadbackEffect h l) s

/-- A pair goes to FAULT with a code: both switches off, its points under trip (R304, R306). -/
def Dev.pairFault (d : Dev) (q code : Nat) : Dev :=
  let d := d.pairOff q
  (((d.wr 0 (SAF_PAIRST.STATE q) 2).wr 0 (SAF_PAIRST.FCODE q) code).raise 0 Ev.SAF.PAIR_FAULT).safTrips

/-- Effect of PAIR_FAULT: a mismatch in 2 consecutive readbacks. -/
def pairFaultEffect (q : Fin 8) (d : Dev) : Dev :=
  if 2 ≤ (d.safPair q).mis && d.rd 0 (SAF_PAIRST.STATE q) ≠ 2 then d.pairFault q (d.safPair q).code else d

/-- PAIR_FAULT (R304). -/
def execPairFault (t : Nat) (q : Fin 8) (s : State) := onDev t (pairFaultEffect q) s

/-- The fault of a test: the levels of the two nodes at the end of their own pulse, against what the pulse shall bring
(R305). -/
def testCode (on hHigh lHigh : Bool) : Nat :=
  if on then (if hHigh then 1 else if !lHigh then 3 else 0) else (if !hHigh then 2 else if lHigh then 4 else 0)

/-- Effect of PAIR_TEST on an enabled pair whose period is over: `h` and `l` the levels its nodes took, `moved` the other
pairs whose readback changed (R305). -/
def pairTestEffect (q : Fin 8) (h l : Bool) (moved : Fin 256) (d : Dev) : Dev :=
  let x := d.safPair q
  let due := match x.testAt with | some t => t + d.rd 0 SAF_CFG.TPER_MS * ticksPerMs ≤ d.now | none => true
  if !d.safRuns || !d.bit 0 SAF_PAIREN.EN q || d.rd 0 (SAF_PAIRST.STATE q) = 2 || !due then d
  else
    let d := d.modPair q fun x => { x with testAt := some d.now }
    let c := testCode (d.pairOn q) h l
    let others := (List.range 8).filter fun r => r ≠ q.val && moved.val.testBit r
    let d := if c ≠ 0 then d.pairFault q c else if others.isEmpty then d else d.pairFault q 5
    others.foldl (fun d r => d.pairFault r 5) d

/-- PAIR_TEST (R305). -/
def execPairTest (t : Nat) (q : Fin 8) (h l : Bool) (moved : Fin 256) (s : State) := onDev t (pairTestEffect q h l moved) s

/-- Effect of ISLAND_FAIL (R293). -/
def islandFailEffect (d : Dev) : Dev :=
  if !d.domOn .safe || d.on 0 SAF_STAT.FAIL then d
  else (d.pairsOff.wr 0 SAF_STAT.FAIL 1).raise 0 Ev.SAF.ISLAND_FAIL

/-- ISLAND_FAIL (R293). -/
def execIslandFail (t : Nat) (s : State) := onDev t islandFailEffect s

/-! ### The reset input (R300, R301) -/

/-- The reset input at an evaluation: a pulse begins when both channels read active and ends when both read inactive; a
difference of more than 50 ms at an edge raises RST_DISC. -/
def Dev.rstEval (d : Dev) : Dev :=
  let a := d.on 0 SAF_RST.A
  let b := d.on 0 SAF_RST.B
  let ix := d.safIx
  let since (was : Option Nat) (act : Bool) : Option Nat := if act then some (was.getD ix) else none
  let d := d.modRst fun x =>
    { x with ended := none, aAt := since x.aAt a, bAt := since x.bAt b, idleAt := since x.idleAt (!a && !b),
             diffAt := since x.diffAt (a ≠ b) }
  if d.on 0 SAF_RST.JAM then d.modRst fun x => { x with pulseAt := none, bad := false, flagged := false }
  else
    let late := match d.saf.rst.diffAt with | some t => 50 < ix - t | none => false
    let d := if late && !d.saf.rst.flagged then
        (d.modRst fun x => { x with flagged := true, bad := true }).raise 0 Ev.SAF.RST_DISC
      else d
    let x := d.saf.rst
    if a && b then
      d.modRst fun x => { x with pulseAt := some (x.pulseAt.getD ix), flagged := false }
    else if !a && !b then
      match x.pulseAt with
      | some t =>
        let len := ix - t
        (d.wrU 0 SAF_RST.LAST_MS len).modRst fun x =>
          { x with ended := some (len, x.bad || 5000 < len), pulseAt := none, bad := false, flagged := false }
      | none => d.modRst fun x => { x with bad := false, flagged := false }
    else d

/-- What an accepted reset does to a function (R298, R301). -/
def Dev.fnReset (d : Dev) (n : Nat) : Dev :=
  if !d.on 0 (SAF_IN_A.EN n) || d.rd 0 (SAF_INST.STATE n) ≠ 2 || d.anyDemand n then d
  else
    let d := if (d.safFn n).discBoth then d.wr 0 (SAF_INST.DISCF n) 0 else d
    if d.on 0 (SAF_INST.DISCF n) then d else d.fnRelease n

/-- What an accepted reset does to a connection: FAULT ends where READY is 1 (R301, R309). -/
def Dev.conReset (d : Dev) (m : Nat) : Dev :=
  if d.rd 0 (SFC_STAT.STATE m) = 3 && d.on 0 (SFC_STAT.READY m) then
    let d := ((d.wr 0 (SFC_STAT.STATE m) 2).wr 0 (SFC_STAT.READY m) 0).wr 0 (SFC_STAT.FCAUSE m) 0
    (d.wr 0 (SFC_RX.BITS m) (d.sfcCon m).bits).raise 0 Ev.SFC.CON_RUN
  else d

/-- What an accepted reset does to a pair whose retest passes (R306). -/
def Dev.pairReset (pass : Nat) (d : Dev) (q : Nat) : Dev :=
  if d.rd 0 (SAF_PAIRST.STATE q) = 2 && pass.testBit q then
    ((d.wr 0 (SAF_PAIRST.STATE q) 0).wr 0 (SAF_PAIRST.FCODE q) 0).modPair q fun x => { x with mis := 0 }
  else d

/-- Effect of SAFE_RESET_PULSE_END at the evaluation that ended the pulse; `pass` names the pairs whose retest passes. -/
def safeResetPulseEndEffect (pass : Fin 256) (d : Dev) : Dev :=
  match d.saf.rst.ended with
  | none => d
  | some (len, bad) =>
    let live := d.safRuns && d.saf.evalIx = d.safIx + 1
    let d := d.modRst fun x => { x with ended := none }
    if !live || bad || len < 100 || 5000 < len || d.on 0 SAF_RST.JAM then d
    else
      let d := (d.inc 0 SAF_RSTCNT.COUNT).raise 0 Ev.SAF.RST_ACCEPT
      let d := (List.range 32).foldl Dev.fnReset d
      let d := (List.range 64).foldl Dev.conReset d
      let d := (List.range 8).foldl (Dev.pairReset pass) d
      (List.range 8).foldl Dev.pairEval d.safTrips

/-- SAFE_RESET_PULSE_END (R301). -/
def execSafeResetPulseEnd (t : Nat) (pass : Fin 256) (s : State) := onDev t (safeResetPulseEndEffect pass) s

/-- Effect of RST_JAM: a channel active for more than 5,000 ms. -/
def rstJamEffect (d : Dev) : Dev :=
  let long (x : Option Nat) : Bool := match x with | some t => 5000 < d.safIx - t | none => false
  if d.safRuns && !d.on 0 SAF_RST.JAM && (long d.saf.rst.aAt || long d.saf.rst.bAt) then
    ((d.wr 0 SAF_RST.JAM 1).modRst fun x => { x with pulseAt := none, bad := false, ended := none }).raise 0 Ev.SAF.RST_JAM
  else d

/-- RST_JAM (R300). -/
def execRstJam (t : Nat) (s : State) := onDev t rstJamEffect s

/-- Effect of RST_JAM_RELEASE: both channels inactive for 1,000 ms; no reset. -/
def rstJamReleaseEffect (d : Dev) : Dev :=
  match d.saf.rst.idleAt with
  | some t => if d.on 0 SAF_RST.JAM && 1000 ≤ d.safIx - t then d.wr 0 SAF_RST.JAM 0 else d
  | none => d

/-- RST_JAM_RELEASE (R300). -/
def execRstJamRelease (t : Nat) (s : State) := onDev t rstJamReleaseEffect s

/-! ### The evaluation -/

/-- Effect of SAFE_EVALUATION, once at each point of the 1 ms grid (R295, R297, R302). -/
def safeEvaluationEffect (d : Dev) : Dev :=
  if !d.safRuns || d.safIx < d.saf.evalIx then d
  else
    let d := { d with saf := { d.saf with evalIx := d.safIx + 1 } }
    let d := (List.range 32).foldl Dev.fnEval d.takeOvertemp
    let d := d.rstEval.safTrips
    (List.range 8).foldl Dev.pairEval d

/-! ### The safety layer (R308 to R310) -/

/-- Frame length of a connection. -/
def Dev.sfcLen (d : Dev) (m : Nat) : Nat := 16 * 2 ^ d.rd 0 (SFC_CON_A.SIZE m)

/-- CRC of a safety-layer frame under an identity (Table SFC-1). -/
def sfcCrc (id : Nat) (f : List Byte) : Nat := crc32c (leBytes 4 id ++ f.take (f.length - 4))

/-- Whether the CRC of a frame verifies under a connection's identity. -/
def Dev.sfcCrcOk (d : Dev) (m : Nat) (f : List Byte) : Bool :=
  sfcCrc (d.rd 0 (SFC_CON_ID.ID m)) f = leAt f (f.length - 4) 4

/-- A connection goes to FAULT (R309). -/
def Dev.conFault (d : Dev) (m cause : Nat) : Dev :=
  let d := ((d.wr 0 (SFC_STAT.STATE m) 3).wr 0 (SFC_STAT.FCAUSE m) cause).wr 0 (SFC_STAT.READY m) 0
  ((d.wr 0 (SFC_RX.BITS m) 0).modCon m fun x => { x with base := false, count := 0, crcAt := [] }).raise 0 Ev.SFC.CON_FAULT

/-- READY returns to 0 and frames are counted again. -/
def Dev.conUnready (d : Dev) (m : Nat) : Dev :=
  (d.wr 0 (SFC_STAT.READY m) 0).modCon m fun x => { x with base := false, count := 0, crcAt := [] }

/-- A frame accepted after the base, or the base itself. -/
def Dev.conAccept (d : Dev) (m : Nat) (f : List Byte) (isBase : Bool) : Dev :=
  let bits := leAt f 6 4
  let d := (d.wr 0 (SFC_STAT.LASTSEQ m) (leAt f 0 2)).wrB 0 (SFC_STAT.PEERFSV m) ((leAt f 4 1).testBit 0)
  let d := d.modCon m fun x =>
    { x with base := true, count := if isBase then 0 else x.count + 1, wdAt := d.now,
             readyAt := if isBase then d.now else x.readyAt, bits := bits }
  match d.rd 0 (SFC_STAT.STATE m) with
  | 1 => if 2 ≤ (d.sfcCon m).count then ((d.wr 0 (SFC_STAT.STATE m) 2).wr 0 (SFC_RX.BITS m) bits).raise 0 Ev.SFC.CON_RUN else d
  | 2 => d.wr 0 (SFC_RX.BITS m) bits
  | _ => d

/-- A frame reaches an enabled connection (R308). -/
def Dev.sfcRx (d : Dev) (m : Nat) (f : List Byte) : Dev :=
  if !d.domOn .safe || d.rd 0 (SFC_STAT.STATE m) = 0 || f.length ≠ d.sfcLen m then d
  else if !d.sfcCrcOk m f then
    ((d.inc 0 SFC_CRCERR.COUNT).modCon m fun x => { x with crcAt := (d.now :: x.crcAt).take 3 }).raise 0 Ev.SFC.CRC_ERR
  else if leAt f 2 2 ≠ d.rd 0 (SFC_CON_B.WDX_MS m) then
    if d.rd 0 (SFC_STAT.STATE m) = 3 then d else d.conFault m 3
  else
    let x := d.sfcCon m
    let gap := (leAt f 0 2 + 65536 - d.rd 0 (SFC_STAT.LASTSEQ m)) % 65536
    if !x.base then d.conAccept m f true
    else if 1 ≤ gap && gap ≤ 4 then d.conAccept m f false
    else d.inc 0 SFC_SEQDISC.COUNT

/-- Of the connections on one transport path, the frame goes to the one whose identity verifies; else to the first. -/
def Dev.sfcRoute (d : Dev) (ms : List Nat) (f : List Byte) : Dev :=
  match ms.find? fun m => d.sfcCrcOk m f with
  | some m => d.sfcRx m f
  | none => match ms with | m :: _ => d.sfcRx m f | [] => d

/-- The enabled connections of a Skein position, and of a Yarn-line peer. -/
def Dev.sfcSkein (d : Dev) (k pos : Nat) : List Nat :=
  (List.range 64).filter fun m => d.on 0 (SFC_CON_A.EN m) && d.rd 0 (SFC_CON_A.TRANS m) = 0
    && d.rd 0 (SFC_CON_A.PORT m) = k && d.rd 0 (SFC_CON_A.NODE m) = pos
def Dev.sfcYarn (d : Dev) (n : Nat) : List Nat :=
  (List.range 64).filter fun m => d.on 0 (SFC_CON_A.EN m) && d.rd 0 (SFC_CON_A.TRANS m) = 1
    && d.rd 0 (SFC_CON_A.PEER m) = n

/-- Effect of SFC_FRAME_RX: a Skein frame that carries a safety-layer frame (R130, R308, R310). -/
def sfcFrameRxEffect (k : Fin 12) (f : List Byte) (d : Dev) : Dev :=
  d.rxFrame k 0x40 f fun home pos d => d.sfcRoute (d.sfcSkein home pos) (slice f 4 (leAt f 2 1))

/-- SFC_FRAME_RX (R308). -/
def execSfcFrameRx (t : Nat) (k : Fin 12) (f : List Byte) (s : State) := onDev t (sfcFrameRxEffect k f) s

/-- Effect of SFC_WATCHDOG (R309). -/
def sfcWatchdogEffect (m : Fin 64) (d : Dev) : Dev :=
  let x := d.sfcCon m
  let late := x.wdAt + d.rd 0 (SFC_CON_B.WDX_MS m) * ticksPerMs ≤ d.now
  match d.rd 0 (SFC_STAT.STATE m) with
  | 2 => if late then d.conFault m 1 else d
  | 3 => if late && x.base then d.conUnready m else d
  | _ => d

/-- SFC_WATCHDOG (R309). -/
def execSfcWatchdog (t : Nat) (m : Fin 64) (s : State) := onDev t (sfcWatchdogEffect m) s

/-- Effect of SFC_CRC_RATE: 3 CRC failures within 1,000 ms (R309). -/
def sfcCrcRateEffect (m : Fin 64) (d : Dev) : Dev :=
  match (d.sfcCon m).crcAt with
  | [a, _, c] =>
    if c + ticksPerS < a then d
    else
      match d.rd 0 (SFC_STAT.STATE m) with
      | 1 | 2 => d.conFault m 2
      | 3 => d.conUnready m
      | _ => d
  | _ => d

/-- SFC_CRC_RATE (R309). -/
def execSfcCrcRate (t : Nat) (m : Fin 64) (s : State) := onDev t (sfcCrcRateEffect m) s

/-- Effect of SFC_READY: in FAULT, frames accepted for 2 × WDX_MS (R309). -/
def sfcReadyEffect (m : Fin 64) (d : Dev) : Dev :=
  let x := d.sfcCon m
  let w := d.rd 0 (SFC_CON_B.WDX_MS m) * ticksPerMs
  if d.rd 0 (SFC_STAT.STATE m) = 3 && x.base && x.readyAt + 2 * w ≤ d.now && d.now < x.wdAt + w then
    d.wr 0 (SFC_STAT.READY m) 1
  else d

/-- SFC_READY (R309). -/
def execSfcReady (t : Nat) (m : Fin 64) (s : State) := onDev t (sfcReadyEffect m) s

/-- The 32 safety bits the device sends (R310). -/
def Dev.safBits (d : Dev) : Nat :=
  if d.on 0 SAF_STAT.FAIL then 0
  else ((List.range 32).map fun n => if d.rd 0 (SAF_INST.STATE n) = 3 then 2 ^ n else 0).sum

/-- The next frame of a connection (Table SFC-1). -/
def Dev.sfcFrame (d : Dev) (m : Nat) : List Byte :=
  let ctrl := (if d.on 0 SAF_STAT.FAIL then 1 else 0) + if d.rd 0 (SFC_STAT.STATE m) = 3 then 2 else 0
  let body := leBytes 2 (d.sfcCon m).txSeq ++ leBytes 2 (d.rd 0 (SFC_CON_B.WDX_MS m)) ++ b1 ctrl ++ b1 0
    ++ leBytes 4 d.safBits ++ List.replicate (d.sfcLen m - 14) 0#8
  body ++ leBytes 4 (sfcCrc (d.rd 0 (SFC_CON_ID.ID m)) (body ++ leBytes 4 0))

/-- Address of the host slots of a connection: OUT, and IN 64 bytes on (R310). -/
def Dev.sfcSlot (d : Dev) (m : Nat) : Nat := d.rd 0 SFC_HBUF.BASE * 4096 + 128 * m

/-- A frame of a connection is due. -/
def Dev.sfcDue (d : Dev) (m : Nat) : Bool :=
  d.domOn .safe && d.on 0 (SFC_CON_A.EN m) && match (d.sfcCon m).txAt with
    | some t => t + d.rd 0 (SFC_CON_B.TX_MS m) * ticksPerMs ≤ d.now
    | none => true

/-- The frame leaves by its transport; what it writes into the shared buffers stands beside (R310). -/
def Dev.sfcSend (d : Dev) (m : Nat) : Option (Nat × List Byte) × Dev :=
  let f := d.sfcFrame m
  let d := d.modCon m fun x => { x with txSeq := (x.txSeq + 1) % 65536, txAt := some d.now }
  match d.rd 0 (SFC_CON_A.TRANS m) with
  | 0 =>
    let k := d.rd 0 (SFC_CON_A.PORT m)
    let pos := d.rd 0 (SFC_CON_A.NODE m)
    (none, if d.nodeUp k pos && !d.plySilent then d.sendDown k (b1 0x40 ++ b1 pos ++ b1 f.length ++ b1 0 ++ f) else d)
  | 1 =>
    let n := d.rd 0 (SFC_CON_A.PEER m)
    (none, if d.yarnOn && d.peerUp n && !d.plySilent then d.yarnPush { peer := n, cls := 0, data := f } else d)
  | _ =>
    let d := if m < 32 then d.wrBit 0 SFC_HOUTPEND_LO.PEND m true else d.wrBit 0 SFC_HOUTPEND_HI.PEND (m - 32) true
    (some (d.sfcSlot m, f), d.raise 0 Ev.SFC.HOST_TX)

/-- SFC_TX (R310). -/
def execSfcTx (t : Nat) (m : Fin 64) (s : State) : Host.Outcome State Fault Refusal :=
  let d := Dev.at t s.dev
  .next (if d.sfcDue m then s.rxStore (d.sfcSend m) else { s with dev := d })

/-- A write of SFC_HIN: the frame in a host connection's IN slot is delivered (R310). -/
def Dev.sfcHinWrite (sram : AMap Byte) (d : Dev) (v : Nat) : Except Nat Dev :=
  let m := v % 64
  if d.rd 0 (SFC_CON_A.TRANS m) ≠ 2 then .error RC.RANGE
  else .ok (d.sfcRx m (sram.getBytes (d.sfcSlot m + 64) (d.sfcLen m)))

/-! ### Commits (R312, Tables SAF-4, SAF-5, SFC-2, SFC-3) -/

/-- The words of a run of registers. -/
def Dev.words (d : Dev) (t : Tag) (off n : Nat) : List Byte :=
  (List.range n).flatMap fun i => leBytes 4 (d.word t 0 (off + 4 * i)).toNat

/-- SAF_CFGCRC of the active SAF and SFC areas. -/
def Dev.safCrc (d : Dev) : Dev :=
  d.wr 0 SAF_CFGCRC.CRC (crc32c (d.words .saf 0x40 2 ++ d.words .saf 0x80 100 ++ d.words .sfc 0x40 1 ++ d.words .sfc 0x80 192))

/-- The checks of a SAF commit: `d'` holds the values that would become active. -/
def safReasons (d d' : Dev) : List Nat :=
  let fns := (List.range 32).filter fun n => d'.on 0 (SAF_IN_A.EN n)
  failIf d.anyEnergised RC.ENERGISED ++
  failIf (fns.any fun n => d'.rd 0 (SAF_IN_MASK.PTS n) = 0) RC.RANGE ++
  failIf (((List.range 8).any fun q => d'.bit 0 SAF_PAIREN.EN q && (d'.pairPts q).isEmpty)
    || fns.any fun n => (d'.fnPts n).any fun p => (d'.pairOf p).isNone) 0x81 ++
  failIf (fns.any fun n => d'.rd 0 (SAF_IN_A.SRC n) ≠ 0 && !d.on 0 (SFC_CON_A.EN (d'.rd 0 (SAF_IN_SRCB.CON n)))) 0x82 ++
  failIf (fns.any fun n => d'.rd 0 (SAF_IN_A.KIND n) = 1 && d'.on 0 (SAF_IN_A.AUTO n)) 0x83

/-- A function starts: TESTPEND or TRIPPED (R299). -/
def Dev.fnStart (d : Dev) (n : Nat) : Dev :=
  let d := d.modFn n fun _ => {}
  if d.on 0 (SAF_IN_A.EN n) then
    (d.setWord .saf 0 (0x460 + 4 * n) 0).wr 0 (SAF_INST.STATE n) (if d.on 0 (SAF_IN_A.STARTUP_TEST n) then 1 else 2)
  else d.setWord .saf 0 (0x460 + 4 * n) 0

/-- What an accepted SAF commit brings: functions newly enabled start, disabled ones go OFF; `d` is the state before. -/
def safCommitted (d d' : Dev) : Dev :=
  let d' := (List.range 32).foldl (fun x n =>
    if d.on 0 (SAF_IN_A.EN n) = d'.on 0 (SAF_IN_A.EN n) then x else x.fnStart n) d'
  d'.safCrc.wrB 0 SAF_STAT.READY (d'.on 0 SAF_STAT.READY || d'.domOn .safe)

/-- Whether the three words of a connection differ. -/
def conChanged (d d' : Dev) (m : Nat) : Bool :=
  [0x80, 0x84, 0x88].any fun o => d.word .sfc 0 (o + 12 * m) ≠ d'.word .sfc 0 (o + 12 * m)

/-- The checks of an SFC commit. -/
def sfcReasons (d d' : Dev) : List Nat :=
  let ms := List.range 64
  let on (m : Nat) : Bool := d'.on 0 (SFC_CON_A.EN m)
  let tr (m : Nat) : Nat := d'.rd 0 (SFC_CON_A.TRANS m)
  let skn (m : Nat) : Bool := d'.rd 0 (SFC_CON_A.PORT m) ≠ 0 || d'.rd 0 (SFC_CON_A.NODE m) ≠ 0
  let peer (m : Nat) : Bool := d'.rd 0 (SFC_CON_A.PEER m) ≠ 0
  let used (m : Nat) : Bool := (List.range 32).any fun n =>
    d.on 0 (SAF_IN_A.EN n) && d.rd 0 (SAF_IN_A.SRC n) ≠ 0 && d.rd 0 (SAF_IN_SRCB.CON n) = m
      && (d.fnPts n).any d.energised
  let ids := (ms.filter on).map fun m => d'.rd 0 (SFC_CON_ID.ID m)
  failIf (ms.any fun m => conChanged d d' m && used m) RC.ENERGISED ++
  failIf (ms.any fun m => (tr m = 0 && peer m) || (tr m = 1 && skn m) || (tr m = 2 && (peer m || skn m))
    || (on m && d'.rd 0 (SFC_CON_ID.ID m) = 0)
    || (on m && tr m = 2 && 0x400000 < d'.rd 0 SFC_HBUF.BASE * 4096 + 8192)) RC.RANGE ++
  failIf (ms.any fun m => on m && tr m = 0
    && d'.rd (d'.rd 0 (SFC_CON_A.PORT m)) (SKN_EXPECT.POS (d'.rd 0 (SFC_CON_A.NODE m))) = 1) 0x81 ++
  failIf (ms.any fun m => on m && (d'.rd 0 (SFC_CON_B.WDX_MS m) < 2 * d'.rd 0 (SFC_CON_B.TX_MS m)
    || (tr m = 1 && d'.rd 0 (SFC_CON_B.WDX_MS m)
      < d'.rd 0 PLC_CFG.MAXHOP * (2 * d'.rd 0 PLC_MAC.MAXFRAME_MS + 20)))) 0x82 ++
  failIf (decide ¬ids.Nodup) 0x83

/-- A connection starts in SYNC, or goes OFF (R309). -/
def Dev.conStart (d : Dev) (m : Nat) : Dev :=
  let d := (d.setWord .sfc 0 (0x440 + 4 * m) 0).wr 0 (SFC_RX.BITS m) 0
  let d := d.modCon m fun _ => {}
  d.wr 0 (SFC_STAT.STATE m) (if d.on 0 (SFC_CON_A.EN m) then 1 else 0)

/-- What an accepted SFC commit brings. -/
def sfcCommitted (d d' : Dev) : Dev :=
  let d' := (List.range 64).foldl (fun x m => if conChanged d d' m then x.conStart m else x) d'
  d'.safCrc

/-- A connection whose transport's domain leaves ON returns to SYNC (R309, R392). -/
def Dev.conResync (d : Dev) (m : Nat) : Dev :=
  if d.rd 0 (SFC_STAT.STATE m) = 0 then d
  else
    let d := (d.wr 0 (SFC_STAT.STATE m) 1).wr 0 (SFC_STAT.READY m) 0
    (d.wr 0 (SFC_RX.BITS m) 0).modCon m fun x => { x with base := false, count := 0, crcAt := [] }

end Sys2Proof.Machine
end

