-- ==== Sys2Proof/Machine/Yarn.lean ====
section
/-!
DEFINITION. The Yarn line (R219 to R234): the zero-cross input, beacon periods and routes, peers, frames and their
acknowledgement, and the operations that carry payloads.
-/

namespace Sys2Proof.Machine

/-! ### Zero-cross input (R226) -/

/-- Whether an interval between edges, in ticks, gives 45 to 65 Hz. -/
def zcInRange (iv : Nat) : Bool := ticksPerS ≤ 65 * iv && 45 * iv ≤ ticksPerS

/-- Effect of ZC_EDGE: a pulse of so many µs; short ones are ignored, the others dated DELAY_US earlier. -/
def zcEdgeEffect (widthUs : Nat) (d : Dev) : Dev :=
  if !d.domOn .plc || widthUs < d.rd 0 PLC_ZC.FILT_US then d
  else
    let e := d.now - d.rd 0 PLC_ZC.DELAY_US * ticksPerUs
    let y := d.yarn
    match y.zc with
    | none => { d with yarn := { y with zc := some e, edges := y.edges + 1 } }
    | some p =>
      let iv := e - p
      let d := { d with yarn := { y with zc := some e, edges := y.edges + 1, zcGood := if zcInRange iv then y.zcGood + 1 else 0 } }
      if zcInRange iv then
        (d.wrU 0 PLC_ZCSTAT.PERIOD_US (rdiv iv ticksPerUs)).wrU 0 PLC_ZCSTAT.FREQ (rdiv (100 * ticksPerS : Nat) iv)
      else d

/-- ZC_EDGE (R226). -/
def execZcEdge (t : Nat) (widthUs : Nat) (s : State) := onDev t (zcEdgeEffect widthUs) s

/-- Effect of ZC_LOST: no accepted edge for 30 ms, or one out of range. -/
def zcLostEffect (d : Dev) : Dev :=
  let late := match d.yarn.zc with | some e => e + 30 * ticksPerMs ≤ d.now | none => true
  if d.on 0 PLC_STAT.ZCVALID && (late || d.yarn.zcGood = 0) then
    ({ d with yarn := { d.yarn with zcGood := 0 } }.wr 0 PLC_STAT.ZCVALID 0).raise 0 Ev.PLC.ZC_LOST
  else d

/-- ZC_LOST (R226). -/
def execZcLost (t : Nat) (s : State) := onDev t zcLostEffect s

/-- Effect of ZC_OK: 8 consecutive edges within range. -/
def zcOkEffect (d : Dev) : Dev :=
  if !d.on 0 PLC_STAT.ZCVALID && 8 ≤ d.yarn.zcGood then (d.wr 0 PLC_STAT.ZCVALID 1).raise 0 Ev.PLC.ZC_OK else d

/-- ZC_OK (R226). -/
def execZcOk (t : Nat) (s : State) := onDev t zcOkEffect s

/-- ZC_OFS of a beacon sent now (R227). -/
def Dev.zcOfs (d : Dev) : Nat :=
  match d.yarn.zc with
  | some e => if d.on 0 PLC_STAT.ZCVALID then min 0xFFFE ((d.now - e) / ticksPerUs) else 0xFFFF
  | none => 0xFFFF

/-! ### Routes (R228, R229) -/

/-- The cost of the hop between two stations, 64 the device: the higher of its two directions'. -/
def Dev.hopCost (d : Dev) (a b : Nat) : Nat :=
  let seen (x y : Nat) : Nat :=
    if x = 64 then linkCost (d.rd 0 (PLC_NBR_B.BPS y)) (d.rd 0 (PLC_NBR_B.FER y))
    else (d.ypeer x).costs.get (fun _ => 65535) y
  max (seen a b) (seen b a)

/-- The costs of the hops of a route from the device to a peer. -/
def Dev.hopCosts (d : Dev) (n : Nat) (route : List Nat) : List Nat :=
  let st := 64 :: route ++ [n]
  (st.zip (st.drop 1)).map fun x => d.hopCost x.1 x.2

/-- The cost of a route, saturated. -/
def Dev.routeCost (d : Dev) (n : Nat) (route : List Nat) : Nat := min 65535 (d.hopCosts n route).sum

/-- The peers that may serve as repeaters. -/
def Dev.relays (d : Dev) : List Nat := (List.range 64).filter fun r => d.peerUp r && d.on 0 (PLC_PEER_HI.RELAY r)

/-- The routes to a peer with at most MAXHOP hops, those with the lower addresses first. -/
def Dev.routes (d : Dev) (n : Nat) : List (List Nat) :=
  let h := d.rd 0 PLC_CFG.MAXHOP
  let rs := d.relays.filter (· ≠ n)
  [] :: (if h < 2 then [] else rs.flatMap fun r =>
    [r] :: if h < 3 then [] else (rs.filter (· ≠ r)).map fun q => [r, q])

/-- The route of least cost; of equal ones the first. -/
def Dev.bestRoute (d : Dev) (n : Nat) : List Nat × Nat :=
  (d.routes n).foldl (fun b r => let c := d.routeCost n r; if c < b.2 then (r, c) else b) ([], d.routeCost n [])

/-- A peer's route at the start of a beacon period. -/
def Dev.routePeer (d : Dev) (n : Nat) : Dev :=
  if !d.peerUp n then d
  else
    let x := d.ypeer n
    let cur := d.routeCost n x.route
    let (r, c) := d.bestRoute n
    let broken := d.rd 0 (PLC_NBR_A.HOPS n) = 0 || (d.hopCosts n x.route).any (65535 ≤ ·)
      || x.route.any fun q => !d.peerUp q
    let change := broken || (r ≠ x.route && 100 * c ≤ (100 - d.rd 0 PLC_ROUTE.HYS_PCT) * cur)
    let use := if change then r else x.route
    let fresh := d.rd 0 (PLC_NBR_A.HOPS n) = 0 || use ≠ x.route
    let d := d.modPeer n fun x => { x with route := use }
    let d := (d.wr 0 (PLC_NBR_A.HOPS n) (use.length + 1)).wr 0 (PLC_NBR_A.NEXT n) (use.headD n)
    let d := d.wr 0 (PLC_NBR_A.COST n) (if change then c else cur)
    if fresh then d.raise 0 Ev.PLC.ROUTE_CHANGE else d

/-! ### Contention (R222) -/

/-- Whether a queued frame contends: not held back after an impulse, not kept by a hot driver (R217, R225). -/
def Dev.contends (d : Dev) (x : YTx) : Bool := x.hold.isNone && !(d.on 0 PLC_STAT.DRVHOT && 2 ≤ x.cls)

/-- The frame that wins: the first of the highest class. -/
def Dev.yarnPick (d : Dev) : Option YTx :=
  (List.range 4).findSome? fun c => d.yarn.q.find? fun x => x.cls = c && d.contends x

/-- Since when the slots of a frame's contention run: the medium free for it, in the contention region. -/
def Dev.yarnSince (d : Dev) (x : YTx) : Nat :=
  max (max d.yarn.freeAt x.boffAt) (d.yarn.bpAt.getD 0 + 17 * ticksPerMs)

/-- Backoff slots of a frame that have passed by a time: those after the two of priority resolution. -/
def Dev.yarnSlots (d : Dev) (x : YTx) (t : Nat) : Nat := ((t - d.yarnSince x) * 100 / ticksPerUs - 7168) / 3584

/-- The backoff of a frame has reached zero. -/
def Dev.yarnReady (d : Dev) (x : YTx) : Bool :=
  d.yarnSince x + ticksOfCus (7168 + 3584 * x.boff) ≤ d.now

/-- The medium is taken at `t` by a frame of a class: the device's contender freezes its count where it stands; one of a
lower class had deferred and has counted nothing. -/
def Dev.yarnFreeze (d : Dev) (t cls : Nat) : Dev :=
  match d.yarnPick with
  | some x =>
    if cls < x.cls then d
    else { d with yarn := { d.yarn with q := mapIf (· == x) (fun z => { z with boff := z.boff - d.yarnSlots x t }) d.yarn.q } }
  | none => d

/-- A frame has been heard that ends now: the medium was taken from its preamble, and is free after its SACK and the
gap, a broadcast at once. -/
def Dev.yarnHeard (d : Dev) (fc : YarnFc) : Dev :=
  let d := d.yarnFreeze (d.now - ticksOfCus (yarnDur fc.nsym)) fc.cls
  { d with yarn := { d.yarn with freeAt := max d.yarn.freeAt (d.now + (if fc.dst = 127 then 0 else ticksOfCus 30240)) } }

/-! ### Beacon periods (R221, R234) -/

/-- A beacon period begins now. -/
def Dev.beaconDue (d : Dev) : Bool :=
  d.yarnOn && !d.plySilent &&
    match d.yarn.bpAt with
    | none => 1 ≤ d.yarn.edges || d.yarn.enAt + 80 * ticksPerMs ≤ d.now
    | some b => if d.on 0 PLC_STAT.ZCVALID then 4 ≤ d.yarn.edges else b + 80 * ticksPerMs ≤ d.now

/-- Effect of YARN_BEACON_PERIOD. -/
def yarnBeaconPeriodEffect (d : Dev) : Dev :=
  if !d.beaconDue then d
  else
    let d := d.yarnFreeze d.now 3
    let d := { d with yarn := { d.yarn with bpAt := some d.now, edges := 0 } }
    let d := ((d.inc 0 PLC_BPCNT.COUNT).wr 0 PLC_STAT.UP 1).wr 0 PLC_STAT.COORD 1
    let d := (List.range 64).foldl Dev.routePeer d
    let up := (List.range 64).filter d.peerUp
    let hops := up.map fun n => (n, (d.ypeer n).route.getLastD 64)
    d.send (.yarnBeacon d.yarnTxc (d.rd 0 PLC_BPCNT.COUNT) d.zcOfs hops)

/-- YARN_BEACON_PERIOD (R221). -/
def execYarnBeaconPeriod (t : Nat) (s : State) := onDev t yarnBeaconPeriodEffect s

/-! ### Peers (R227, R230) -/

/-- The enabled entry of an identity. -/
def Dev.peerOf (d : Dev) (ident : Nat) : Option Nat :=
  (List.range 64).find? fun n => d.on 0 (PLC_PEER_HI.EN n)
    && d.rd 0 (PLC_PEER_LO.ID n) + 2 ^ 32 * d.rd 0 (PLC_PEER_HI.ID n) = ident

/-- Something is heard from an admitted peer. -/
def Dev.hear (d : Dev) (n : Nat) : Dev :=
  let d := d.modPeer n fun x => { x with heard := d.rd 0 PLC_BPCNT.COUNT }
  if d.peerUp n then d else (d.wr 0 (PLC_NBR_A.STATE n) 2).raise 0 Ev.PLC.PEER_UP

/-- The phase class of a beacon (R227): 0 SAME, 1 LAG120, 2 LAG240, 3 UNRESOLVED. -/
def Dev.phaseOf (d : Dev) (zcOfs : Nat) : Nat :=
  match d.yarn.zc with
  | none => 3
  | some e =>
    let per : Int := d.rd 0 PLC_ZCSTAT.PERIOD_US * ticksPerUs
    if !d.on 0 PLC_STAT.ZCVALID || zcOfs = 0xFFFF || per = 0 then 3
    else
      let x := 18 * (((d.now : Int) - e - zcOfs * ticksPerUs) % per)
      if x ≤ per || 17 * per ≤ x then 0
      else if (x - 6 * per).natAbs ≤ per then 1
      else if (x - 12 * per).natAbs ≤ per then 2 else 3

/-- Effect of STATION_BEACON_RX: `ok` its authentication, `costs` what the station measures to those it hears. -/
def stationBeaconRxEffect (ident : Nat) (src : Fin 64) (ok : Bool) (zcOfs : Nat) (costs : List (Nat × Nat)) (d : Dev) : Dev :=
  let _ := src
  if !d.yarnOn then d
  else if !ok then (d.inc 0 PLC_AUTHERR.COUNT).raise 0 Ev.PLC.AUTH_FAIL
  else
    match d.peerOf ident with
    | none => d.raise 0 Ev.PLC.PEER_REFUSED
    | some n =>
      let d := d.hear n
      let c := d.phaseOf zcOfs
      let d := d.modPeer n fun x =>
        { x with phases := (c :: x.phases).take 4,
                 costs := costs.foldl (fun m e => AMap.set (fun _ => 65535) m e.1 (min 65535 e.2)) [] }
      if 3 ≤ (d.ypeer n).phases.count c && d.rd 0 (PLC_NBR_A.PHASE n) ≠ c then
        (d.wr 0 (PLC_NBR_A.PHASE n) c).raise 0 Ev.PLC.PHASE_CHANGE
      else d

/-- STATION_BEACON_RX (R227). -/
def execStationBeaconRx (t : Nat) (ident : Nat) (src : Fin 64) (ok : Bool) (zcOfs : Nat) (costs : List (Nat × Nat))
    (s : State) := onDev t (stationBeaconRxEffect ident src ok zcOfs costs) s

/-- Effect of PEER_LOST (R230). -/
def peerLostEffect (m : Fin 64) (d : Dev) : Dev :=
  if d.peerUp m && d.rd 0 PLC_ROUTE.LOST_BP ≤ (d.rd 0 PLC_BPCNT.COUNT + 2 ^ 32 - (d.ypeer m).heard) % 2 ^ 32 then
    (d.wr 0 (PLC_NBR_A.STATE m) 3).raise 0 Ev.PLC.PEER_LOST
  else d

/-- PEER_LOST (R230). -/
def execPeerLost (t : Nat) (m : Fin 64) (s : State) := onDev t (peerLostEffect m) s

/-! ### Sending (R220 to R223, R225) -/

/-- The station a frame to a peer goes to next. -/
def Dev.nextHop (d : Dev) (n : Nat) : Nat := if d.rd 0 (PLC_NBR_A.HOPS n) = 0 then n else d.rd 0 (PLC_NBR_A.NEXT n)

/-- MODE, TMI and payload bits per symbol of a frame (R220). -/
def Dev.yarnMode (d : Dev) (cls hop : Nat) : Nat × Nat × Nat :=
  let x := d.ypeer hop
  let b := toneBps x.txMap
  if cls = 0 then (2, 0, 177) else if x.robust || b = 0 then (1, 0, 266) else (0, x.txGen, b)

/-- MODE, TMI and payload bits per symbol of a frame's next attempt: those of the last after an impulse (R225). -/
def Dev.yarnModeOf (d : Dev) (x : YTx) : Nat × Nat × Nat :=
  if x.keep then x.mode else d.yarnMode x.cls (d.nextHop x.peer)

/-- Whether a frame may start now: in the contention region, its SACK and gap before the next period (R221). -/
def Dev.mayStart (d : Dev) (nsym : Nat) : Bool :=
  match d.yarn.bpAt with
  | none => false
  | some b =>
    let len := if d.on 0 PLC_STAT.ZCVALID then 4 * d.rd 0 PLC_ZCSTAT.PERIOD_US else 80000
    b + 17 * ticksPerMs ≤ d.now && d.now + ticksOfCus (yarnDur nsym + 30240) ≤ b + len * ticksPerUs

/-- Effect of YARN_TX_START: the frame whose backoff reached zero starts (R222). -/
def yarnTxStartEffect (d : Dev) : Dev :=
  if !d.yarnOn || d.plySilent || d.yarn.air.isSome then d
  else
    match d.yarnPick with
    | none => d
    | some x =>
      let hop := d.nextHop x.peer
      let (mode, tmi, b) := d.yarnModeOf x
      let piece := min x.data.length (d.yarnPiece b)
      let nsym := yarnSyms piece b
      if !d.mayStart nsym || !d.yarnReady x then d
      else
        let y := d.yarn
        let keep := x.piece = piece && x.seq.isSome
        let seq := if keep then x.seq.getD 0 else (d.ypeer x.peer).txSeq
        let d := if keep then d else d.modPeer x.peer fun p => { p with txSeq := (p.txSeq + 1) % 4096 }
        let x' := { x with tries := x.tries + 1, piece := piece, seq := some seq, mode := (mode, tmi, b) }
        let d := { d with yarn := { d.yarn with q := removeFirst (fun z => z == x) y.q, air := some x',
                                                airEnd := d.now + ticksOfCus (yarnDur nsym), counter := y.counter + 1,
                                                freeAt := d.now + ticksOfCus (yarnDur nsym + 30240) } }
        let d := (d.inc 0 PLC_TXFRM.COUNT).wr 0 (PLC_NBR_B.MODE x.peer) mode
        let d := if mode = 0 then d.wr 0 (PLC_NBR_B.TMGEN x.peer) tmi else d
        let d := if 0 < x.tries then d.inc 0 PLC_RETX.COUNT else d
        let fc : YarnFc := { dst := hop, src := 64, odst := x.peer, osrc := 64, cls := x.cls, mode := mode, tmi := tmi,
                             nsym := nsym, seq := seq, hop := 0 }
        d.send (.yarn d.yarnTxc fc y.counter (withCrc (x.data.take piece)))

/-- YARN_TX_START (R222). -/
def execYarnTxStart (t : Nat) (s : State) := onDev t yarnTxStartEffect s

/-- Put a frame back at the front of the queue, with a new backoff. -/
def Dev.yarnFront (d : Dev) (x : YTx) : Dev :=
  let (x, d) := d.yarnDraw x
  { d with yarn := { d.yarn with q := x :: d.yarn.q } }

/-- The operation a frame belongs to ends. -/
def Dev.yarnOwner (d : Dev) (x : YTx) (status : Nat) : Dev :=
  match x.owner with
  | some slot => d.opFinish slot status
  | none => d

/-- The frame in the air has failed: dropped after the last attempt, else it is repeated; an impulse holds it until
`hold` and leaves CW and the mode alone (R225). -/
def Dev.yarnFailed (d : Dev) (x : YTx) (hold : Option Nat) : Dev :=
  let hop := d.nextHop x.peer
  let d := { d with yarn := { d.yarn with air := none } }
  let d := if hold.isSome then d else
    let d := d.modPeer hop fun p => { p with fails := p.fails + 1, robust := p.robust || 2 ≤ p.fails + 1 }
    { d with yarn := { d.yarn with cw := d.yarn.cw.set (fun _ => 0) x.cls (min 2 (d.yarn.cw.get (fun _ => 0) x.cls + 1)) } }
  if d.rd 0 PLC_MAC.RETRY < x.tries then
    ((d.inc 0 PLC_TXFAIL.COUNT).raise 0 Ev.PLC.TX_FAIL).yarnOwner x 6
  else d.yarnFront { x with hold := hold, keep := hold.isSome }

/-- The frame in the air was taken: what is left of its payload follows, or its operation is done. -/
def Dev.yarnDone (d : Dev) (x : YTx) : Dev :=
  let d := d.modPeer (d.nextHop x.peer) fun p => { p with fails := 0 }
  let y := d.yarn
  let d := { d with yarn := { y with air := none, cw := y.cw.set (fun _ => 0) x.cls 0 } }
  let rest := x.data.drop x.piece
  if rest.isEmpty then d.yarnOwner x 0
  else d.yarnFront { x with data := rest, tries := 0, piece := 0, seq := none, keep := false }

/-- Effect of YARN_SACK_RX: the bitmap of NSYM (Table PLC-3). -/
def yarnSackRxEffect (src : Fin 64) (seq bits : Nat) (d : Dev) : Dev :=
  match d.yarn.air with
  | none => d
  | some x =>
    if !d.yarnOn || x.seq ≠ some seq || d.nextHop x.peer ≠ src.val then d
    else if bits.testBit 0 then d.yarnDone x
    else if bits.testBit 1 then
      let burst := d.now - (bits / 8 % 128) * 100 * ticksPerUs
      d.yarnFailed x (some (burst + d.rd 0 PLC_MAC.QUIET * 100 * ticksPerUs))
    else d.yarnFailed x none

/-- YARN_SACK_RX (R225). -/
def execYarnSackRx (t : Nat) (src : Fin 64) (seq bits : Nat) (s : State) := onDev t (yarnSackRxEffect src seq bits) s

/-- Effect of YARN_SACK_TIMEOUT: no SACK within 200 µs of the frame's end (R225). -/
def yarnSackTimeoutEffect (d : Dev) : Dev :=
  match d.yarn.air with
  | some x => if d.yarn.airEnd + 200 * ticksPerUs ≤ d.now then d.yarnFailed x none else d
  | none => d

/-- YARN_SACK_TIMEOUT (R225). -/
def execYarnSackTimeout (t : Nat) (s : State) := onDev t yarnSackTimeoutEffect s

/-- Effect of YARN_RETRANSMIT: held frames contend again once QUIET has passed without erasure since the burst end their
SACK gave, or since the last erasure `own` of the device's own detector where it has seen one (R225; log entry 325). -/
def yarnRetransmitEffect (own : Option Nat) (d : Dev) : Dev :=
  let quiet := own.any fun e => e + d.rd 0 PLC_MAC.QUIET * 100 * ticksPerUs ≤ d.now
  let past (x : YTx) : Bool := match x.hold with | some t => quiet || t ≤ d.now | none => false
  { d with yarn := { d.yarn with q := mapIf past (fun x => { x with hold := none, boffAt := d.now }) d.yarn.q } }

/-- YARN_RETRANSMIT (R225). -/
def execYarnRetransmit (q : YarnQuiet) (s : State) := onDev q.t (yarnRetransmitEffect q.own) s

/-! ### Receiving (R220, R224, R231, R232) -/

/-- Whether a burst of so many erased symbols lies within the limit of Table PLC-4. -/
def burstOk (mode nsym burst : Nat) : Bool :=
  match mode with
  | 0 => 25 * burst ≤ nsym
  | 1 => 4608 * burst ≤ 400000 && 8 * burst ≤ 3 * nsym
  | _ => 4608 * burst ≤ 800000 && 2 * burst ≤ nsym

/-- The payload symbols whose guard interval holds at least IMP_DB above the noise floor, from each symbol's excess in
dB: they are erased (R224). -/
def Dev.erased (d : Dev) (fc : YarnFc) (guard : List Nat) : List Nat :=
  (((guard.take fc.nsym).zipIdx).filter fun e => d.rd 0 PLC_IMP.IMP_DB ≤ e.1).map (·.2)

/-- The impulse detector sees an erased symbol that ended at `e`: the first of a burst raises IMPULSE; a burst ends after
QUIET without one (R224). -/
def Dev.erase (d : Dev) (e : Nat) : Dev :=
  let fresh : Bool := match d.yarn.lastErase with
    | some l => l + d.rd 0 PLC_MAC.QUIET * 100 * ticksPerUs ≤ e - ticksOfCus 4608
    | none => true
  let d := { d with yarn := { d.yarn with lastErase := some e } }
  if fresh then (d.inc 0 PLC_IMPULSE.COUNT).raise 0 Ev.PLC.IMPULSE else d

/-- The erased symbols of a frame that ends now, one after the other. -/
def Dev.eraseAll (d : Dev) (fc : YarnFc) (is : List Nat) : Dev :=
  is.foldl (fun d i => d.erase (d.now - ticksOfCus (4608 * (fc.nsym - 1 - i)))) d

/-- The frame decodes despite its erased symbols: they form one burst, with no QUIET between them, within the limit of
Table PLC-4. -/
def Dev.erasuresOk (d : Dev) (fc : YarnFc) (is : List Nat) : Bool :=
  match is with
  | [] => true
  | i :: rest =>
    ((is.zip rest).all fun e => 4608 * (e.2 - e.1 - 1) < d.rd 0 PLC_MAC.QUIET * 10000)
      && burstOk fc.mode fc.nsym (rest.getLastD i - i + 1)

/-- The burst end as the SACK gives it, 100 µs after the frame: a count of 100 µs before the SACK, 0 without a burst. -/
def burstEnd (fc : YarnFc) (is : List Nat) : Nat :=
  match is.getLast? with
  | some i => (10000 + 4608 * (fc.nsym - 1 - i)) / 10000
  | none => 0

/-- A SACK for a unicast frame; `late` the burst end (Table PLC-3). -/
def Dev.sack (d : Dev) (fc : YarnFc) (bits late : Nat) : Dev :=
  if fc.dst = 64 then d.send (.yarnSack d.yarnTxc fc.src fc.seq (bits + 8 * min 127 late)) else d

/-- The receiver's estimate of a peer's channel: a new tone map when its bits per symbol change by more than 10 %, at
most one in a beacon period (R220). -/
def Dev.toneUpdate (d : Dev) (n : Nat) (map : List Nat) : Dev :=
  let est := toneBps map
  let cur := let b := d.rd 0 (PLC_NBR_B.BPS n); if b = 0 then 266 else b
  let x := d.ypeer n
  let bp := d.rd 0 PLC_BPCNT.COUNT
  if !toneOk map || est = 0 || 10 * ((est : Int) - cur).natAbs ≤ cur || x.rxAt = bp + 1 then d
  else
    let g := (x.rxGen + 1) % 16
    let d := (d.modPeer n fun x => { x with rxGen := g, rxAt := bp + 1 }).wr 0 (PLC_NBR_B.BPS n) est
    d.send (.yarnTone d.yarnTxc n g map)

/-- The oldest posted receive that takes a payload of a peer. -/
def Dev.rxPosted (d : Dev) (n : Nat) : Option Op :=
  d.ope.flight.find? fun o => o.kind = OK.RX_YARN && o.phase = .acting && (o.arg 8 1 = n || o.arg 8 1 = 0xFF)

/-- A payload completes a posted receive: into its buffer, or RANGE where it is longer (R231). -/
def Dev.rxDeliver (d : Dev) (o : Op) (bs : List Byte) : Option (Nat × List Byte) × Dev :=
  if o.arg 10 2 < bs.length then (none, d.opFinish o.slot 1) else (some (o.arg 16 4, bs), d.opFinish o.slot 0)

/-- A payload from a peer: to the oldest posted receive, held, or dropped (R231). -/
def Dev.yarnPayload (d : Dev) (n : Nat) (bs : List Byte) : Option (Nat × List Byte) × Dev :=
  match d.rxPosted n with
  | some o => d.rxDeliver o bs
  | none =>
    if 16 ≤ (d.ypeer n).held.length then (none, d.inc 0 PLC_RXDROP.COUNT)
    else
      let k := d.yarn.rxN
      let d := d.modPeer n fun x => { x with held := x.held ++ [(k, bs)] }
      (none, { d with yarn := { d.yarn with rxN := k + 1 } })

/-- The failure estimate of a peer's link after a frame (R228). -/
def Dev.ferUpdate (d : Dev) (n : Nat) (fail : Bool) : Dev :=
  d.wr 0 (PLC_NBR_B.FER n) (ferStep (d.rd 0 (PLC_NBR_B.FER n)) fail)

/-- A tone map a peer has sent for the device: taken where its generation is newer than the one held, by the half of
the 4-bit count ahead of it; a new generation ends the fallback (R220; log entry 326). -/
def Dev.toneTake (d : Dev) (n g : Nat) (map : List Nat) : Dev :=
  let x := d.ypeer n
  let ahead := (g + 16 - x.txGen % 16) % 16
  if toneOk map && map ≠ [] && (x.txMap.isEmpty || (1 ≤ ahead && ahead ≤ 7)) then
    (d.modPeer n fun x => { x with txGen := g % 16, txMap := map, robust := false, fails := 0 }).wr 0 (PLC_NBR_B.TMGEN n) g
  else d

/-- An intact, authentic frame of an admitted station: tone maps, then its payload once (R220, R231). -/
def Dev.yarnTake (d : Dev) (n : Nat) (fc : YarnFc) (late : Nat) (est : List Nat) (map : Option (Nat × List Nat)) (bs : List Byte) :
    Option (Nat × List Byte) × Dev :=
  let d := ((d.hear n).ferUpdate n false).inc 0 PLC_RXFRM.COUNT
  let d := (d.sack fc 1 late).toneUpdate n est
  let d := match map with
    | some (g, m) => d.toneTake n g m
    | none => d
  let o := fc.osrc
  if 64 ≤ o || fc.odst ≠ 64 || d.rd 0 PLC_CFG.MAXHOP < fc.hop || (d.ypeer o).lastSeq = fc.seq + 1 || bs.isEmpty then (none, d)
  else
    let d := d.modPeer o fun x => { x with lastSeq := fc.seq + 1 }
    if fc.cls = 0 then (none, d.sfcRoute (d.sfcYarn o) bs) else d.yarnPayload o bs

/-- A frame at the Yarn-line port that ends now: `dec` that it decodes but for its erased symbols, `auth` that it
authenticates; `guard` the excess over the noise floor in each symbol's guard interval; `est` the tone map the receiver
would choose; `map` a tone map it carries; `bs` its payload, `crc` the CRC after it (R219, R220, R224, R232). -/
def Dev.yarnFrame (d : Dev) (ident : Nat) (fc : YarnFc) (dec auth : Bool) (guard est : List Nat)
    (map : Option (Nat × List Nat)) (bs : List Byte) (crc : Word) : Option (Nat × List Byte) × Dev :=
  if !d.yarnOn || d.plySilent then (none, d)
  else
    let is := d.erased fc guard
    let d := (d.yarnHeard fc).eraseAll fc is
    if fc.dst ≠ 64 && fc.dst ≠ 127 then (none, d)
    else
      let late := burstEnd fc is
      let fail (bits : Nat) (d : Dev) : Dev :=
        match d.peerOf ident with
        | some n => (d.ferUpdate n true).sack fc bits late
        | none => d.sack fc bits late
      if !d.erasuresOk fc is then (none, fail 2 d)
      else if !(dec && (bs.isEmpty || crcOk (bs ++ leBytes 4 crc.toNat))) then (none, fail 0 d)
      else if !auth then (none, fail 4 ((d.inc 0 PLC_AUTHERR.COUNT).raise 0 Ev.PLC.AUTH_FAIL))
      else
        match d.peerOf ident with
        | none => (none, d.raise 0 Ev.PLC.PEER_REFUSED)
        | some n => d.yarnTake n fc late est map bs

/-- YARN_FRAME_RX (R232). -/
def execYarnFrameRx (t : Nat) (ident : Nat) (fc : YarnFc) (dec auth : Bool) (guard est : List Nat)
    (map : Option (Nat × List Nat)) (data : List Byte) (crc : Word) (s : State) : Host.Outcome State Fault Refusal :=
  .next (s.rxStore ((Dev.at t s.dev).yarnFrame ident fc dec auth guard est map data crc))

/-! ### Operations (R231) -/

/-- TX_YARN (R231): the payload joins the queue of its class. -/
def execTxYarn (t : Nat) (slot : Fin 384) (s : State) : Host.Outcome State Fault Refusal :=
  onDev t (fun d => d.act slot OK.TX_YARN fun o d =>
    let n := o.arg 8 1
    let bs := s.mem.sram.getBytes (o.arg 16 4) (o.arg 10 2)
    if !d.domOn .plc then d.opFinish slot 8
    else if o.replayed && o.arg 20 4 ≠ crc32c bs then d.opFinish slot 7
    else if !d.yarnOn || !d.peerUp n then d.opFinish slot 6
    else
      (d.setOp slot fun o => { o with phase := .acting, time := d.now }).yarnPush
        { peer := n, cls := o.arg 9 1, data := bs, owner := some slot }) s

/-- The oldest payload held for a receive: its peer and bytes. -/
def Dev.heldFor (d : Dev) (peer : Nat) : Option (Nat × List Byte) :=
  let ns := if peer = 0xFF then List.range 64 else [peer]
  let all := ns.filterMap fun n => ((d.ypeer n).held.head?).map fun e => (e.1, n, e.2)
  match all with
  | [] => none
  | x :: xs => some (xs.foldl (fun a b => if b.1 < a.1 then b else a) x).2

/-- Effect of RX_YARN: a held payload completes it, else it is posted. -/
def Dev.rxYarn (d : Dev) (slot : Nat) (o : Op) : Option (Nat × List Byte) × Dev :=
  if !d.domOn .plc then (none, d.opFinish slot 8)
  else
    match d.heldFor (o.arg 8 1) with
    | some (n, bs) => (d.modPeer n fun x => { x with held := x.held.drop 1 }).rxDeliver o bs
    | none => (none, d.setOp slot fun o => { o with phase := .acting, time := d.now })

/-- RX_YARN (R231). -/
def execRxYarn (t : Nat) (slot : Fin 384) (s : State) : Host.Outcome State Fault Refusal :=
  let d := Dev.at t s.dev
  match d.opAt slot with
  | some o =>
    .next (if o.kind = OK.RX_YARN && o.phase = .issued then s.rxStore (d.rxYarn slot o) else { s with dev := d })
  | none => .next { s with dev := d }

/-! ### Commits and the domain (R232, R234, Table PLC-8) -/

/-- An SFC connection over Yarn line is open. -/
def Dev.sfcYarnOpen (d : Dev) : Bool :=
  (List.range 64).any fun m => d.on 0 (SFC_CON_A.EN m) && d.rd 0 (SFC_CON_A.TRANS m) = 1

/-- An SFC connection or an operation uses a peer. -/
def Dev.peerBusy (d : Dev) (n : Nat) : Bool :=
  !(d.sfcYarn n).isEmpty || (d.ope.flight.any fun o =>
    (o.kind = OK.TX_YARN || o.kind = OK.RX_YARN) && o.phase ≠ .finished && o.arg 8 1 = n)

/-- Entry n as PLC_PEERn gives it. -/
def Dev.peerWords (d : Dev) (n : Nat) : Nat × Nat × Bool :=
  (d.rd 0 (PLC_PEER_LO.ID n), d.rd 0 (PLC_PEER_HI.ID n), d.on 0 (PLC_PEER_HI.EN n))

/-- The checks of a PLC commit: `d'` holds the values that would become active. -/
def plcReasons (d d' : Dev) : List Nat :=
  let ns := List.range 64
  let ids := (ns.filter fun n => d'.on 0 (PLC_PEER_HI.EN n)).map fun n => d'.peerWords n
  let yn := d'.on 0 PLC_CFG.YEN
  let key := d'.kslot (d'.rd 0 PLC_CFG.NKSLOT)
  let chg (f : Field) : Bool := d.rd 0 f ≠ d'.rd 0 f
  failIf ((chg PLC_CFG.YEN || chg PLC_CFG.NKSLOT || chg PLC_CFG.MAXHOP) && d.sfcYarnOpen) RC.ENERGISED ++
  failIf ((List.range 8).any fun k => d'.on 0 (PLC_NOTCH.EN k) && d'.rd 0 (PLC_NOTCH.HI k) < d'.rd 0 (PLC_NOTCH.LO k)) 0x81 ++
  failIf (d'.rd 0 PLC_CW.CW1 < d'.rd 0 PLC_CW.CW0 || d'.rd 0 PLC_CW.CW2 < d'.rd 0 PLC_CW.CW1
    || d'.rd 0 PLC_CW.CW3 < d'.rd 0 PLC_CW.CW2) 0x82 ++
  failIf (decide ¬ids.Nodup) 0x83 ++
  failIf (ns.any fun n => d.on 0 (PLC_PEER_HI.EN n) && d.peerWords n ≠ d'.peerWords n && d.peerBusy n) 0x84 ++
  failIf (yn && !(!d.debug && key.state = 1 && key.attr.testBit KA.ENC && key.attr.testBit KA.DEC)) 0x85

/-- The Yarn line stops: queues are emptied, beacons stop. -/
def Dev.yarnStop (d : Dev) (status : Nat) : Dev :=
  let xs := d.yarn.q ++ d.yarn.air.toList
  let d := { d with yarn := { d.yarn with q := [], air := none, bpAt := none, edges := 0 } }
  let d := xs.foldl (fun d x => d.yarnOwner x status) d
  (d.wr 0 PLC_STAT.UP 0).wr 0 PLC_STAT.COORD 0

/-- An entry newly admitted waits, one no longer admitted is unused. -/
def Dev.peerStart (d : Dev) (n : Nat) : Dev :=
  let d := (d.setWord .plc 0 (0x500 + 8 * n) 0).setWord .plc 0 (0x504 + 8 * n) 0
  let d := d.modPeer n fun _ => {}
  (d.wr 0 (PLC_NBR_A.PHASE n) 3).wr 0 (PLC_NBR_A.STATE n) (if d.on 0 (PLC_PEER_HI.EN n) then 1 else 0)

/-- The links of the Green PHY couplings that `d'` serves no longer go down (R214, R234). -/
def gpDrop (d d' : Dev) : Dev :=
  (List.range 4).foldl (fun x g =>
    match d.gpPoint g with
    | some p => if d'.gpPoint g = none then x.gpDown p else x
    | none => x) d'

/-- What an accepted PLC commit brings. -/
def plcCommitted (d d' : Dev) : Dev :=
  let d' := gpDrop d d'
  let d' := (List.range 64).foldl (fun x n => if d.peerWords n = d'.peerWords n then x else x.peerStart n) d'
  let was := d.on 0 PLC_CFG.YEN
  let is := d'.on 0 PLC_CFG.YEN
  if is && !was then { d' with yarn := { d'.yarn with enAt := d'.now, bpAt := none, edges := 0 } }
  else if was && !is then d'.yarnStop 6
  else d'

end Sys2Proof.Machine
end

