-- ==== Sys2Proof/Machine/Clock.lean ====
section
/-!
DEFINITION. Clocks and PLLs (R378 to R389): the reference, band search and lock, loss of either with the stop of the
outputs, and the clock outputs.
-/

namespace Sys2Proof.Machine

/-! ### PLLs -/

/-- The number of a PLL. -/
def pllIx : PllId → Nat
  | .f => 0
  | .t => 1
  | .m => 2

/-- A PLL. -/
def Dev.pll (d : Dev) (k : Nat) : Pll := d.clk.plls.get (fun _ => {}) k

/-- Change a PLL; the CLK page shows PLL-F and PLL-T. -/
def Dev.modPll (d : Dev) (k : Nat) (f : Pll → Pll) : Dev :=
  let x := f (d.pll k)
  let d := { d with clk := { d.clk with plls := d.clk.plls.set (fun _ => {}) k x } }
  if k = 0 then (d.wr 0 CLK_STAT.F_STATE x.state).wr 0 CLK_BAND.F_BAND x.band
  else if k = 1 then (d.wr 0 CLK_STAT.T_STATE x.state).wr 0 CLK_BAND.T_BAND x.band
  else d

/-- Whether a PLL is locked (R382). -/
def Dev.pllLocked (d : Dev) (k : Nat) : Bool := (d.pll k).state = 3

/-- The fallback oscillator is in use while PLL-F or PLL-T is not locked (R385). -/
def Dev.showFb (d : Dev) : Dev := d.wrB 0 CLK_STAT.FB !(d.pllLocked 0 && d.pllLocked 1)

/-- A lock attempt begins with the band search, once the reference is valid (R381, R383). -/
def Dev.pllStart (d : Dev) (k : Nat) : Dev :=
  (d.modPll k fun x => { x with state := if d.on 0 CLK_STAT.REFOK then 1 else 4, fails := 0 }).showFb

/-! ### Clock outputs (R387, R389) -/

/-- Whether the source of an output runs: 0 REFCLK, 1 PLL-F, 2 PLL-T. -/
def Dev.ckoSource (d : Dev) (n : Nat) : Bool :=
  match d.rd 0 (CLK_CKO.SRC n) with
  | 0 => d.on 0 CLK_STAT.REFOK
  | 1 => d.pllLocked 0
  | _ => d.pllLocked 1

/-- When the source of an output last came back. -/
def Dev.ckoLockAt (d : Dev) (n : Nat) : Nat :=
  match d.rd 0 (CLK_CKO.SRC n) with
  | 0 => d.clk.refAt
  | 1 => (d.pll 0).lockAt
  | _ => (d.pll 1).lockAt

/-- Outputs whose source has gone are driven low (R387). -/
def Dev.ckoGate (d : Dev) : Dev :=
  (List.range 8).foldl (fun d n =>
    if d.ckoSource n || d.rd 0 (CLK_CKO.FMT n) = 0 then d
    else (d.wrBit 0 CLK_CKOSTAT.GATED n true).wrBit 0 CLK_CKOSTAT.RUN n false) d

/-- Effect of CLOCK_OUTPUT_RESTART: 100 µs after its source's lock. -/
def clockOutputRestartEffect (n : Fin 8) (d : Dev) : Dev :=
  if d.bit 0 CLK_CKOSTAT.GATED n && d.ckoSource n && d.ckoLockAt n + 100 * ticksPerUs ≤ d.now then
    (d.wrBit 0 CLK_CKOSTAT.GATED n false).wrBit 0 CLK_CKOSTAT.RUN n true
  else d

/-- CLOCK_OUTPUT_RESTART (R387). -/
def execClockOutputRestart (t : Nat) (n : Fin 8) (s : State) := onDev t (clockOutputRestartEffect n) s

/-! ### Loss (R378, R383, R386) -/

/-- The clock-loss stop: sessions of energised and starting points end with cause DEVICE; the ramp-down reaches 0 within
2 ms of the loss (R386). -/
def Dev.clockStop (d : Dev) (cause : Nat) : Dev :=
  let d := (List.range 64).foldl (fun d m =>
    if d.sesState m = 3 || (d.sesState m = 4 && d.energised (d.rd 0 (SES_STAT.POINT m))) then d.sesEnd m 8 else d) d
  let d := (List.range 32).foldl (fun d p =>
    if 5 ≤ d.ptState p && d.ptState p ≤ 7 then d.modPoint p fun x =>
      { x with lossAt := some (x.lossAt.getD d.now), reverse := false }
    else d) d
  (d.wr 0 CLK_LASTLOSS.CAUSE cause).raise 0 Ev.CLK.CLK_STOP

/-- A loss of reference or lock is counted and timed. -/
def Dev.clockLoss (d : Dev) : Dev :=
  let d := (d.inc 0 CLK_LOSSCNT.COUNT).wr64 0 CLK_LOSSTIME_LO.TICKS CLK_LOSSTIME_HI.TICKS d.now
  { d with clk := { d.clk with lossAt := some (d.clk.lossAt.getD d.now) } }

/-- The event of a PLL's unlock; PLL-M raises CLK_INVALID in the MTR page (R240). -/
def unlockEv (k : Nat) : Ev := if k = 0 then Ev.CLK.UNLOCK_F else if k = 1 then Ev.CLK.UNLOCK_T else Ev.MTR.CLK_INVALID

/-- The event of a PLL's lock. -/
def lockEv (k : Nat) : Ev := if k = 0 then Ev.CLK.LOCK_F else if k = 1 then Ev.CLK.LOCK_T else Ev.MTR.CLK_OK

/-- Effect of REFCLK_LOST (R378, R383, R386). -/
def refclkLostEffect (d : Dev) : Dev :=
  if !d.on 0 CLK_STAT.REFOK then d
  else
    let ran := d.pllLocked 0 || d.pllLocked 1
    let d := ((d.wr 0 CLK_STAT.REFOK 0).raise 0 Ev.CLK.REF_LOST).clockLoss
    let d := (List.range 3).foldl (fun d k =>
      let d := if d.pllLocked k then d.raise 0 (unlockEv k) else d
      let d := if k = 2 then d.wr 0 MTR_STAT.CLKOK 0 else d
      d.modPll k fun x => { x with state := if x.state = 5 then 5 else 4 }) d
    let d := d.showFb.ckoGate
    if ran then d.clockStop 1 else d

/-- REFCLK_LOST (R378). -/
def execRefclkLost (t : Nat) (s : State) := onDev t refclkLostEffect s

/-- Effect of REFCLK_VALID: every PLL begins a band search (R378, R381). -/
def refclkValidEffect (d : Dev) : Dev :=
  if d.on 0 CLK_STAT.REFOK then d
  else
    let d := (d.wr 0 CLK_STAT.REFOK 1).raise 0 Ev.CLK.REF_OK
    let d := { d with clk := { d.clk with refAt := d.now } }
    (List.range 3).foldl Dev.pllStart d

/-- REFCLK_VALID (R378). -/
def execRefclkValid (t : Nat) (s : State) := onDev t refclkValidEffect s

/-- Effect of BAND_SEARCH_COMPLETE: `band` below 64 is the band found; a search that found none repeats up to 3 times
(R381). -/
def bandSearchCompleteEffect (k : PllId) (band : Nat) (d : Dev) : Dev :=
  let i := pllIx k
  if (d.pll i).state ≠ 1 then d
  else if band < 64 then d.modPll i fun x => { x with state := 2, band := band, fails := 0 }
  else
    let d := d.modPll i fun x => { x with fails := x.fails + 1, state := if 3 < x.fails + 1 then 5 else 1 }
    if i < 2 then d.raise 0 Ev.CLK.BAND_FAIL else d

/-- BAND_SEARCH_COMPLETE (R381). -/
def execBandSearchComplete (t : Nat) (k : PllId) (band : Nat) (s : State) := onDev t (bandSearchCompleteEffect k band) s

/-- Effect of PLL_LOCK (R382): with both PLLs locked the fallback oscillator rests and the loss is over. -/
def pllLockEffect (k : PllId) (d : Dev) : Dev :=
  let i := pllIx k
  if (d.pll i).state ≠ 2 then d
  else
    let d := ((d.modPll i fun x => { x with state := 3, lockAt := d.now }).showFb).raise 0 (lockEv i)
    if i = 2 then d.wr 0 MTR_STAT.CLKOK 1
    else
      match d.clk.lossAt with
      | some t =>
        if d.pllLocked 0 && d.pllLocked 1 then
          let d := d.wrU 0 CLK_LASTLOSS.MS (d.msSince t)
          { d with clk := { d.clk with lossAt := none } }
        else d
      | none => d

/-- PLL_LOCK (R382). -/
def execPllLock (t : Nat) (k : PllId) (s : State) := onDev t (pllLockEffect k) s

/-- Effect of PLL_UNLOCK (R383): a new lock attempt begins; of PLL-F and PLL-T the outputs stop too (R386); a loss of
PLL-M affects metrology alone. -/
def pllUnlockEffect (k : PllId) (d : Dev) : Dev :=
  let i := pllIx k
  if !d.pllLocked i then d
  else
    let d := (d.pllStart i).raise 0 (unlockEv i)
    if i = 2 then d.wr 0 MTR_STAT.CLKOK 0 else (d.clockLoss.ckoGate).clockStop (i + 2)

/-- PLL_UNLOCK (R383). -/
def execPllUnlock (t : Nat) (k : PllId) (s : State) := onDev t (pllUnlockEffect k) s

/-! ### Commits (R380, R389) -/

/-- Frequency of an output in kHz times its divider, and the limit of its format in kHz (R389). -/
def ckoSrcKHz (src : Nat) : Nat := if src = 0 then 25000 else if src = 1 then 800000 else 2560000
def ckoMaxKHz (fmt : Nat) : Nat :=
  if fmt = 1 then 800000 else if fmt = 2 then 250000 else if fmt = 3 then 1280000 else if fmt = 4 then 200000 else 125000

/-- The checks of a CLK commit: `d'` holds the values that would become active. -/
def clkReasons (d d' : Dev) : List Nat :=
  let path := d.word .clk 0 0x40 ≠ d'.word .clk 0 0x40
  failIf (path && d.anyEnergised) RC.ENERGISED ++
  failIf ((List.range 8).any fun n => d'.rd 0 (CLK_CKO.FMT n) ≠ 0
    && ckoMaxKHz (d'.rd 0 (CLK_CKO.FMT n)) * d'.rd 0 (CLK_CKO.DIV n) < ckoSrcKHz (d'.rd 0 (CLK_CKO.SRC n))) 0x81

/-- What an accepted CLK commit brings: a PLL whose path changed relocks, an output that changed starts again. -/
def clkCommitted (d d' : Dev) : Dev :=
  let d' := if d.rd 0 CLK_REFCFG.FREF ≠ d'.rd 0 CLK_REFCFG.FREF then d'.pllStart 0 else d'
  let d' := if d.rd 0 CLK_REFCFG.TREF ≠ d'.rd 0 CLK_REFCFG.TREF then d'.pllStart 1 else d'
  let d' := (List.range 8).foldl (fun x n =>
    if d.word .clk 0 (0x80 + 4 * n) = x.word .clk 0 (0x80 + 4 * n) then x
    else
      let on := x.rd 0 (CLK_CKO.FMT n) ≠ 0
      (x.wrBit 0 CLK_CKOSTAT.RUN n (on && x.ckoSource n)).wrBit 0 CLK_CKOSTAT.GATED n (on && !x.ckoSource n)) d'
  d'.ckoGate

end Sys2Proof.Machine
end

