-- ==== Sys2Proof/Machine/Metrology.lean ====
section
/-!
DEFINITION. Metrology (R235 to R252): calibration and validity of samples, DC bookings, AC steps, the values of a second
and the MTR page.
-/

namespace Sys2Proof.Machine

/-! ### Channels (R239, R240) -/

/-- A channel's record. -/
def Dev.mtrCh (d : Dev) (c : Nat) : MtrCh := d.lgl.chs.get (fun _ => {}) c

/-- Change a channel's record. -/
def Dev.modCh (d : Dev) (c : Nat) (f : MtrCh → MtrCh) : Dev :=
  d.modLgl fun l => { l with chs := l.chs.set (fun _ => {}) c (f (l.chs.get (fun _ => {}) c)) }

/-- A metering point's record. -/
def Dev.mtrPt (d : Dev) (mp : Nat) : MtrPt := d.lgl.pts.get (fun _ => {}) mp

/-- Change a metering point's record. -/
def Dev.modMp (d : Dev) (mp : Nat) (f : MtrPt → MtrPt) : Dev :=
  d.modLgl fun l => { l with pts := l.pts.set (fun _ => {}) mp (f (l.pts.get (fun _ => {}) mp)) }

/-- Set a flag of a metering point's entry in the next interval record: 1 OVR, 2 MODREV (Table LGL-6). -/
def Dev.entFlag (d : Dev) (mp f : Nat) : Dev :=
  d.modTot fun t => { t with entFlags := t.entFlags.set (fun _ => 0) mp (Nat.lor (t.entFlags.get (fun _ => 0) mp) f) }

/-- The sample period in ticks: 12.5 µs at OSR 256, 25 µs at OSR 512 (R238). -/
def Dev.mtrPeriod (d : Dev) : Nat := if d.par MP.OSR = 0 then 32000 else 64000

/-- The calibrated value of a sample (R239): `a` is the raw sample at the whole part of DELAY, `b` the one before it. -/
def calibrate (gain ofs fs delay a b : Int) : Int :=
  let f := delay % 1024
  rdiv (gain * (a * 1024 - (a - b) * f - ofs * 1024) * fs) (2 ^ 71)

/-- A channel's calibrated value from its pair of raw samples. -/
def Dev.calib (d : Dev) (c : Nat) (x : Int × Int) : Int :=
  calibrate (d.par MP.GAIN c) (d.par MP.OFS c) (d.par MP.FS c) (d.par MP.DELAY c) x.1 x.2

/-- An OVR sample: 0.95 of full scale or beyond (R240). -/
def isOvr (x : Int) : Bool := 95 * 2 ^ 31 ≤ 100 * x.natAbs

/-- Effect of MOD_CHANNEL_LOST: a channel in use meets the condition; entering LOST records MODLOSS (R240). -/
def modChannelLostEffect (c : Fin 96) (d : Dev) : Dev :=
  if !d.lglUp || d.par MP.ROLE c = 0 || !d.pllLocked 2 then d
  else
    let was := (d.mtrCh c).lost
    let d := d.modCh c fun x => { x with lost := true, lostAt := d.now }
    if was then d else (d.tamper 3 c).raise 0 Ev.MTR.CH_LOST

/-- MOD_CHANNEL_LOST (R240). -/
def execModChannelLost (t : Nat) (c : Fin 96) (s : State) := onDev t (modChannelLostEffect c) s

/-- Effect of MOD_CHANNEL_RECOVER: 100 ms since the condition was last met (R240). -/
def modChannelRecoverEffect (c : Fin 96) (d : Dev) : Dev :=
  let x := d.mtrCh c
  if d.lglUp && x.lost && x.lostAt + 100 * ticksPerMs ≤ d.now then
    (d.modCh c fun x => { x with lost := false }).raise 0 Ev.MTR.CH_OK
  else d

/-- MOD_CHANNEL_RECOVER (R240). -/
def execModChannelRecover (t : Nat) (c : Fin 96) (s : State) := onDev t (modChannelRecoverEffect c) s

/-! ### Bookings (R242, R245, R246) -/

/-- Σp in µW over samples of a period, as a booking in 2^-32 µWh (R246). -/
def bookingOf (p : Int) (period : Nat) : Int := rdiv (p * 2 ^ 32 * period) (ticksPerS * 3600)

/-- Book a DC sample by its direction (R242). -/
def Dev.bookDc (d : Dev) (mp : Nat) (p : Int) : Dev :=
  let b := bookingOf p d.mtrPeriod
  if 0 < p then d.bookAbs mp 0 2 b b else if p < 0 then d.bookAbs mp 1 2 (-b) b else d

/-- Book an AC step by its quadrant (Table MTR-2). -/
def Dev.bookAc (d : Dev) (mp : Nat) (ep eq : Int) : Dev :=
  let bp := bookingOf ep d.mtrPeriod
  let bq := bookingOf eq d.mtrPeriod
  let d := if 0 ≤ ep then d.bookAbs mp 0 2 bp bp else d.bookAbs mp 1 2 (-bp) bp
  if eq = 0 then d
  else
    let k := if 0 < eq then (if 0 ≤ ep then 3 else 4) else (if ep < 0 then 5 else 6)
    d.bookAbs mp k 7 bq.natAbs bq

/-- Pointwise sums of lists, a missing element counting 0. -/
def addLists (xs ys : List Int) : List Int :=
  (List.range (max xs.length ys.length)).map fun i => xs.getD i 0 + ys.getD i 0

/-- Close the open AC step of an incomer (R245). -/
def Dev.stepEnd (d : Dev) (mp : Nat) : Dev :=
  let x := d.mtrPt mp
  if x.stN = 0 then d
  else
    let d := d.modMp mp fun x => { x with stN := 0, stOk := true, stP := 0, stQ := 0, stI2 := [] }
    if !x.stOk then d.addInvalid mp (x.stN * d.mtrPeriod)
    else
      let lim := d.par MP.ISTART mp * d.par MP.ISTART mp * x.stN
      if (List.range 3).all fun f => x.stI2.getD f 0 < lim then d else d.bookAc mp x.stP x.stQ

/-! ### Zero crossings (R244) -/

/-- One sample of a phase voltage: the crossing is placed where the voltage passes 0, and counts once the voltage has
been below −2 % and is above +2 % of the last second's Vrms. -/
def zxStep (z : Zx) (ix : Nat) (v : Int) : Zx × Bool :=
  let cand := if z.prev < 0 && 0 ≤ v then (ix - 1) * 1024 + (1024 * (-z.prev) / (v - z.prev)).toNat else z.cand
  let z := { z with cand := cand, prev := v, below := z.below || v * 50 < -z.vrms }
  if z.below && z.vrms < v * 50 then
    ({ z with below := false, n := z.n + 1, last := z.cand, first := if z.n = 0 then z.cand else z.first }, true)
  else (z, false)

/-- The phase voltages of one sample, and whether the reference phase counted a crossing. -/
def MtrPt.cross (x : MtrPt) (ref : Nat) (vs : List Int) : MtrPt × Bool :=
  let r := (List.range 3).map fun f => zxStep (x.zx.getD f {}) x.ix (vs.getD f 0)
  ({ x with zx := r.map (·.1) }, (r.getD ref ({}, false)).2)

/-- The reference phase of an incomer, from 0. -/
def Dev.refPhase (d : Dev) (mp : Nat) : Nat := (d.par MP.REFPH (mp - 32)).toNat - 1

/-! ### Samples -/

/-- The validity of a sample (R240): no channel LOST; PLL-M locked and three samples past its lock. -/
def Dev.sampleClock (d : Dev) (mp : Nat) : Bool × Dev :=
  let x := d.mtrPt mp
  if !d.pllLocked 2 then (false, d.modMp mp fun x => { x with skip := 3 })
  else
    let at0 := (d.pll 2).lockAt
    let skip := if x.lockSeen = at0 then x.skip else 3
    (skip = 0, d.modMp mp fun x => { x with lockSeen := at0, skip := skip - 1 })

/-- OVR samples of a point's channels (R240). -/
def Dev.noteOvr (d : Dev) (mp : Nat) (chans : List Nat) (xs : List (Int × Int)) : Dev :=
  (chans.zip xs).foldl (fun d cx =>
    if isOvr cx.2.1 && !(d.mtrCh cx.1).lost then
      (((d.modCh cx.1 fun x => { x with ovr := true }).modMp mp fun x => { x with ovr := true }).entFlag mp 1).raise 0
        Ev.MTR.CH_OVR
    else d) d

/-- A valid or invalid DC sample (R242, R243). -/
def Dev.dcSample (d : Dev) (mp : Nat) (ok : Bool) (v i : Int) : Dev :=
  if !ok then (d.modMp mp fun x => { x with inv := x.inv + 1 }).addInvalid mp d.mtrPeriod
  else
    let p := if i.natAbs < d.par MP.ISTART mp then 0 else v * i
    (d.modMp mp fun x => { x with n := x.n + 1, sv := x.sv + v, si := x.si + i, sp := x.sp + p }).bookDc mp p

/-- The sums of an AC sample. -/
def MtrPt.addAc (x : MtrPt) (vs is qs : List Int) : MtrPt :=
  let mul (a b : List Int) : List Int := (List.range 3).map fun f => a.getD f 0 * b.getD f 0
  { x with n := x.n + 1, v2 := addLists x.v2 (mul vs vs), i2 := addLists x.i2 (mul is is),
           vi := addLists x.vi (mul vs is), qi := addLists x.qi (mul qs is),
           stP := x.stP + (mul vs is).sum, stQ := x.stQ + (mul qs is).sum, stI2 := addLists x.stI2 (mul is is) }

/-- An AC sample (R244, R245): a counted crossing ends the step before it; without a valid frequency the step ends at its
fixed length. -/
def Dev.acSample (d : Dev) (mp : Nat) (ok : Bool) (ys v90 : List Int) : Dev :=
  let (x, hit) := (d.mtrPt mp).cross (d.refPhase mp) (if ok then ys.take 3 else [])
  let d := if ok then d.modMp mp fun _ => x else d
  let d := if ok && hit && x.fOk then d.stepEnd mp else d
  let d := d.modMp mp fun x =>
    let x := { x with ix := x.ix + 1, stN := x.stN + 1, stOk := x.stOk && ok }
    if ok then x.addAc (ys.take 3) ((ys.drop 3).take 3) v90 else { x with inv := x.inv + 1 }
  let y := d.mtrPt mp
  if !y.fOk && (if d.par MP.OSR = 0 then 1600 else 800) ≤ y.stN then d.stepEnd mp else d

/-- Effect of METROLOGY_SAMPLE: one sample of a metering point. `xs` holds, for each of its channels in the order of
`mpChans`, the raw sample at the whole part of its DELAY and the one before; `v90` the phase voltages of an incomer as
its filter shifts them. -/
def metrologySampleEffect (mp : Fin 36) (xs : List (Int × Int)) (v90 : List Int) (d : Dev) : Dev :=
  if !d.lglUp || !d.mpUsed mp then d
  else if !d.lgl.book then (if d.lgl.halted then d.addInvalid mp d.mtrPeriod else d)
  else
    let chans := d.mpChans mp
    let (clk, d) := d.sampleClock mp
    let ok := clk && chans.all fun c => !(d.mtrCh c).lost
    let d := if clk then d.noteOvr mp chans xs else d
    let ys := (chans.zip xs).map fun cx => d.calib cx.1 cx.2
    if mp.val < 32 then d.dcSample mp ok (ys.getD 0 0) (ys.getD 1 0) else d.acSample mp ok ys v90

/-- METROLOGY_SAMPLE (R242). -/
def execMetrologySample (t : Nat) (mp : Fin 36) (xs : List (Int × Int)) (v90 : List Int) (s : State) :=
  onDev t (metrologySampleEffect mp xs v90) s

/-! ### The values of a second (R243, R244) -/

/-- The binary64 square root of a value. -/
def B64.sqrt : B64 → B64
  | .fin q =>
    if q.num < 0 then .nan
    else
      let s := q.num.natAbs * 2 ^ 160 / q.den
      let m := Nat.sqrt s
      let exact := m * m * q.den = q.num.natAbs * 2 ^ 160
      .ofRat (mkRat (2 * m + if exact then 0 else 1) (2 ^ 81))
  | .inf false => .inf false
  | _ => .nan

/-- A mean in binary64, 0 over nothing. -/
def meanB (s : Int) (n : Nat) : B64 := if n = 0 then .fin 0 else (B64.ofInt s).div (B64.ofInt n)

/-- A value in µW as W, in binary64. -/
def microB (x : B64) : B64 := x.div (B64.ofInt 1000000)

/-- Whether a second's values are valid: at least half its samples (R243). -/
def MtrPt.secOk (x : MtrPt) : Bool := x.n ≠ 0 && x.inv ≤ x.n

/-- The values of a DC point. -/
def Dev.showDc (d : Dev) (n : Nat) : Dev :=
  let x := d.mtrPt n
  let ok := x.secOk
  let val (b : B64) : Int := if ok then b.toInt 1 else 0
  let d := (d.wrI 0 (MTR_DC_V.MV n) (val (meanB x.sv x.n))).wrI 0 (MTR_DC_I.MA n) (val (meanB x.si x.n))
  let d := (d.wrI 0 (MTR_DC_P.W n) (val (microB (meanB x.sp x.n)))).wrB 0 (MTR_DC_FLG.VALID n) ok
  (d.wrB 0 (MTR_DC_FLG.OVR n) x.ovr).wrU 0 (MTR_DC_FLG.INVCNT n) x.inv

/-- The frequency of an incomer's reference phase, 0.001 Hz; 0 without two crossings. -/
def Dev.acFreq (d : Dev) (z : Zx) : Int :=
  if z.n < 2 || z.last ≤ z.first then 0
  else
    let rate : Int := if d.par MP.OSR = 0 then 80000 else 40000
    ((B64.ofInt ((z.n - 1 : Nat) * 1024 * rate * 1000)).div (B64.ofInt (z.last - z.first : Nat))).toInt 1

/-- The values of an incomer. -/
def Dev.showAc (d : Dev) (j : Nat) : Dev :=
  let mp := 32 + j
  let x := d.mtrPt mp
  let vr (f : Nat) : B64 := (meanB (x.v2.getD f 0) x.n).sqrt
  let ir (f : Nat) : B64 := (meanB (x.i2.getD f 0) x.n).sqrt
  let pf (f : Nat) : B64 := microB (meanB (x.vi.getD f 0) x.n)
  let qf (f : Nat) : B64 := microB (meanB (x.qi.getD f 0) x.n)
  let d := (List.range 3).foldl (fun d f =>
    let d := (d.wrU 0 (MTR_AC_VRMS.MV j (f + 1)) ((vr f).toInt 1)).wrU 0 (MTR_AC_IRMS.MA j (f + 1)) ((ir f).toInt 1)
    (d.wrI 0 (MTR_AC_PPH.W j (f + 1)) ((pf f).toInt 1)).wrI 0 (MTR_AC_QPH.VAR j (f + 1)) ((qf f).toInt 1)) d
  let p := ((pf 0).add (pf 1)).add (pf 2)
  let q := ((qf 0).add (qf 1)).add (qf 2)
  let s := ((microB ((vr 0).mul (ir 0))).add (microB ((vr 1).mul (ir 1)))).add (microB ((vr 2).mul (ir 2)))
  let full : Int := ((List.range 3).map fun f =>
    match d.chanOf 3 (32 + 3 * j + f), d.chanOf 4 (32 + 3 * j + f) with
    | some a, some b => d.par MP.FS a * d.par MP.FS b
    | _, _ => 0).sum
  let pfac : Int := if s.toRat * 1000000000 < full || s.toRat = 0 then 0 else (p.div s).toInt 10000
  let fr := d.acFreq (x.zx.getD (d.refPhase mp) {})
  let fok := 45000 ≤ fr && fr ≤ 65000
  let d := ((d.wrI 0 (MTR_AC_P.W j) (p.toInt 1)).wrI 0 (MTR_AC_Q.VAR j) (q.toInt 1)).wrU 0 (MTR_AC_S.VA j) (s.toInt 1)
  let d := (d.wrI 0 (MTR_AC_PFF.PF j) pfac).wrU 0 (MTR_AC_PFF.FREQ j) (if fok then fr else 0)
  let d := ((d.wrB 0 (MTR_AC_FLG.VALID j) x.secOk).wrB 0 (MTR_AC_FLG.FVALID j) fok).wrB 0 (MTR_AC_FLG.OVR j) x.ovr
  let d := d.wrU 0 (MTR_AC_FLG.INVCNT j) x.inv
  d.modMp mp fun x => { x with fOk := fok, zx := (List.range 3).map fun f =>
    { x.zx.getD f {} with vrms := (vr f).toInt 1 } }

/-! ### Reversed polarity (R241) -/

/-- An angle, as a part of a period, that lies within neither 120 ± 20° nor 240 ± 20°. -/
def angleBad (a b period : Nat) : Bool :=
  let x : Nat := ((((b : Int) - a) % period).toNat) * 360
  !(100 * period ≤ x && x ≤ 140 * period) && !(220 * period ≤ x && x ≤ 260 * period)

/-- The reversal condition of a point over the second just ended. -/
def Dev.revCond (d : Dev) (mp : Nat) : Bool :=
  let x := d.mtrPt mp
  if mp < 32 then x.secOk && (meanB x.sv x.n).toInt 1 < -(d.par MP.MODREV_V mp)
  else
    let z (f : Nat) : Zx := x.zx.getD f {}
    let r := z (d.refPhase mp)
    let t := if r.n < 2 then 0 else (r.last - r.first) / (r.n - 1)
    t ≠ 0 && (z 0).n ≠ 0 && (z 1).n ≠ 0 && (z 2).n ≠ 0
      && (angleBad (z 0).last (z 1).last t || angleBad (z 1).last (z 2).last t)

/-- Count the seconds with and without the condition. -/
def Dev.noteRev (d : Dev) (mp : Nat) : Dev :=
  let c := d.revCond mp
  d.modMp mp fun x =>
    if c then { x with revN := x.revN + 1, revClear := 0 }
    else { x with revN := 0, revClear := x.revClear + 1, revDone := x.revDone && x.revClear + 1 < 60 }

/-- Effect of MODREV_DETECT: 3 seconds in a row with the condition; again only after 60 s without it (R241). -/
def modrevDetectEffect (mp : Fin 36) (d : Dev) : Dev :=
  let x := d.mtrPt mp
  if d.lglUp && 3 ≤ x.revN && !x.revDone then
    (((d.modMp mp fun x => { x with revDone := true }).entFlag mp 2).tamper 4 mp).raise 0 Ev.MTR.MODREV
  else d

/-- MODREV_DETECT (R241). -/
def execModrevDetect (t : Nat) (mp : Fin 36) (s : State) := onDev t (modrevDetectEffect mp) s

/-! ### The MTR page (R252) -/

/-- A register and its WRAP in three words of the page. -/
def Dev.showE (d : Dev) (lo hi wr : Field) (x : EReg) : Dev :=
  (d.wr64 0 lo hi (x.v / 2 ^ 32)).wrI 0 wr x.wrap

/-- The billing registers of a DC point. -/
def Dev.showDcE (d : Dev) (n : Nat) : Dev :=
  let net := d.bills n 2
  let d := d.showE (MTR_DC_E0_LO.E n) (MTR_DC_E0_HI.E n) (MTR_DC_E0_WRAP.WRAP n) (d.ereg n (if net then 2 else 0) 0)
  d.showE (MTR_DC_E1_LO.E n) (MTR_DC_E1_HI.E n) (MTR_DC_E1_WRAP.WRAP n) (if net then {} else d.ereg n 1 0)

/-- The billing registers of an incomer, in the order q 0 to 5 (Table MTR-4). -/
def Dev.acBilling (d : Dev) (mp : Nat) : List EReg :=
  let r (k : Nat) : EReg := d.ereg mp k 0
  match d.bills mp 2, d.bills mp 7 with
  | false, false => [r 0, r 1, r 3, r 4, r 5, r 6]
  | true, true => [r 2, r 7]
  | false, true => [r 0, r 1, r 7]
  | true, false => [r 2, {}, r 3, r 4, r 5, r 6]

/-- Show them. -/
def Dev.showAcE (d : Dev) (j : Nat) : Dev :=
  let es := d.acBilling (32 + j)
  (List.range 6).foldl (fun d q => d.showE (MTR_AC_E_LO.E j q) (MTR_AC_E_HI.E j q) (MTR_AC_E_WRAP.WRAP j q) (es.getD q {})) d

/-- The state of a channel as MTR_CHST shows it. -/
def Dev.chState (d : Dev) (c : Nat) : Nat :=
  let x := d.mtrCh c
  if d.par MP.ROLE c = 0 || !d.pllLocked 2 then 3 else if x.lost then 1 else if x.ovr then 2 else 0

/-- The settings that the page shows. -/
def Dev.showMtrCfg (d : Dev) : Dev :=
  let d := d.wr 0 MTR_CFG.OSR (d.par MP.OSR).toNat
  let d := (List.range 4).foldl (fun d j =>
    ((d.wrBit 0 MTR_CFG.ACUSE j (d.mpUsed (32 + j))).wrB 0 (MTR_ACMODE.ANET j) (d.bills (32 + j) 2)).wrB 0 (MTR_ACMODE.RNET j)
      (d.bills (32 + j) 7)) d
  (List.range 32).foldl (fun d n => d.wrBit 0 MTR_DCMODE.NET n (d.bills n 2)) d

/-- At a second boundary: steps end, the page takes the second's values, the second's sums start again (R243 to R245,
R252). -/
def Dev.mtrSecond (d : Dev) : Dev :=
  let d := (List.range 4).foldl (fun d j => d.stepEnd (32 + j)) d
  let d := (List.range 36).foldl (fun d mp => if d.mpUsed mp then d.noteRev mp else d) d
  let d := (List.range 32).foldl (fun d n => if d.mpUsed n then d.showDc n else d) d
  let d := (List.range 4).foldl (fun d j => if d.mpUsed (32 + j) then d.showAc j else d) d
  let d := (List.range 96).foldl (fun d c => d.wr 0 (MTR_CHST.ST c) (d.chState c)) d
  let d := (List.range 96).foldl (fun d c => if (d.mtrCh c).ovr then d.modCh c fun x => { x with ovr := false } else d) d
  (List.range 36).foldl (fun d mp =>
    d.modMp mp fun x => { x with n := 0, inv := 0, ovr := false, sv := 0, si := 0, sp := 0, v2 := [], i2 := [], vi := [],
                                 qi := [], zx := x.zx.map fun z => { z with n := 0, first := 0, last := 0 } }) d

/-- The registers of the page, then MTR_SECOND last (R252). -/
def Dev.mtrShow (d : Dev) : Dev :=
  let d := (List.range 32).foldl Dev.showDcE d
  let d := (List.range 4).foldl Dev.showAcE d
  d.showMtrCfg.wr 0 MTR_SECOND.SEC d.lgl.rtc.sec

end Sys2Proof.Machine
end

