-- ==== Sys2Proof/Machine/Legal.lean ====
section
/-!
DEFINITION. Records (R266 to R274): their layout and signature, the ring, interval records, receipts; markers and what
interrupts a receipt.
-/

namespace Sys2Proof.Machine

/-! ### The ring (R271 to R273) -/

/-- Size of the record ring, of the receipt reserve, and the level of NEAR_FULL (R271, R272). -/
abbrev ringSize : Nat := 10485760
abbrev ringReserve : Nat := 163840
abbrev ringNear : Nat := 1048576

/-- Free space of the ring, the reserve included. -/
def Dev.lglFree (d : Dev) : Nat := ringSize - (d.lgl.recs.map fun r => r.bytes.length).sum

/-- LGL_REC_FREE and NEARFULL follow the ring, and the level event NEAR_FULL with NEARFULL (R272, Table DOC-25). -/
def Dev.showFree (d : Dev) : Dev :=
  let near := d.lglFree < ringNear
  ((d.wr 0 LGL_REC_FREE.BYTES d.lglFree).wrB 0 LGL_STAT.NEARFULL near).level 0 Ev.LGL.NEAR_FULL near

/-! ### Records (R266) -/

/-- Bytes of a 32-bit two's complement number. -/
def leInt32 (v : Int) : List Byte := leBytes 4 (ofSigned 32 v)

/-- Write a record whole: header, PREV, body, signature (Table LGL-5). -/
def Dev.putRec (d : Dev) (typ flags start fin tamper tariff nent : Nat) (body : List Byte) : Dev :=
  let seq := d.lgl.seq + 1
  let len := 96 + body.length + 96
  let flags := if d.debug then Nat.lor flags RF.DEBUG else flags
  let head := b1 typ ++ b1 1 ++ leBytes 2 len ++ leBytes 4 flags ++ leBytes 8 seq ++ fixLen 8 d.serial ++ leBytes 8 start
    ++ leBytes 8 fin ++ leBytes 4 (d.rd 0 LGL_PARAMGEN.GEN) ++ leBytes 2 tamper ++ b1 tariff ++ b1 nent
    ++ fixLen 48 d.lgl.prevDigest ++ body
  let bytes := head ++ fixLen 96 (Config.ecdsaSign d.freeCnt d.lgl.lsk (Config.digest 1 head))
  let d := { d with freeCnt := d.freeCnt + 1 }
  let d := d.modLgl fun l =>
    { l with seq := seq, prevDigest := Config.digest 1 bytes,
             recs := l.recs ++ [{ seq := seq, typ := typ, bytes := bytes }] }
  ((d.wr64 0 LGL_REC_LAST_LO.SEQ LGL_REC_LAST_HI.SEQ seq).showFree).raise 0 Ev.LGL.REC_NEW

/-! ### Tariff in force (R286, R289) -/

/-- Calendar time C in seconds (R279). -/
def Dev.calTime (d : Dev) : Nat := max d.lgl.rtc.sec (d.lgl.tot.h / 2 ^ 32)

/-- The fallback of R289 is in force. -/
def Dev.defTariff (d : Dev) : Bool := !d.lgl.rtc.valid && d.par MP.FALLBACK_ON_LOSS = 1

/-- The armed calendar becomes active at this boundary (R288). -/
def Dev.calDue (d : Dev) (c : Nat) : Bool :=
  d.on 0 TRF_STATE.ARMED && d.rd 0 TRF_ARMSEC.SEC ≤ c && d.lgl.rtc.valid

/-- The calendar that governs at a second of calendar time. -/
def Dev.calAt (d : Dev) (c : Nat) : List Byte := if d.calDue c then d.lgl.passive else d.lgl.active

/-- The tariff in force at a second of calendar time. -/
def Dev.tariffAt (d : Dev) (c : Nat) : Nat :=
  let cal := d.calAt c
  if d.defTariff then calU cal 4 1 else (calTariff cal c).tariff

/-! ### Interval records (R267, R273, R283) -/

/-- The registers an interval record shows of a point. -/
def entRegs (mp : Nat) : List Nat := if mp < 32 then [0, 1] else [0, 1, 3, 4, 5, 6]

/-- The entry of a metering point (Table LGL-6). -/
def Dev.entOf (d : Dev) (mp : Nat) : LEnt :=
  let t := d.lgl.tot
  let f := t.entFlags.get (fun _ => 0) mp + (if d.bills mp 2 then 4 else 0) + (if d.bills mp 7 then 8 else 0)
  { mp := mp, flags := f, inv := t.inv.get (fun _ => 0) mp / ticksPerMs,
    vals := (entRegs mp).map fun k => t.acc.get (fun _ => 0) (8 * mp + k) / 2 ^ 32 }

/-- The bytes of an entry. -/
def LEnt.bytes (e : LEnt) : List Byte :=
  b1 (if e.mp < 32 then e.mp else e.mp - 32) ++ b1 e.flags ++ [0#8, 0#8] ++ leBytes 4 e.inv ++ e.vals.flatMap (leBytes 8)

/-- An interval added to the merged record's entries. -/
def mergeEnts (old new : List LEnt) : List LEnt :=
  let add (e : LEnt) : LEnt :=
    match new.find? fun x => x.mp = e.mp with
    | some x => { e with flags := Nat.lor e.flags x.flags, inv := e.inv + x.inv, vals := (e.vals.zip x.vals).map fun p => p.1 + p.2 }
    | none => e
  let all := old.map add ++ new.filter fun x => !old.any fun e => e.mp = x.mp
  (List.range 36).filterMap fun mp => all.find? fun e => e.mp = mp

/-- Whether this unit is not the home island of a point in use, in Ply-guard (R347). -/
def Dev.notHome (d : Dev) : Bool :=
  d.rd 0 PLY_CFG.MODE = 2 && (List.range 36).any fun mp => d.mpUsed mp && d.par MP.HOME mp = 1

/-- The accumulators of a closed interval start again; their residues stay (R248). -/
def Dev.clearAcc (d : Dev) : Dev :=
  d.modTot fun t => { t with
    acc := (List.range 36).foldl (fun m mp => (entRegs mp).foldl (fun m k =>
      m.set (fun _ => 0) (8 * mp + k) (m.get (fun _ => 0) (8 * mp + k) % 2 ^ 32)) m) t.acc,
    inv := [], entFlags := [], ivOpen := false, ivTamper := 0 }

/-- Close the running interval at an RTC time: its record, or its part of the merged record (R267, R273). -/
def Dev.closeInterval (d : Dev) (fin flags tariff : Nat) : Dev :=
  let t := d.lgl.tot
  if !t.ivOpen || d.lgl.halted then d
  else
    let ents := ((List.range 36).filter d.mpUsed).map d.entOf
    let flags := Nat.lor (Nat.lor t.ivFlags flags) (if d.notHome then RF.XCHK else 0)
    let m : Merged := match d.lgl.merged with
      | some m => { m with flags := Nat.lor m.flags flags, tamper := Nat.lor m.tamper t.ivTamper, ents := mergeEnts m.ents ents }
      | none => { start := t.ivAt, flags := flags, tamper := t.ivTamper, ents := ents }
    let body := m.ents.flatMap LEnt.bytes
    let d := d.clearAcc
    let d :=
      if 192 + body.length + ringReserve ≤ d.lglFree then
        let f := if d.lgl.merged.isSome then Nat.lor m.flags RF.MERGED else m.flags
        let d := (d.modLgl fun l => { l with merged := none }).wr 0 LGL_STAT.MERGING 0
        d.putRec 1 f m.start fin m.tamper tariff m.ents.length body
      else
        let was := d.lgl.merged.isSome
        let d := (d.modLgl fun l => { l with merged := some m }).wr 0 LGL_STAT.MERGING 1
        if was then d else d.raise 0 Ev.LGL.FULL
    d.raise 0 Ev.TRF.INTERVAL

/-- Open an interval at an RTC time. -/
def Dev.openInterval (d : Dev) (start flags : Nat) : Dev :=
  let r := d.lgl.rtc
  let f := Nat.lor flags ((if start < d.lgl.tot.h then RF.REPEATED else 0) + (if r.valid then 0 else RF.TINV)
    + (if d.defTariff then RF.DEFTARIFF else 0))
  (d.modTot fun t => { t with ivOpen := true, ivAt := start, ivFlags := f }).wr 0 TRF_INTSTART.SEC (start / 2 ^ 32)

/-! ### Receipts (R268, R269, R273) -/

/-- Bytes of a receipt. -/
abbrev rcptLen : Nat := 392

/-- Drop the oldest interval records until the rest is no longer than a size; the SEQs dropped beside it. -/
def dropIntervals : List LRec → Nat → Nat → List LRec × List Nat
  | [], _, _ => ([], [])
  | r :: l, have_, need =>
    if have_ + need ≤ ringSize then (r :: l, [])
    else if r.typ = 1 then
      let (l', s) := dropIntervals l (have_ - r.bytes.length) need
      (l', r.seq :: s)
    else
      let (l', s) := dropIntervals l have_ need
      (r :: l', s)

/-- Make room for a receipt in a ring that is full to the end of its reserve; true when records were overwritten. -/
def Dev.rcptRoom (d : Dev) : Bool × Dev :=
  if rcptLen ≤ d.lglFree then (false, d)
  else
    let (l, lost) := dropIntervals d.lgl.recs (ringSize - d.lglFree) rcptLen
    let d := d.modLgl fun g => { g with recs := l }
    let d := (d.wr 0 LGL_LOST_FIRST.SEQ (lost.headD 0)).wr 0 LGL_LOST_LAST.SEQ (lost.getLastD 0)
    (true, d.raise 0 Ev.LGL.REC_LOST)

/-- The open receipt of a point. -/
def Dev.rcpt (d : Dev) (p : Nat) : Option Rcpt := d.lgl.tot.rcpts.get (fun _ => none) p

/-- Set or clear the open receipt of a point; a receipt written is open no more in the copy either. -/
def Dev.setRcpt (d : Dev) (p : Nat) (r : Option Rcpt) : Dev :=
  let d := d.modTot fun t => { t with rcpts := t.rcpts.set (fun _ => none) p r }
  if r.isSome then d
  else d.modLgl fun l => { l with copy := { l.copy with rcpts := l.copy.rcpts.set (fun _ => none) p none } }

/-- The tariff entries of a receipt: registers whose reading changed (Table LGL-7). -/
def Dev.rcptTrf (d : Dev) (p : Nat) (r : Rcpt) : List Nat :=
  (List.range 16).filterMap fun k =>
    let x := eDiff (r.trf0.getD k {}) (d.ereg p 0 (k + 1))
    if x = 0 then none else some ((k + 1) * 2 ^ 56 + (x % 2 ^ 56).toNat)

/-- The body of a receipt (Table LGL-7). -/
def Dev.rcptBody (d : Dev) (p : Nat) (r : Rcpt) (code : Nat) : List Byte :=
  let e (x : EReg) : List Byte := leBytes 8 (x.v / 2 ^ 32) ++ leInt32 x.wrap
  let d64 (x : Int) : List Byte := leBytes 8 (ofSigned 64 x)
  let imp1 := d.ereg p 0 0
  let exp1 := d.ereg p 1 0
  fixLen 200 (b1 p ++ b1 code ++ b1 r.loop ++ b1 r.gen
    ++ leBytes 4 ((d.lgl.tot.invAll.get (fun _ => 0) p - r.inv0) / ticksPerMs)
    ++ e r.imp0 ++ e r.exp0 ++ e imp1 ++ e exp1 ++ d64 (eDiff r.imp0 imp1) ++ d64 (eDiff r.exp0 exp1)
    ++ (d.rcptTrf p r).flatMap (leBytes 8))

/-- Write the open receipt of a point and close it. -/
def Dev.writeRcpt (d : Dev) (p code flags fin : Nat) : Dev :=
  match d.rcpt p with
  | none => d
  | some r =>
    let body := d.rcptBody p r code
    let n := (d.rcptTrf p r).length
    let (gap, d) := (d.setRcpt p none).rcptRoom
    if rcptLen ≤ d.lglFree then
      d.putRec 2 (Nat.lor (Nat.lor r.flags flags) (if gap then RF.GAP else 0)) r.start fin r.tamper d.lgl.tariff n body
    else d

/-- Write every open receipt with one END code and flags. -/
def Dev.writeRcpts (d : Dev) (code flags fin : Nat) : Dev :=
  (List.range 32).foldl (fun d p => d.writeRcpt p code flags fin) d

/-- Effect of MARKER_START_RX (R268, R269): only the home island of a point issues receipts (R347). -/
def markerStartRxEffect (loop : Fin 64) (gen : Fin 256) (point : Fin 32) (d : Dev) : Dev :=
  let p := point.val
  if !d.lglUp || d.lgl.halted || (d.rd 0 PLY_CFG.MODE = 2 && d.par MP.HOME p = 1) then d
  else
    let d := d.writeRcpt p 0xFE 0 d.rtcNow
    d.setRcpt p (some
      { loop := loop, gen := gen, start := d.rtcNow, inv0 := d.lgl.tot.invAll.get (fun _ => 0) p, imp0 := d.ereg p 0 0,
        exp0 := d.ereg p 1 0, trf0 := (List.range 16).map fun k => d.ereg p 0 (k + 1),
        flags := (if d.rtcNow < d.lgl.tot.h then RF.REPEATED else 0) + (if d.lgl.rtc.valid then 0 else RF.TINV)
          + (if d.defTariff then RF.DEFTARIFF else 0) })

/-- MARKER_START_RX (R268). -/
def execMarkerStartRx (t : Nat) (loop : Fin 64) (gen : Fin 256) (point : Fin 32) (s : State) :=
  onDev t (markerStartRxEffect loop gen point) s

/-- Effect of MARKER_END_RX: the marker that matches the open receipt closes it; any other is counted (R268, R269). -/
def markerEndRxEffect (loop : Fin 64) (gen : Fin 256) (point : Fin 32) (d : Dev) : Dev :=
  if !d.lglUp || d.lgl.halted then d
  else
    match d.rcpt point with
    | some r =>
      if r.loop = loop.val && r.gen = gen.val then d.writeRcpt point 0x00 0 d.rtcNow else d.inc 0 LGL_MKRLOST.COUNT
    | none => d.inc 0 LGL_MKRLOST.COUNT

/-- MARKER_END_RX (R268). -/
def execMarkerEndRx (t : Nat) (loop : Fin 64) (gen : Fin 256) (point : Fin 32) (s : State) :=
  onDev t (markerEndRxEffect loop gen point) s

/-- A reset of the C–L link: open receipts are written as interrupted, the active role ends (R258, R269). -/
def Dev.clReset (d : Dev) : Dev :=
  if !d.lglUp then d
  else
    let d := if d.lgl.halted then d else d.writeRcpts 0xFD RF.INTERRUPTED d.rtcNow
    d.wr 0 LGL_STAT.ROLE 0

/-- C_L_LINK_RESET (R269). -/
def execCLLinkReset (t : Nat) (s : State) := onDev t Dev.clReset s

/-! ### ROM, tamper inputs, supply (R254, R265) -/

/-- A ROM check's result; a mismatch halts the island (R254). -/
def Dev.romResult (d : Dev) (ok : Bool) : Dev :=
  let d := (d.wrB 0 LGL_STAT.ROMOK ok).modLgl fun l => { l with romAt := d.now }
  if ok then d
  else
    let d := (d.tamper 12 0).raise 0 Ev.LGL.ROMCHK_FAIL
    d.modLgl fun l => { l with halted := true, book := false }

/-- Effect of ROM_CHECK: every 24 h after the cast-on (R254). -/
def romCheckEffect (ok : Bool) (d : Dev) : Dev :=
  if d.lglUp && d.lgl.romAt + 86400 * ticksPerS ≤ d.now then d.romResult ok else d

/-- ROM_CHECK (R254). -/
def execRomCheck (t : Nat) (ok : Bool) (s : State) := onDev t (romCheckEffect ok) s

/-- A condition of Table TMP-1 occurs while the island runs. -/
def Dev.tamperUp (d : Dev) (c detail : Nat) : Dev := if d.lglUp then d.tamper c detail else d

/-- TAMPER_MAG (R265). -/
def execTamperMag (t : Nat) (s : State) := onDev t (fun d => d.tamperUp 1 0) s

/-- TAMPER_COVER (R265). -/
def execTamperCover (t : Nat) (s : State) := onDev t (fun d => d.tamperUp 2 0) s

/-- SUPPLY_LOW (R265). -/
def execSupplyLow (t : Nat) (s : State) := onDev t (fun d => d.tamperUp 11 2) s

end Sys2Proof.Machine
end

