-- ==== Sys2Proof/Machine/Second.lean ====
section
/-!
DEFINITION. Legal time at work (R276 to R291): the second boundary, clock settings, steps and slews, outages, the
power-fail transaction (R250), the cast-on of the L-die (R403), and the feed to the C-die (R20).
-/

namespace Sys2Proof.Machine

/-! ### What the TRF page shows -/

/-- TRF_STATE and its neighbours follow the tariff in force. -/
def Dev.showTrf (d : Dev) : Dev :=
  let c := d.calTime
  let cal := d.lgl.active
  let x := calTariff cal c
  let d := (d.wrB 0 TRF_STATE.DEFTARIFF d.defTariff).wr 0 TRF_STATE.TARIFF d.lgl.tariff
  let d := ((d.wr 0 TRF_STATE.SEASON x.season).wr 0 TRF_STATE.WEEK x.week).wr 0 TRF_STATE.DAY x.day
  let d := ((d.wr 0 TRF_STATE.SP x.sp).wr 0 TRF_NEXTSW.SEC (calNext cal c)).wr 0 TRF_HWM.SEC (d.lgl.tot.h / 2 ^ 32)
  let d := (d.wr 0 TRF_ACTIVE.ID (calU cal 0 4)).wr 0 TRF_PASSIVE.ID (calU d.lgl.passive 0 4)
  let d := (d.wr 0 TRF_POLICY.JUMP_LIM (d.par MP.JUMP_LIM).toNat).wr 0 TRF_POLICY.FALLBACK_ON_LOSS (d.par MP.FALLBACK_ON_LOSS).toNat
  let d := (d.wr 0 TRF_POLICY.SPLIT_ON_JUMP (d.par MP.SPLIT_ON_JUMP).toNat).wr 0 TRF_POLICY.INTLEN (d.par MP.INTLEN).toNat
  d.wr 0 TRF_PRICE.PRICE (calPrice cal (if d.lgl.rtc.valid then d.lgl.tariff else calU cal 4 1))

/-! ### Parts of the second boundary -/

/-- The seconds field increments; H follows (R276, R279). -/
def Dev.rtcTick (d : Dev) : Dev :=
  let left := d.slewLeft
  let d := d.modLgl fun l => { l with rtc := { l.rtc with sec := l.rtc.sec + 1, secAt := d.now, slew := left, slewAt := d.now } }
  d.modTot fun t => { t with h := max t.h (d.lgl.rtc.sec * 2 ^ 32) }

/-- The outage between w and the boundary R at which booking resumes (R291). `h0` is H as it stood at w. -/
def Dev.endOutage (d : Dev) (w flag h0 : Nat) : Dev :=
  let len := d.intLen
  let r := d.lgl.rtc.sec
  let t := d.lgl.tot
  if !t.ivOpen then d
  else
    let e := (t.ivAt / 2 ^ 32 / len + 1) * len
    let span (a b : Nat) : Nat := rtcTicks (b - a)
    let tar (s : Nat) : Nat := d.tariffAt (max s (h0 / 2 ^ 32))
    if r < e then (d.addInvalidAll (span w (r * 2 ^ 32))).modTot fun t => { t with ivFlags := Nat.lor t.ivFlags flag }
    else
      let d := (d.addInvalidAll (span w (e * 2 ^ 32))).closeInterval (e * 2 ^ 32) flag (tar e)
      let b := r / len * len
      let d :=
        if e < b then
          ((d.openInterval (e * 2 ^ 32) 0).addInvalidAll ((b - e) * ticksPerS)).closeInterval (b * 2 ^ 32) flag (tar b)
        else d
      (d.openInterval (b * 2 ^ 32) 0).addInvalidAll ((r - b) * ticksPerS)

/-- Booking resumes at this boundary (R250, R291, R403). -/
def Dev.resumeBooking (d : Dev) (h0 : Nat) : Dev :=
  if d.lgl.book || d.lgl.halted then d
  else
    let d := match d.lgl.outage with
      | some (w, flag) => d.endOutage w flag h0
      | none => d
    let d := d.modLgl fun l => { l with book := true, resume := false, outage := none }
    (d.wr 0 LGL_STAT.PFAIL 0).wr 0 MTR_STAT.PFAIL 0

/-- The sealed set becomes active; a changed MREF relocks PLL-M (R237, R380). -/
def Dev.sealActivate (d : Dev) : Dev :=
  match d.lgl.parNext with
  | none => d
  | some (ps, ks) =>
    let mref := d.par MP.MREF
    let d := d.modLgl fun l =>
      { l with prev := l.par, parNext := none,
               par := ps.foldl (fun m e => match e.2 with
                 | some v => m.set parDefault e.1 v
                 | none => m) l.par,
               keys := ks.foldl (fun m e => m.set (fun _ => []) e.1 e.2) l.keys }
    if d.par MP.MREF = mref then d else d.pllStart 2

/-- The step due at this boundary is applied (R281, R282): CLKJUMP at its instant; a setting of invalid time makes time
valid instead. -/
def Dev.applyStep (d : Dev) (x : Int) : Dev :=
  let inval := d.lgl.rtc.stepInval
  let d := if inval then d else (d.tamper 5 (ofSigned 32 x)).raise 0 Ev.TRF.CLKJUMP
  let d := d.modLgl fun l =>
    { l with rtc := { l.rtc with sec := ((l.rtc.sec : Int) + x).toNat, step := none, stepDefer := false, stepInval := false,
                                 valid := l.rtc.valid || inval } }
  let d := if inval then d.raise 0 Ev.TRF.TIME_VALID else d
  d.modTot fun t => { t with h := max t.h (d.lgl.rtc.sec * 2 ^ 32) }

/-- The armed calendar becomes active (R288). -/
def Dev.calActivate (d : Dev) : Dev :=
  if d.calDue d.calTime then
    let d := d.modLgl fun l => { l with active := l.passive }
    ((d.wr 0 TRF_STATE.ARMED 0).inc 0 TRF_ACTCNT.COUNT).raise 0 Ev.TRF.ACTIVATED
  else d

/-- The tariff in force is found (R286, R289). -/
def Dev.tariffSwitch (d : Dev) : Dev :=
  let t := d.tariffAt d.calTime
  let d := if t = d.lgl.tariff then d else (d.modLgl fun l => { l with tariff := t }).raise 0 Ev.TRF.SWITCH
  let d := if d.defTariff then d.periodFlag RF.DEFTARIFF else d
  if d.lgl.rtc.valid then d else d.periodFlag RF.TINV

/-- The transaction of R249. -/
def Dev.commitTotals (d : Dev) (pfail : Bool) : Dev :=
  let now := d.rtcNow
  let d := d.modTot fun t => { t with time := now, seqno := t.seqno + 1, pfail := pfail }
  d.modLgl fun l => { l with copy := l.tot }

/-- Interval close, sealed set, step, calendar, tariff, in the order of R264 and R290. -/
def Dev.boundaryActs (d : Dev) : Dev :=
  let s := d.lgl.rtc.sec
  let edge := s % d.intLen = 0
  let reseal := d.lgl.parNext.isSome
  let step := if d.lgl.rtc.stepDefer && !edge then none else d.lgl.rtc.step
  let flags := (if step.isSome && !edge then RF.SPLIT else 0) + (if reseal then RF.RESEAL else 0)
  let cut := (edge || step.isSome || reseal || !d.lgl.tot.ivOpen) && d.lgl.tot.ivAt ≠ s * 2 ^ 32
  let d := if cut then d.closeInterval (s * 2 ^ 32) flags (d.tariffAt d.calTime) else d
  let d := d.sealActivate
  let d := match step with
    | some x => d.applyStep x
    | none => d
  let s' := d.lgl.rtc.sec
  let d :=
    if d.lgl.tot.ivOpen || d.lgl.halted then d
    else d.openInterval (s' * 2 ^ 32) ((if step.isSome && s' % d.intLen ≠ 0 then RF.SPLIT else 0) + (if reseal then RF.RESEAL else 0))
  d.calActivate.tariffSwitch

/-- The second boundary of the L-die (R249, R252, R264, R276, R290): while a power-fail warning stands and has not been
withdrawn, the boundary is only counted. -/
def Dev.secondTick (d : Dev) : Dev :=
  if !d.lglUp then d
  else
    let h0 := d.lgl.tot.h
    let d := d.rtcTick
    if d.lglPfail && !d.lgl.resume then d
    else
      let d := if d.lgl.book then d.mtrSecond else d
      ((((d.resumeBooking h0).boundaryActs).commitTotals false).mtrShow).showTrf

/-! ### Setting the clock (R280, R282) -/

/-- What the slew has absorbed since its start enters the fraction; it goes on from now. -/
def Dev.rtcRebase (d : Dev) : Dev :=
  let left := d.slewLeft
  let k : Int := (d.lgl.rtc.slew - left) * ticksPerS / 2 ^ 32
  d.modLgl fun l => { l with rtc := { l.rtc with secAt := l.rtc.secAt - k, slew := left, slewAt := d.now } }

/-- A clock setting is executed. -/
def Dev.clockSet (d : Dev) (new : Nat) : Dev :=
  let d := d.rtcRebase
  let delta : Int := (new : Int) - d.rtcNow
  let ds := rdiv delta (2 ^ 32)
  let df := delta - ds * 2 ^ 32
  let whole : Bool := delta.natAbs ≤ (d.par MP.JUMP_LIM).toNat * 2 ^ 32
  let valid := d.lgl.rtc.valid
  d.modLgl fun l =>
    let r := { l.rtc with setNew := true }
    { l with rtc :=
        if valid && whole then { r with slew := delta, step := none, stepDefer := false, stepInval := false }
        else { r with slew := df, step := some ds, stepInval := !valid,
                      stepDefer := valid && d.par MP.SPLIT_ON_JUMP = 0 } }

/-- Effect of SLEW_COMPLETE (R280). -/
def slewCompleteEffect (d : Dev) : Dev :=
  if d.lglUp && d.slewLeft = 0 && d.lgl.rtc.slew ≠ 0 then d.rtcRebase else d

/-- SLEW_COMPLETE (R280). -/
def execSlewComplete (t : Nat) (s : State) := onDev t slewCompleteEffect s

/-- Time becomes invalid with CLKLOSS (R278). -/
def Dev.clockLost (d : Dev) : Dev :=
  let d := d.modLgl fun l => { l with rtc := { l.rtc with valid := false } }
  ((d.tamper 6 0).raise 0 Ev.TRF.CLKLOSS).periodFlag RF.TINV

/-- Effect of OSC_STOP: the seconds come from PLL-M until the crystal returns (R277, R278). -/
def oscStopEffect (d : Dev) : Dev :=
  if d.lglUp && d.lgl.rtc.osc then (d.modLgl fun l => { l with rtc := { l.rtc with osc := false } }).clockLost else d

/-- OSC_STOP (R278). -/
def execOscStop (t : Nat) (s : State) := onDev t oscStopEffect s

/-- CRYSTAL_RETURN (R277, R278): the counter counts the crystal again; time stays invalid until it is set. -/
def execCrystalReturn (t : Nat) (s : State) :=
  onDev t (fun d => d.modLgl fun l => { l with rtc := { l.rtc with osc := true } }) s

/-! ### Power fail (R250, R269, R290) -/

/-- The L-die's part of a power-fail warning: booking stops; open receipts are written; the POWERFAIL transaction. -/
def Dev.lglPfailWarn (d : Dev) : Dev :=
  if !d.lglUp || d.lglPfail then d
  else
    let d := (List.range 4).foldl (fun d j => if d.lgl.book then d.stepEnd (32 + j) else d) d
    let w := d.rtcNow
    let pts := (List.range 32).filter fun p => (d.rcpt p).isSome
    let d := pts.foldl (fun d p => d.tamper 7 p) d
    let d := if d.lgl.halted then d else d.writeRcpts 0xFD (RF.INTERRUPTED + RF.POWERFAIL) w
    let d := d.modLgl fun l => { l with book := false, resume := false, outage := if l.book then some (w, RF.POWERFAIL) else l.outage }
    let d := ((d.wr 0 LGL_STAT.PFAIL 1).wr 0 MTR_STAT.PFAIL 1).commitTotals true
    d.raise 0 Ev.MTR.PFAIL_SAVED

/-- The warning is withdrawn: booking resumes at the next second boundary. -/
def Dev.lglPfailReturn (d : Dev) : Dev := if d.lglPfail then d.modLgl fun l => { l with resume := true } else d

/-! ### Cast-on of the L-die (R403, R412) -/

/-- The legal partition is initialised: a signing key, the default calendar, time invalid from 0 (R246, R255, R278, R288). -/
def Dev.lglInit (d : Dev) : Dev :=
  let (key, d) := d.drawBytes 48
  d.modLgl fun l =>
    { l with init := true, lsk := key, active := calInitial, passive := List.replicate calLen 0#8,
             prevDigest := List.replicate 48 0#8, rtc := { secAt := d.now, slewAt := d.now } }

/-- The newest copy is restored and the RTC checked; a copy without the POWERFAIL mark is unclean (R249, R250, R278). -/
def Dev.lglRestore (d : Dev) (rtc : Nat) (retained : Bool) : Dev :=
  let c := d.lgl.copy
  let d := d.modLgl fun l =>
    { l with tot := c, outage := if c.ivOpen then some (c.time, if c.pfail then RF.POWERFAIL else RF.UNCLEAN) else none,
             rtc := { l.rtc with sec := if retained then rtc / 2 ^ 32 else c.time / 2 ^ 32 + 1,
                                 secAt := (d.now : Int) - (if retained then rtcTicks (rtc % 2 ^ 32) else 0 : Nat),
                                 slew := 0, slewAt := d.now, step := none, stepDefer := false, stepInval := false } }
  let d := (List.range 12).foldl (fun d c => d.showTmp (c + 1)) d
  let d := if retained then d else d.clockLost
  if c.pfail then d
  else
    let d := (d.tamper 11 1).raise 0 Ev.MTR.RESTORE_UNCLEAN
    if d.lgl.halted then d else d.writeRcpts 0xFD RF.UNCLEAN c.time

/-- Effect of L_DIE_CAST_ON: PLL-M has locked; the ROM check; the copy; READY (R403). `rtc` is the counter kept on VAON,
`retained` whether its retention held. -/
def lDieCastOnEffect (rtc : Nat) (retained romOk : Bool) (d : Dev) : Dev :=
  if d.lglUp || !d.pllLocked 2 then d
  else
    let d := d.modLgl fun l => { l with halted := false, book := false, resume := false, chal := none, chs := [], pts := [] }
    let d := ((d.wr 0 LGL_STAT.ROLE 0).wr 0 LGL_STAT.PFAIL 0).wr 0 MTR_STAT.PFAIL 0
    let first := !d.lgl.init
    let d := if first then d.lglInit else d
    let d := (d.wr 0 MTR_STAT.CLKOK 1).romResult romOk
    let d := if first then d else d.lglRestore rtc retained
    (d.showFree.showTrf).wr 0 LGL_STAT.READY 1

/-- L_DIE_CAST_ON (R403). -/
def execLDieCastOn (t : Nat) (rtc : Nat) (retained romOk : Bool) (s : State) := onDev t (lDieCastOnEffect rtc retained romOk) s

/-- The L-die loses its supply: only the partition, the crystal's counter and its validity stay (R277, R396). -/
def Dev.lDieDown (d : Dev) : Dev := (d.wr 0 LGL_STAT.READY 0).modLgl fun l => { l with book := false }

/-! ### The feed to the C-die (R20) -/

/-- The RTC page takes what the L-die delivers after a second boundary, and its events follow. -/
def Dev.rtcFeed (d : Dev) : Dev :=
  let r := d.lgl.rtc
  let wasValid := d.on 0 RTC_STAT.VALID
  let wasTar := d.rd 0 RTC_STAT.TARIFF
  let c := d.calTime
  let d := (d.wr 0 RTC_SEC.SEC r.sec).wrI 0 RTC_STAT.OFFSET (calOffset d.lgl.active c)
  let d := (d.wr 0 RTC_STAT.TARIFF d.lgl.tariff).wrB 0 RTC_STAT.DEFTARIFF d.defTariff
  let d := (d.wrB 0 RTC_STAT.STEP_PEND r.step.isSome).wrB 0 RTC_STAT.SLEWING (d.slewLeft ≠ 0)
  let d := (d.wrB 0 RTC_STAT.REPEATED (r.sec * 2 ^ 32 < d.lgl.tot.h)).wrB 0 RTC_STAT.VALID r.valid
  let d := (d.wr 0 RTC_HWM.SEC (d.lgl.tot.h / 2 ^ 32)).wr64 0 RTC_TB_LO.TICKS RTC_TB_HI.TICKS r.secAt.toNat
  let d := d.wrI 0 RTC_SLEWLEFT.MS (rdiv (d.slewLeft * 1000) (2 ^ 32))
  let d := if r.setNew then (d.modLgl fun l => { l with rtc := { l.rtc with setNew := false } }).raise 0 Ev.RTC.TIME_SET else d
  let d := if wasValid && !r.valid then d.raise 0 Ev.RTC.TIME_INVALID else d
  let d := if r.valid && !wasValid then d.raise 0 Ev.RTC.TIME_VALID else d
  let d := if d.lgl.tariff = wasTar then d else d.raise 0 Ev.RTC.TARIFF_SWITCH
  d.priceArrives (d.rd 0 TRF_PRICE.PRICE)

end Sys2Proof.Machine
end

