-- ==== Sys2Proof/Machine/Mailbox.lean ====
section
/-!
DEFINITION. The legal mailbox (R256 to R263, R272, R275): requests, rights, roles, sealing, acknowledgement, renewal of
the signing key.
-/

namespace Sys2Proof.Machine

/-! ### Status codes (Table LGL-4) -/

namespace MB
abbrev OK : Nat := 0x00
abbrev NO_OBJECT : Nat := 0x01
abbrev NO_ATTR : Nat := 0x02
abbrev DENIED : Nat := 0x03
abbrev RANGE : Nat := 0x04
abbrev NOT_AUTH : Nat := 0x05
abbrev LOCKED_OUT : Nat := 0x06
abbrev BAD_SIG : Nat := 0x07
abbrev NO_CHALLENGE : Nat := 0x08
abbrev BAD_FORMAT : Nat := 0x09
abbrev REFUSED : Nat := 0x0A
abbrev NO_RECORD : Nat := 0x0B
abbrev PFAIL : Nat := 0x0C
abbrev HALTED : Nat := 0x0D
end MB

/-! ### Objects and rights (Table LGL-2, R260) -/

/-- What an OBIS code names. -/
inductive LObj where
  | serial
  | rom
  | lsk
  | clock
  /-- Register k of a metering point, tariff e (0 the total); `open_` the object of code 128. -/
  | energy (mp k e : Nat) (open_ : Bool)
  | calendar
  | param (p : Nat)
  | key (k : Nat)
  /-- Records of a type. -/
  | records (typ : Nat)
  | tamper
  deriving DecidableEq, Repr

/-- The register a code c names: 1, 2, 16, 5 to 8, 130. -/
def obisReg (c : Nat) : Option Nat :=
  if c = 1 then some 0 else if c = 2 then some 1 else if c = 16 then some 2
  else if 5 ≤ c && c ≤ 8 then some (c - 2) else if c = 130 then some 7 else none

/-- The object of an OBIS code (R260). -/
def obisObj (o : List Nat) : Option LObj :=
  match o with
  | [0, 0, 96, 1, 0, 255] => some .serial
  | [0, 0, 0, 2, 0, 255] => some .rom
  | [0, 0, 43, 0, 1, 255] => some .lsk
  | [0, 0, 1, 0, 0, 255] => some .clock
  | [0, 0, 13, 0, 0, 255] => some .calendar
  | [0, 0, 94, 49, p, 255] => if parCount p ≠ 0 then some (.param p) else none
  | [0, 0, 43, 1, k, 255] => if 1 ≤ k && k ≤ 3 then some (.key k) else none
  | [1, 0, 99, 1, 0, 255] => some (.records 1)
  | [0, 0, 99, 98, 10, 255] => some (.records 2)
  | [0, 0, 99, 98, 11, 255] => some (.records 3)
  | [0, 0, 99, 98, 1, 255] => some .tamper
  | [1, b, c, x, e, 255] =>
    match obisReg c with
    | some k =>
      if 1 ≤ b && b ≤ 36 && e ≤ 16 && (x = 8 || x = 128) && (k < 3 || 33 ≤ b) then some (.energy (b - 1) k e (x = 128))
      else none
    | none => none
  | _ => none

/-- Whether a role may read an object: 0 PUB, 1 OPR, 2 BIL, 3 MAU, 4 MFR. -/
def mayRead (o : LObj) (role : Nat) : Bool :=
  match o with
  | .energy _ _ _ true | .param _ | .key _ | .records 1 | .records 2 => role ≠ 0
  | _ => true

/-- Whether a role may write an object. -/
def mayWrite (o : LObj) (role : Nat) (sealed : Bool) : Bool :=
  match o with
  | .clock => role = 2 || role = 3
  | .calendar => role = 2
  | .param _ => role = 3
  | .key 3 => role = 3 || (role = 4 && !sealed)
  | .key _ => role = 3
  | .lsk => role = 4 && !sealed
  | _ => false

/-! ### Values -/

/-- The 32-bit value of a parameter. -/
def Dev.parBytes (d : Dev) (p i : Nat) : List Byte := leInt32 (d.par p i)

/-- A tamper code's log as bytes: COUNT, first, last, detail, flags. -/
def Tmp.bytes (x : Tmp) : List Byte :=
  leBytes 4 x.count ++ leBytes 8 x.first ++ leBytes 8 x.last ++ leBytes 4 x.detail
    ++ leBytes 4 ((if x.sat then 2 else 0) + (if x.tinv then 1 else 0))

/-- The value of an object, attribute 2; or the status that says why there is none. -/
def Dev.objValue (d : Dev) (o : LObj) (sel : Nat) : Except Nat (List Byte) :=
  match o with
  | .serial => .ok (fixLen 8 d.serial)
  | .rom => .ok (leBytes 4 (d.rd 0 LGL_ROMVER.VER) ++ fixLen 48 Config.romDigest)
  | .lsk => .ok (fixLen 97 (Config.ecPublic d.lgl.lsk) ++ d.lgl.cert)
  | .clock => .ok (leBytes 8 d.rtcNow)
  | .energy mp k e false =>
    if d.bills mp k then
      let x := d.ereg mp k e
      .ok (leBytes 8 (x.v / 2 ^ 32) ++ leInt32 x.wrap)
    else .error MB.NO_OBJECT
  | .energy mp k e true =>
    let x := d.ereg mp k e
    let a := if e = 0 then d.lgl.tot.acc.get (fun _ => 0) (8 * mp + k) else 0
    .ok (leBytes 8 (x.v / 2 ^ 32) ++ leInt32 x.wrap ++ leBytes 4 x.v ++ leBytes 8 (a / 2 ^ 32) ++ leBytes 4 a)
  | .calendar => .ok (fixLen calLen d.lgl.passive)
  | .param p => .ok ((List.range (parCount p)).flatMap (d.parBytes p))
  | .key k => .ok (d.lgl.keys.get (fun _ => []) k)
  | .records typ =>
    match d.lgl.recs.find? fun r => r.seq = sel && r.typ = typ with
    | some r => .ok r.bytes
    | none => .error MB.NO_RECORD
  | .tamper => .ok ((List.range 12).flatMap fun c => (d.tmp (c + 1)).bytes)

/-! ### Requests (R261, Table LGL-3) -/

/-- The bytes of the request buffer. -/
def Dev.mbReq (d : Dev) : List Byte := (List.range 256).flatMap fun i => leBytes 4 (d.rd 0 (LGL_REQ.DATA i))

/-- Write the response buffer. -/
def Dev.mbRsp (d : Dev) (bs : List Byte) : Dev :=
  (List.range ((bs.length + 3) / 4)).foldl (fun d i => d.wr 0 (LGL_RSP.DATA i) (leAt bs (4 * i) 4)) d

/-- Answer the request: response, STATUS, RSPLEN, DONE, MB_DONE (R261). -/
def Dev.mbDone (d : Dev) (op status : Nat) (data : List Byte) (total : Nat) : Dev :=
  let bs := b1 op ++ b1 status ++ leBytes 2 data.length ++ leBytes 4 total ++ data
  let d := ((d.mbRsp bs).wr 0 LGL_MBSTAT.STATUS status).wr 0 LGL_MBSTAT.RSPLEN bs.length
  (d.wr 0 LGL_MBSTAT.STATE 2).raise 0 Ev.LGL.MB_DONE

/-- Answer with a status alone. -/
def Dev.mbStatus (d : Dev) (op status : Nat) : Dev := d.mbDone op status [] 0

/-- Whether an operation code is one of Table LGL-4. -/
def mbKnown (op : Nat) : Bool := (1 ≤ op && op ≤ 4) || (0x10 ≤ op && op ≤ 0x12) || op = 0x20 || op = 0x21

/-- A write of LGL_MBCMD with GO: the request is taken; one that no operation answers completes as malformed. -/
def Dev.mbGo (d : Dev) (len : Nat) : Dev :=
  let d := ((d.wr 0 LGL_MBSTAT.STATE 1).modLgl fun l => { l with roleAt := d.now }).wr 0 LGL_MBCMD.REQLEN len
  let op := leAt d.mbReq 0 1
  if d.lglUp && !mbKnown op then d.mbStatus op MB.BAD_FORMAT else d

/-- A write to a field of the mailbox (R261, Table LGL-9): the page offset selects it. -/
def Dev.mbWrite (d : Dev) (off : Nat) (w : Word) : Except Nat Dev :=
  let busy := d.rd 0 LGL_MBSTAT.STATE = 1
  if off = 0x44 then
    let go := w.getLsbD 31
    let len := w.toNat % 2048
    match firstReason (failIf (go && (len < 24 || 1024 < len)) RC.RANGE ++ failIf busy 0x80) with
    | some c => .error c
    | none => .ok (if go then d.mbGo len else d)
  else if busy then .error 0x80
  else .ok (d.setWord .lgl 0 off w)

/-- A request under way: its bytes and the data after byte 24. -/
structure MbReq where
  bytes : List Byte
  data : List Byte

/-- Execute the request in the mailbox when it asks for this operation (R254, R261): malformed, halted and power-fail
requests are answered here. -/
def Dev.onMb (d : Dev) (op : Nat) (f : MbReq → Dev → Dev) : Dev :=
  let bs := d.mbReq
  if !d.lglUp || d.rd 0 LGL_MBSTAT.STATE ≠ 1 || leAt bs 0 1 ≠ op then d
  else
    let len := d.rd 0 LGL_MBCMD.REQLEN
    let r : MbReq := { bytes := bs.take len, data := (bs.take len).drop 24 }
    let pub := d.rd 0 LGL_STAT.ROLE = 0
    let ident := match obisObj (((bs.drop 2).take 6).map (·.toNat)) with
      | some .serial | some .rom | some .tamper => true
      | _ => false
    if leAt bs 22 2 ≠ 0 then d.mbStatus op MB.BAD_FORMAT
    else if d.lgl.halted && !(op = 1 && pub && ident) then d.mbStatus op MB.HALTED
    else if d.lglPfail && op ≠ 1 then d.mbStatus op MB.PFAIL
    else f r d

/-- A field of a request. -/
def MbReq.u (r : MbReq) (a n : Nat) : Nat := leAt r.bytes a n

/-- The object a request names. -/
def MbReq.obj (r : MbReq) : Option LObj := obisObj (((r.bytes.drop 2).take 6).map (·.toNat))

/-- The active role. -/
def Dev.role (d : Dev) : Nat := d.rd 0 LGL_STAT.ROLE

/-! ### GET (R259, R261) -/

/-- Effect of LGL_GET: an object's bytes from OFFSET, as many as MAXLEN and the buffer allow. -/
def lglGetEffect (d : Dev) : Dev :=
  d.onMb 1 fun r d =>
    match r.obj with
    | none => d.mbStatus 1 MB.NO_OBJECT
    | some o =>
      if r.u 1 1 ≠ 2 then d.mbStatus 1 MB.NO_ATTR
      else if !mayRead o d.role then d.mbStatus 1 MB.DENIED
      else
        match d.objValue o (r.u 8 8) with
        | .error c => d.mbStatus 1 c
        | .ok v =>
          if v.length < r.u 16 4 then d.mbStatus 1 MB.RANGE
          else d.mbDone 1 MB.OK ((v.drop (r.u 16 4)).take (min (r.u 20 2) 1016)) v.length

/-- LGL_GET (R259). -/
def execLglGet (t : Nat) (s : State) := onDev t lglGetEffect s

/-! ### SET (R262) -/

/-- Bytes written over a string from a place that lies within it or at its end. -/
def overlay (old : List Byte) (a : Nat) (new : List Byte) : List Byte := old.take a ++ new ++ old.drop (a + new.length)

/-- A parameter's value from four bytes. -/
def parValue (p : Nat) (bs : List Byte) : Int := if parSigned p then toSigned 32 (leNat bs) else leNat bs

/-- The values of a SET of a parameter from instance i on, none when one is out of range. -/
def parValues (p : Nat) : Nat → List Byte → Option (List (Nat × Int))
  | 0, _ => some []
  | n + 1, bs =>
    let v := parValue p (bs.take 4)
    if (parRange p).1 ≤ v && v ≤ (parRange p).2 then (parValues p n (bs.drop 4)).map fun l => (n, v) :: l else none

/-- A write to the passive calendar disarms it (R284, R288). -/
def Dev.calWrite (d : Dev) (a : Nat) (bs : List Byte) : Dev :=
  let d := d.modLgl fun l => { l with passive := overlay (fixLen calLen l.passive) a bs }
  let d := d.wr 0 TRF_PASSIVE.ID (calU d.lgl.passive 0 4)
  if d.on 0 TRF_STATE.ARMED then (d.wr 0 TRF_STATE.ARMED 0).raise 0 Ev.TRF.DISARMED else d

/-- An allowed SET: the new state and its status. -/
def Dev.setObj (d : Dev) (o : LObj) (a : Nat) (bs : List Byte) : Nat × Dev :=
  match o with
  | .clock => if bs.length = 8 && a = 0 then (MB.OK, d.clockSet (leNat bs)) else (MB.BAD_FORMAT, d)
  | .calendar =>
    if bs.isEmpty then (MB.BAD_FORMAT, d) else if calLen < a + bs.length then (MB.RANGE, d) else (MB.OK, d.calWrite a bs)
  | .param p =>
    let n := bs.length / 4
    if bs.isEmpty || bs.length % 4 ≠ 0 || a % 4 ≠ 0 then (MB.BAD_FORMAT, d)
    else if parCount p < a / 4 + n then (MB.RANGE, d)
    else
      match parValues p n bs with
      | none => (MB.RANGE, d)
      | some vs =>
        (MB.OK, d.modLgl fun l =>
          { l with stage := vs.foldl (fun m e => m.set (fun _ => none) (p * 256 + a / 4 + (n - 1 - e.1)) (some e.2)) l.stage })
  | .key k =>
    if bs.length ≠ 97 || a ≠ 0 || leAt bs 0 1 ≠ 4 then (MB.BAD_FORMAT, d)
    else if d.role = 3 then (MB.OK, d.modLgl fun l => { l with keyStage := l.keyStage.set (fun _ => []) k bs })
    else (MB.OK, d.modLgl fun l => { l with keys := l.keys.set (fun _ => []) k bs })
  | .lsk =>
    if bs.isEmpty then (MB.BAD_FORMAT, d) else if d.lgl.cert.length < a then (MB.RANGE, d)
    else (MB.OK, d.modLgl fun l => { l with cert := overlay l.cert a bs })
  | _ => (MB.DENIED, d)

/-- Effect of LGL_SET. -/
def lglSetEffect (d : Dev) : Dev :=
  d.onMb 2 fun r d =>
    match r.obj with
    | none => d.mbStatus 2 MB.NO_OBJECT
    | some o =>
      if r.u 1 1 ≠ 2 then d.mbStatus 2 MB.NO_ATTR
      else if !mayWrite o d.role d.lgl.sealed then d.mbStatus 2 MB.DENIED
      else
        let (c, d) := d.setObj o (r.u 16 4) r.data
        d.mbStatus 2 c

/-- LGL_SET (R262). -/
def execLglSet (t : Nat) (s : State) := onDev t lglSetEffect s

/-! ### SEAL and DISCARD (R236, R263) -/

/-- The active set with a staged set over it. -/
def overPar (par : AMap Int) (st : AMap (Option Int)) : AMap Int :=
  st.foldl (fun m e => match e.2 with
    | some v => m.set parDefault e.1 v
    | none => m) par

/-- How many channels carry a role for a target. -/
def roleCount (m : AMap Int) (role target : Nat) : Nat :=
  (List.range 96).countP fun c => parOf m MP.ROLE c = role && parOf m MP.TARGET c = target

/-- Whether a set passes R236. -/
def parSetOk (m : AMap Int) : Bool :=
  let role (c : Nat) : Int := parOf m MP.ROLE c
  let target (c : Nat) : Int := parOf m MP.TARGET c
  ((List.range 96).all fun c =>
    role c = 0 || (parOf m MP.FS c ≠ 0 && (if role c ≤ 2 then target c < 32 else 32 ≤ target c)
      && (parOf m MP.CODING c = 1 || parOf m MP.MCLK_MODE (c / 8) = 0))) &&
  ((List.range 32).all fun n =>
    let v := roleCount m 1 n
    let i := roleCount m 2 n
    (v = 0 && i = 0) || (v = 1 && i = 1)) &&
  ((List.range 4).all fun j =>
    let ts := [32 + 3 * j, 33 + 3 * j, 34 + 3 * j]
    (ts.all fun t => roleCount m 3 t = 0 && roleCount m 4 t = 0) || (ts.all fun t => roleCount m 3 t = 1 && roleCount m 4 t = 1))

/-- Effect of LGL_SEAL. -/
def lglSealEffect (d : Dev) : Dev :=
  d.onMb 3 fun _ d =>
    let l := d.lgl
    if d.role ≠ 3 then d.mbStatus 3 MB.DENIED
    else if l.stage.isEmpty && l.keyStage.isEmpty then d.mbStatus 3 MB.OK
    else
      let (ps, ks) := l.parNext.getD ([], [])
      if !parSetOk (overPar (overPar l.par ps) l.stage) then d.mbStatus 3 MB.REFUSED
      else
        let ps := l.stage.foldl (fun m e => m.set (fun _ => none) e.1 e.2) ps
        let ks := l.keyStage.foldl (fun m e => m.set (fun _ => []) e.1 e.2) ks
        let d := d.inc 0 LGL_PARAMGEN.GEN
        let d := (d.tamper 9 (d.rd 0 LGL_PARAMGEN.GEN)).raise 0 Ev.LGL.SEALED
        let d := d.modLgl fun l => { l with parNext := some (ps, ks), stage := [], keyStage := [], sealed := true }
        d.mbStatus 3 MB.OK

/-- LGL_SEAL (R263). -/
def execLglSeal (t : Nat) (s : State) := onDev t lglSealEffect s

/-- Effect of LGL_DISCARD. -/
def lglDiscardEffect (d : Dev) : Dev :=
  d.onMb 4 fun _ d =>
    if d.role ≠ 3 then d.mbStatus 4 MB.DENIED
    else (d.modLgl fun l => { l with stage := [], keyStage := [] }).mbStatus 4 MB.OK

/-- LGL_DISCARD (R263). -/
def execLglDiscard (t : Nat) (s : State) := onDev t lglDiscardEffect s

/-! ### Roles (R256 to R258) -/

/-- Failures that count: those of the last 600 s. -/
def Dev.mbFails (d : Dev) : List Nat := d.lgl.fails.filter fun t => d.now < t + 600 * ticksPerS

/-- Whether the lockout time runs. -/
def Dev.lockedOut (d : Dev) : Bool := d.now < d.lgl.lockEnd

/-- LGL_LOCKOUT shows the failures that count and the seconds left. -/
def Dev.lglSync (d : Dev) : Dev :=
  (d.wr 0 LGL_LOCKOUT.FAILS d.mbFails.length).wr 0 LGL_LOCKOUT.S ((d.lgl.lockEnd - d.now + ticksPerS - 1) / ticksPerS)

/-- Effect of LGL_CHALLENGE: the active role ends; a nonce, SERIAL and AUTHCNT. -/
def lglChallengeEffect (d : Dev) : Dev :=
  d.onMb 0x10 fun r d =>
    let d := d.wr 0 LGL_STAT.ROLE 0
    let role := leAt r.data 0 1
    if d.lockedOut then d.mbStatus 0x10 MB.LOCKED_OUT
    else if r.data.isEmpty then d.mbStatus 0x10 MB.BAD_FORMAT
    else if role = 0 || 4 < role then d.mbStatus 0x10 MB.RANGE
    else
      let (nonce, d) := d.drawBytes 48
      let d := d.modLgl fun l => { l with chal := some (nonce, role, d.now) }
      d.mbDone 0x10 MB.OK (nonce ++ fixLen 8 d.serial ++ leBytes 4 (d.rd 0 LGL_AUTHCNT.COUNT)) 60

/-- LGL_CHALLENGE (R256). -/
def execLglChallenge (t : Nat) (s : State) := onDev t lglChallengeEffect s

/-- The public key of a role. -/
def Dev.roleKey (d : Dev) (role : Nat) : List Byte := if role = 4 then Config.mfrKey else d.lgl.keys.get (fun _ => []) role

/-- A failed AUTH; the fifth within 600 s locks out, 60 s at first and twice the last time within 24 h of it (R257). -/
def Dev.authFailed (d : Dev) (role : Nat) : Dev :=
  let fs := d.now :: d.mbFails
  let d := (d.modLgl fun l => { l with fails := fs }).raise 0 Ev.LGL.AUTH_FAIL
  if fs.length < 5 then d
  else
    let again : Bool := match d.lgl.lockAt with
      | some t => d.now < t + 86400 * ticksPerS
      | none => false
    let s := if again then min 3600 (2 * d.lgl.lockS) else 60
    let d := d.modLgl fun l => { l with lockEnd := d.now + s * ticksPerS, lockAt := some d.now, lockS := s }
    (d.tamper 10 role).raise 0 Ev.LGL.LOCKOUT

/-- Effect of LGL_AUTH. -/
def lglAuthEffect (d : Dev) : Dev :=
  d.onMb 0x11 fun r d =>
    let fresh : Bool := match d.lgl.chal with
      | some (_, _, t) => d.now < t + 30 * ticksPerS
      | none => false
    match d.lgl.chal with
    | some (nonce, role, _) =>
      let d := d.modLgl fun l => { l with chal := none }
      if !fresh then d.mbStatus 0x11 MB.NO_CHALLENGE
      else
        let msg := nonce ++ fixLen 8 d.serial ++ b1 role ++ leBytes 4 (d.rd 0 LGL_AUTHCNT.COUNT)
        if r.data.length = 96 && Config.ecdsaVerify (d.roleKey role) (Config.digest 1 msg) r.data then
          let d := (d.wr 0 LGL_STAT.ROLE role).inc 0 LGL_AUTHCNT.COUNT
          (d.modLgl fun l => { l with fails := [] }).lglSync.mbStatus 0x11 MB.OK
        else (d.authFailed role).lglSync.mbStatus 0x11 MB.BAD_SIG
    | none => d.mbStatus 0x11 MB.NO_CHALLENGE

/-- LGL_AUTH (R256). -/
def execLglAuth (t : Nat) (s : State) := onDev t lglAuthEffect s

/-- Effect of LGL_LOGOUT. -/
def lglLogoutEffect (d : Dev) : Dev :=
  d.onMb 0x12 fun _ d =>
    if d.role = 0 then d.mbStatus 0x12 MB.NOT_AUTH else (d.wr 0 LGL_STAT.ROLE 0).mbStatus 0x12 MB.OK

/-- LGL_LOGOUT (R258). -/
def execLglLogout (t : Nat) (s : State) := onDev t lglLogoutEffect s

/-- Effect of LGL_CHALLENGE_EXPIRY: 30 s after issue. -/
def lglChallengeExpiryEffect (d : Dev) : Dev :=
  match d.lgl.chal with
  | some (_, _, t) => if t + 30 * ticksPerS ≤ d.now then d.modLgl fun l => { l with chal := none } else d
  | none => d

/-- LGL_CHALLENGE_EXPIRY (R256). -/
def execLglChallengeExpiry (t : Nat) (s : State) := onDev t lglChallengeExpiryEffect s

/-- Effect of LGL_LOCKOUT_END: the failure count returns to 0. -/
def lglLockoutEndEffect (d : Dev) : Dev :=
  if d.lgl.lockEnd ≠ 0 && d.lgl.lockEnd ≤ d.now then (d.modLgl fun l => { l with lockEnd := 0, fails := [] }).lglSync else d

/-- LGL_LOCKOUT_END (R257). -/
def execLglLockoutEnd (t : Nat) (s : State) := onDev t lglLockoutEndEffect s

/-- Effect of LGL_ROLE_IDLE_TIMEOUT: 300 s without a request. -/
def lglRoleIdleTimeoutEffect (d : Dev) : Dev :=
  if d.role ≠ 0 && d.lgl.roleAt + 300 * ticksPerS ≤ d.now then d.wr 0 LGL_STAT.ROLE 0 else d

/-- LGL_ROLE_IDLE_TIMEOUT (R258). -/
def execLglRoleIdleTimeout (t : Nat) (s : State) := onDev t lglRoleIdleTimeoutEffect s

/-! ### ACK and LSK_RENEW (R272, R275) -/

/-- Effect of LGL_ACK. -/
def lglAckEffect (d : Dev) : Dev :=
  d.onMb 0x20 fun r d =>
    let n := r.u 8 8
    if d.role ≠ 2 then d.mbStatus 0x20 MB.DENIED
    else if d.lgl.seq < n then d.mbStatus 0x20 MB.RANGE
    else if n ≤ d.rd64 0 LGL_REC_ACK_LO.SEQ LGL_REC_ACK_HI.SEQ then d.mbStatus 0x20 MB.OK
    else
      let d := d.modLgl fun l => { l with recs := l.recs.filter fun x => n < x.seq }
      ((d.wr64 0 LGL_REC_ACK_LO.SEQ LGL_REC_ACK_HI.SEQ n).showFree).mbStatus 0x20 MB.OK

/-- LGL_ACK (R272). -/
def execLglAck (t : Nat) (s : State) := onDev t lglAckEffect s

/-- Effect of LGL_LSK_RENEW: the key-change record is signed with the old key, every later record with the new one. -/
def lglLskRenewEffect (d : Dev) : Dev :=
  d.onMb 0x21 fun _ d =>
    if d.role ≠ 3 then d.mbStatus 0x21 MB.DENIED
    else if d.lgl.merged.isSome || d.lglFree < 289 + ringReserve then d.mbStatus 0x21 MB.RANGE
    else
      let (key, d) := d.drawBytes 48
      let flags := if d.lgl.rtc.valid then 0 else RF.TINV
      let d := d.putRec 3 flags d.rtcNow d.rtcNow 0 d.lgl.tariff 1 (fixLen 97 (Config.ecPublic key))
      (d.modLgl fun l => { l with lsk := key }).mbStatus 0x21 MB.OK

/-- LGL_LSK_RENEW (R275). -/
def execLglLskRenew (t : Nat) (s : State) := onDev t lglLskRenewEffect s

/-! ### Arming (R288) -/

/-- The checks of a TRF commit: `d'` holds the values that would become active. -/
def trfReasons (d d' : Dev) : List Nat :=
  if d'.on 0 TRF_ACTCTL.ARM then
    failIf (!calOk (fixLen calLen d.lgl.passive)) 0x81 ++ failIf (d'.rd 0 TRF_ACTID.ID ≠ calU d.lgl.passive 0 4) 0x82
  else []

/-- What an accepted TRF commit brings: the calendar is armed or disarmed. -/
def trfCommitted (d : Dev) : Dev :=
  if d.on 0 TRF_ACTCTL.ARM then (d.wr 0 TRF_ARMSEC.SEC (d.rd 0 TRF_ACTSEC.SEC)).wr 0 TRF_STATE.ARMED 1
  else d.wr 0 TRF_STATE.ARMED 0

end Sys2Proof.Machine
end

