-- ==== Sys2Proof/Machine/PowerCore.lean ====
section
/-!
DEFINITION. What resets and domain changes do to a block (R390, R391, R392, R419, R420), the dependencies of Table
PWR-1, the start of a power entry (R393) and the record of a wake (R395, R397).
-/

namespace Sys2Proof.Machine

/-! ### Returning a block to reset (R14, R419, R420) -/

/-- The crypto, key and clock pages show the state behind them again. -/
def Dev.showKey (d : Dev) : Dev :=
  let k := d.key
  let d := ((d.wr 0 KEY_LC.STATE k.lc).wrB 0 KEY_LC.DBGARM k.armed).wrB 0 KEY_LC.ROOTOK k.root.isSome
  let d := ((d.wr 0 KEY_GEN.GEN k.gen).wr 0 KEY_GEN.LEFT (63 - k.gen)).wr 0 KEY_SVN.MINSVN k.minSvn
  let d := d.wr 0 KEY_IMG.TRIALS (k.trials.get (fun _ => 0) 0)
  let d := (List.range 4).foldl Dev.showBank d
  (List.range 32).foldl Dev.showSlot d

/-- The CLK page shows the clocks as they stand. -/
def Dev.showClk (d : Dev) (refOk : Bool) : Dev :=
  let d := ((d.wrB 0 CLK_STAT.REFOK refOk).modPll 0 id).modPll 1 id
  d.showFb

/-- The working state behind instance n of a block returns to its reset value. -/
def Dev.wipe (d : Dev) (t : Tag) (n : Nat) : Dev :=
  match t with
  | .ope => { d with ope := { d.ope with safeQ := [], intQ := [], flight := [], lastNonEss := none, waitCq := false,
                                         waitJnl := false } }
  | .jnl => { d with ope := { d.ope with used := 0, sesRec := [] } }
  | .alc => { d with alc := {} }
  | .str => { d with str := d.str.set (fun _ => {}) n {} }
  | .aux => { d with aux := d.aux.set (fun _ => {}) n {} }
  | .out => { d with pt := d.pt.set (fun _ => {}) n {} }
  | .ctm => { d with ctm := [] }
  | .skn =>
    { d with skn := { ports := d.skn.ports.set (fun _ => {}) n {}, nodes := d.skn.nodes.clearRange (8 * n) 8,
                      inputs := d.skn.inputs.clearRange (2048 * n) 2048,
                      reqs := d.skn.reqs.filter fun r => r.port ≠ n } }
  | .ply => if n = 0 then { d with ply := { signAt := d.now } } else d
  | .thm => { d with thm := d.thm.set (fun _ => {}) n {} }
  | .cbl => { d with cbl := d.cbl.set (fun _ => {}) n {} }
  | .lsw => { d with lsw := d.lsw.set (fun _ => {}) n {} }
  | .vcm => { d with vcm := {} }
  | .ses => { d with ses := [] }
  | .plc => { d with yarn := { counter := d.yarn.counter } }
  | .saf => { d with saf := { cons := d.saf.cons } }
  | .sfc => { d with saf := { d.saf with cons := [] } }
  | .cry => { d with key := { d.key with ctx := [] } }
  | .frc => { d with frc := {} }
  | .hif => { d with host := { mgmtPtr := d.host.mgmtPtr, d3 := d.host.d3, cqHeld := d.host.cqHeld,
                               fnMask := d.host.fnMask, msixEn := d.host.msixEn, busMaster := d.host.busMaster,
                               payload := d.host.payload, readReq := d.host.readReq, aspmL1 := d.host.aspmL1 } }
  | .key => { d with key := { d.key with chalAt := none } }
  | _ => d

/-- The words of a page return to their reset values, staged copies and SPEC window included. -/
def Dev.clearPage (d : Dev) (t : Tag) (n : Nat) : Dev :=
  { d with regs := AMap.clearRange d.regs (pageIx t n * 4096) 4096 }

/-- One page returns to reset with the state behind it. HIF_MGMT stands in AON (R45), and what hardware holds is shown
again: the PCI Express link, the clocks, the key store (R14: OTP and HW). -/
def Dev.resetPage (d : Dev) (t : Tag) (n : Nat) : Dev :=
  match t with
  | .hif =>
    let mgmt := d.word .hif 0 0x6C
    let link := d.word .hif 0 0x40
    (((d.wipe .hif 0).clearPage .hif 0).setWord .hif 0 0x6C mgmt).setWord .hif 0 0x40 link
  | .clk =>
    let ok := d.on 0 CLK_STAT.REFOK
    let f := d.rd 0 CLK_REFCFG.FREF
    let r := d.rd 0 CLK_REFCFG.TREF
    let d := (d.clearPage .clk 0).showClk ok
    let d := if d.rd 0 CLK_REFCFG.FREF = f then d else d.pllStart 0
    if d.rd 0 CLK_REFCFG.TREF = r then d else d.pllStart 1
  | .key =>
    let dbg := d.rd 0 KEY_LC.DBGEN
    let sn := (d.word .key 0 KEY_SERIAL_LO.SN.off, d.word .key 0 KEY_SERIAL_HI.SN.off)
    let boot := d.rd 0 KEY_IMG.BOOTBANK
    let d := ((d.wipe .key 0).clearPage .key 0).wr 0 KEY_LC.DBGEN dbg
    let d := (d.setWord .key 0 KEY_SERIAL_LO.SN.off sn.1).setWord .key 0 KEY_SERIAL_HI.SN.off sn.2
    ((d.wr 0 KEY_LC.SWATCH dbg).wr 0 KEY_IMG.BOOTBANK boot).showKey
  | _ => (d.wipe t n).clearPage t n

/-- Every page of a block returns to reset. -/
def Dev.resetTag (d : Dev) (t : Tag) : Dev := (List.range t.count).foldl (fun d n => d.resetPage t n) d

/-- The pages a domain serves return to reset (R420). -/
def Dev.resetDom (d : Dev) (x : Dom) : Dev :=
  Tag.all.foldl (fun d t => (List.range t.count).foldl (fun d n => if domOf t n = x then d.resetPage t n else d) d) d

/-- The MSI-X table returns to reset (R35, R390). -/
def Dev.resetMsix (d : Dev) : Dev := { d with regs := AMap.clearRange d.regs 0xFE000 0x2000 }

/-- The controls of configuration space return to the values they have after a reset of the function: bus mastering and
MSI-X disabled, payloads of 128 bytes, read requests of 512 (R34, R35). -/
def HostIf.cfgReset (h : HostIf) : HostIf :=
  { h with fnMask := false, msixEn := false, busMaster := false, payload := 0, readReq := 2, aspmL1 := false }

/-- The HIF page and the MSI-X table return to reset, and with them what the host must enable again (R35); `up` is whether
the link stays up. -/
def Dev.hifReset (d : Dev) (up : Bool) : Dev :=
  let d := (d.resetPage .hif 0).resetMsix
  let d : Dev := { d with host := d.host.cfgReset }
  if up then d else d.setWord .hif 0 0x40 0#32

/-! ### Points by port (R439) -/

/-- The points a Skein port serves. -/
def Dev.sknServes (d : Dev) (k : Nat) : List Nat :=
  (List.range 32).filter fun p =>
    d.rd p OUT_IOSRC.PORT = k
      || ((List.range 48).any fun s => d.asgPt s = p && (let a := d.asg s; 1 ≤ a && a ≤ 4) && d.rd s STR_TLMSRC.PORT = k)
      || ((List.range 64).any fun e => d.on 0 (CTM_CONT_A.EN e) && d.rd 0 (CTM_CONT_A.POINT e) = p
            && d.rd 0 (CTM_CONT_A.PORT e) = k)
      || (d.rd p OUT_DISCFG.METHOD = 1 && d.rd p OUT_DISSW.PORT = k)
      || (d.on 0 (VCM_PT_A.EN p) && d.rd 0 (VCM_PT_A.PSRC p) = 1 && d.rd 0 (VCM_PT_A.PORT p) = k)

/-! ### Domains (R390 to R394) -/

/-- The domain of an index. -/
def domAt (i : Nat) : Dom := Dom.all.getD i .aon

/-- The target of a domain (Table PWR-7). -/
def Dev.pwrTarget (d : Dev) (i : Nat) : Nat :=
  if i < 16 then d.rd 0 (PWR_TARGET0.D i) else d.rd 0 (PWR_TARGET1.D (i - 16))

/-- The domains a domain requires while ON (Table PWR-1). -/
def domNeeds : Dom → List Dom
  | .aon | .lgl | .safe | .mem => []
  | .core => [.mem]
  | .plc => [.mem, .core, .cry]
  | _ => [.mem, .core]

/-- Whether a set of targets keeps the dependencies of Table PWR-1. -/
def depsOk (t : Nat → Nat) : Bool :=
  t Dom.mem.ix ≤ 1 &&
    Dom.all.all fun x =>
      match t x.ix with
      | 0 => (domNeeds x).all fun y => t y.ix = 0
      | 1 => x.ix < 4 || (if x = .core then t Dom.mem.ix ≤ 1 else t Dom.core.ix ≤ 1)
      | _ => true

/-- Whether a domain may leave ON (Table PWR-1; R21, R212, R234). What only has to come to rest is awaited in the
entry: operations in flight, the PCI Express link (R393). -/
def Dev.mayLeave (d : Dev) (x : Dom) : Bool :=
  let live (p : Nat) : Bool := match d.liveSes p with
    | some m => 3 ≤ d.sesState m && d.sesState m ≤ 5
    | none => false
  match x with
  | .aon | .lgl => false
  | .safe => !d.anyEnergised && !(List.range 8).any d.pairOn
  | .cle | .alc | .ope => !d.anyEnergised
  | .skn0 => !(List.range 3).any fun k => (d.sknServes k).any d.energised
  | .skn1 => !(List.range 3).any fun k => (d.sknServes (k + 3)).any d.energised
  | .skn2 => !(List.range 3).any fun k => (d.sknServes (k + 6)).any d.energised
  | .skn3 => !(List.range 3).any fun k => (d.sknServes (k + 9)).any d.energised
  | .ply => d.rd 0 PLY_CFG.MODE = 0
  | .plc => !((List.range 4).any fun g => match d.gpPoint g with | some p => live p | none => false) && !d.sfcYarnOpen
  | .vcm => !(List.range 32).any live
  | _ => true

/-- The checks of a PWR commit: `d'` holds the values that would become active (R391). -/
def pwrReasons (d d' : Dev) : List Nat :=
  let t := d'.pwrTarget
  failIf (t 0 ≠ 0 || t 1 ≠ 0 || t 3 = 2) RC.RANGE ++
  failIf (!depsOk t || Dom.all.any fun x => d.domOn x && t x.ix ≠ 0 && 2 ≤ x.ix && !d.mayLeave x) RC.DOMAIN ++
  failIf (d.rd 0 PWR_ENTRY.PHASE ≠ 0) 0x81

/-- PLL-F and PLL-T start again where they were stopped and a domain needs them (R394, R397). -/
def Dev.pllWake (d : Dev) (up : List Nat) : Dev :=
  if up.any fun i => 4 ≤ i then
    (List.range 2).foldl (fun d k => if (d.pll k).state = 0 then d.pllStart k else d) d
  else d

/-- Domains and those they require, in the order of Table PWR-1. -/
def withNeeds (doms : List Nat) : List Nat :=
  (List.range 18).filter fun i => doms.contains i || doms.any fun j => ((domNeeds (domAt j)).map Dom.ix).contains i

/-- Raising begins (R391, R397): the domains that are not ON are in transition. -/
def Dev.raiseDoms (d : Dev) (doms : List Nat) : Dev :=
  let up := (withNeeds doms).filter fun i => !d.domOn (domAt i)
  if up.isEmpty then d
  else { (d.wr 0 PWR_ENTRY.PHASE 2).pllWake up with pwr := { d.pwr with up := up, lower := [], pend := 0 } }

/-- What an accepted PWR commit starts: an entry where it lowers a domain, else raising (R391, R393). -/
def pwrCommitted (d : Dev) : Dev :=
  let lower := (List.range 18).filterMap fun i =>
    let t := d.pwrTarget i
    if t ≠ 0 && t ≠ d.domState (domAt i) then some (i, t) else none
  let up := (List.range 18).filter fun i => d.pwrTarget i = 0 && !d.domOn (domAt i)
  if lower.isEmpty then d.raiseDoms up
  else
    let d := ((d.wr 0 PWR_ENTRY.PHASE 1).wr 0 PWR_ENTRY.LASTAP 0).inc 0 PWR_ENTRYCNT.COUNT
    { d with pwr := { d.pwr with apAt := d.now, startAt := d.now, lower := lower, up := up, pend := 0 } }

/-- A domain's links go down (R390, R393). -/
def Dev.domLinks (d : Dev) (x : Dom) : Dev :=
  let ports (g : Nat) (d : Dev) : Dev :=
    (List.range 12).foldl (fun d k => if k / 3 = g then sknSyncLossEffect ⟨k % 12, Nat.mod_lt k (by decide)⟩ d else d) d
  match x with
  | .skn0 => ports 0 d
  | .skn1 => ports 1 d
  | .skn2 => ports 2 d
  | .skn3 => ports 3 d
  | .vcm => (List.range 32).foldl (fun d p => d.linkChange p false) d
  | _ => d

/-- The safety-layer connections of a transport return to SYNC (R392). -/
def Dev.conLeave (d : Dev) (trans : Nat) (port : Nat → Bool) : Dev :=
  (List.range 64).foldl (fun d m =>
    if d.on 0 (SFC_CON_A.EN m) && d.rd 0 (SFC_CON_A.TRANS m) = trans && port (d.rd 0 (SFC_CON_A.PORT m))
    then d.conResync m else d) d

/-- What a domain serves returns to reset as it goes OFF (R390), but for the words that act while it is OFF: the wake
mode of a Skein port (R149) and the thresholds of the die comparators, which SAFE holds (R178). -/
def Dev.offReset (d : Dev) (x : Dom) : Dev :=
  let d := Tag.all.foldl (fun d t => (List.range t.count).foldl (fun d n =>
    if domOf t n ≠ x then d else if t = .skn || t = .dtm then d.wipe t n else d.resetPage t n) d) d
  if x = .hif then d.resetMsix else d

/-- A domain leaves ON for a state, 1 RET or 2 OFF (Table PWR-1; R180, R234, R361, R377, R392). -/
def Dev.domLeave (d : Dev) (x : Dom) (st : Nat) : Dev :=
  let d := if d.domState x = 0 || d.domState x = 3 then
      let d := d.domLinks x
      match x with
      | .core => d.lswAllOff
      | .cry => d.clearCtxs
      | .plc => ((gpDrop d (d.setDomState x st)).yarnStop 8).conLeave 1 fun _ => true
      | .skn0 => d.conLeave 0 fun k => k / 3 = 0
      | .skn1 => d.conLeave 0 fun k => k / 3 = 1
      | .skn2 => d.conLeave 0 fun k => k / 3 = 2
      | .skn3 => d.conLeave 0 fun k => 3 ≤ k / 3
      | .hif => d.conLeave 2 fun _ => true
      | .frc => d.frcAbort
      | .alc => { d with alc := { d.alc with started := false } }
      | .cle => (List.range 16).foldl (fun d n =>
          if d.rd n AUX_OUT.TYPE = 0 && d.on (d.rd n AUX_OUT.LSW) LSW_CFG.AUXOWN then d.auxDrive n (d.rdI n AUX_FAILSAFE.U)
          else d) d
      | _ => d
    else d
  let d := if x = .frc && st = 2 then { d with edram := [] } else d
  (if st = 2 then d.offReset x else d).setDomState x st

/-- With no domain but AON, LGL, SAFE and MEM to stay ON, PLL-F and PLL-T stop as planned, without events (R394). -/
def Dev.pllRest (d : Dev) (on : Dom → Bool) : Dev :=
  if Dom.all.any fun x => 4 ≤ x.ix && on x then d
  else (((d.modPll 0 fun x => { x with state := 0 }).modPll 1 fun x => { x with state := 0 }).showFb).ckoGate

/-- A wake from a source (R395 to R397): recorded; pending against an entry, joined to a wake under way, or starting
one. While a die shutdown stands wake sources are ignored (R178). -/
def Dev.wake (d : Dev) (src ports : Nat) (doms : List Nat) : Dev :=
  if d.die.shutAt.isSome then d
  else
    let d := (d.wrBit 0 AON_WAKECAUSE.SRC src true).wr 0 AON_WAKECAUSE.PORTS (Nat.lor (d.rd 0 AON_WAKECAUSE.PORTS) ports)
    let d := (d.wr64 0 AON_WAKETIME_LO.TICKS AON_WAKETIME_HI.TICKS d.now).raise 0 Ev.AON.WAKE
    let doms := (List.range 18).filter fun i => doms.contains i || d.bit 0 (PWR_WAKEMAP.DOMS src) i
    match d.rd 0 PWR_ENTRY.PHASE with
    | 1 => { d with pwr := { d.pwr with pend := Nat.lor d.pwr.pend (2 ^ src), pendAt := d.now, up := d.pwr.up ++ doms } }
    | 2 => { d.pllWake doms with pwr := { d.pwr with up := (withNeeds (d.pwr.up ++ doms)).filter fun i => !d.domOn (domAt i) } }
    | _ =>
      if (withNeeds doms).all fun i => d.domOn (domAt i) then d
      else
        let d := d.inc 0 PWR_WAKECNT.COUNT
        let d := match d.pwr.endAt with
          | some t => d.wrU 0 AON_SLEEPMS.MS (d.msSince t)
          | none => d
        d.raiseDoms doms

end Sys2Proof.Machine
end

