-- ==== Sys2Proof/Machine/PlyCore.lean ====
section
/-!
DEFINITION. The pair's own working that other blocks rest on: the state of the unit (Table PLY-8), forming and ending
the pair (R331, R333), the share of SPLIT (R336), and the checks of a PLY commit.
-/

namespace Sys2Proof.Machine

/-- Change the pair's record. -/
def Dev.modPly (d : Dev) (f : Ply → Ply) : Dev := { d with ply := f d.ply }

/-- PLY_STAT.STATE: 0 SINGLE, 1 FORMING, 2 JOINED, 3 SPLIT, 4 ACTIVE, 5 STANDBY, 6 SOLO. -/
def Dev.plySt (d : Dev) : Nat := d.rd 0 PLY_STAT.STATE

/-- The unit controls a site of a Ply-guard pair. -/
def Dev.plyActive (d : Dev) : Bool := d.rd 0 PLY_CFG.MODE = 2 && (d.plySt = 4 || d.plySt = 6)

/-- Enter a state. Where the unit begins or ceases to drive, its load-switch gates follow (Table PLY-3). -/
def Dev.setPly (d : Dev) (st : Nat) : Dev :=
  let was := d.plySilent
  let d := d.wr 0 PLY_STAT.STATE st
  if d.plySilent = was then d else (List.range 24).foldl Dev.lswGate d

/-- This unit is PLY-A. -/
def Dev.plyA (d : Dev) : Bool := d.rd 0 PLY_CFG.ROLE = 0

/-- This unit is the preferred one. -/
def Dev.plyPref (d : Dev) : Bool := d.rd 0 PLY_CFG.PREF = d.rd 0 PLY_CFG.ROLE

/-- The time master: PLY-A in Ply-join, the active unit in Ply-guard (R332). -/
def Dev.plyMaster (d : Dev) : Bool := if d.rd 0 PLY_CFG.MODE = 1 then d.plyA else d.plyActive

/-- The pair allocates jointly (R335). -/
def Dev.plyJoint (d : Dev) : Bool := d.rd 0 PLY_CFG.MODE = 1 && d.ply.joint

/-- The share s of R336, per cent; 100 outside Ply-join. -/
def Dev.plyShare (d : Dev) : Nat :=
  if d.rd 0 PLY_CFG.MODE = 1 && !d.ply.joint then
    (if d.plyA then d.rd 0 PLY_CFG.SPLIT_PCT else 100 - d.rd 0 PLY_CFG.SPLIT_PCT)
  else 100

/-- Whether the standby is eligible (R342). -/
def Dev.plyElig (d : Dev) : Bool :=
  d.rd 0 PLY_CFG.MODE = 2 && d.plySt = 5 && d.on 0 PLY_STAT.PAIRED && d.on 0 PLY_STAT.ALIGNED
    && d.on 0 PLY_STAT.MIRROR_OK && !d.on 0 PLY_STAT.SELFCHK_FAIL

/-- MGMT_STALE follows the host's view against the data path, and MGMT_DISAGREE marks a new disagreement (R346). -/
def Dev.mgmtView (d : Dev) : Dev :=
  let peer := d.rd 0 PLY_MGMT.PEER
  let up := d.on 0 PLY_STAT.PAIRED
  let bad := d.rd 0 PLY_CFG.MODE ≠ 0 && ((peer = 1 && !up) || (peer = 2 && up))
  if bad && !d.on 0 PLY_STAT.MGMT_STALE then (d.wr 0 PLY_STAT.MGMT_STALE 1).raise 0 Ev.PLY.MGMT_DISAGREE
  else d.wrB 0 PLY_STAT.MGMT_STALE bad

/-- PLY_STAT.ELIGIBLE follows; the hold-off begins when the preferred unit is eligible and its self-check has passed, and
ends with either (R345). -/
def Dev.plyFollow (d : Dev) : Dev :=
  let e := d.plyElig
  let d := (d.wrB 0 PLY_STAT.ELIGIBLE e).mgmtView
  if e && d.plyPref && d.ply.passed then
    (if d.ply.holdAt.isNone then d.modPly fun x => { x with holdAt := some d.now } else d)
  else d.modPly fun x => { x with holdAt := none }

/-- The hold-off starts again (R345); a return under way goes on. -/
def Dev.holdRestart (d : Dev) : Dev := (d.modPly fun x => { x with holdAt := none }).plyFollow

/-- The unit comes up unpaired: at cast-on, and where a commit changes MODE (R331, R333, R343). SELFCHK_FAIL stands
until the next cast-on (R342). -/
def Dev.plyInit (d : Dev) : Dev :=
  let fail := d.rd 0 PLY_STAT.SELFCHK_FAIL
  let stale := d.rd 0 PLY_STAT.MGMT_STALE
  let x := d.ply
  let d := { d with ply := { signAt := d.now, txSeq := x.txSeq, lockAt := x.lockAt, hb := x.hb, jnlSent := d.jnlSeq } }
  let d := ((d.setWord .ply 0 PLY_STAT.STATE.off 0#32).wr 0 PLY_STAT.SELFCHK_FAIL fail).wr 0 PLY_STAT.MGMT_STALE stale
  let d := d.wr 0 PLY_MISROWS.RUN 0
  if d.rd 0 PLY_CFG.MODE = 0 then
    let d := { d with ply := { d.ply with lockAt := [], hb := [] } }
    (List.range 24).foldl Dev.lswGate ((d.wr 0 PLY_LINK.UP 0).wr 0 PLY_LINK.BLOCKLOCK 0 |>.wr 1 PLY_LINK.UP 0
      |>.wr 1 PLY_LINK.BLOCKLOCK 0)
  else (List.range 24).foldl Dev.lswGate (d.wr 0 PLY_STAT.STATE (if d.rd 0 PLY_CFG.MODE = 1 then 1 else 5))

/-- A unit in Ply-join goes its own way with its share (R336). -/
def Dev.plySplit (d : Dev) : Dev :=
  if d.rd 0 PLY_CFG.MODE ≠ 1 || d.plySt = 3 then d
  else
    let d := d.modPly fun x => { x with joint := false, rejoin := none, lateN := 0 }
    (d.setPly 3).raise 0 Ev.PLY.SPLIT

/-- The checks of a PLY commit (R333, R334): `d'` holds the values that would become active. -/
def plyReasons (d d' : Dev) : List Nat :=
  let m := d.rd 0 PLY_CFG.MODE
  let m' := d'.rd 0 PLY_CFG.MODE
  let changed := m ≠ m' || d.rd 0 PLY_CFG.ROLE ≠ d'.rd 0 PLY_CFG.ROLE || d.rd 0 PLY_CFG.PREF ≠ d'.rd 0 PLY_CFG.PREF
    || d.rd 0 PLY_PAIRID.ID ≠ d'.rd 0 PLY_PAIRID.ID
  failIf (changed && d.anyEnergised) RC.ENERGISED ++
  failIf (m = 1 && m' ≠ 1 && (60000000 < d.rd 0 ALC_BUDGET.W || 60000000 < d.rd 0 ALC_GRID.W
    || 60000000 < d.rd 0 ALC_GRID_FB.W)) RC.RANGE ++
  failIf (m' ≠ 0 && d'.rd 0 PLY_PAIRID.ID = 0) 0x81

/-- What an accepted PLY commit starts: a change of MODE ends the pair (R333). -/
def plyCommitted (d d' : Dev) : Dev :=
  if d.rd 0 PLY_CFG.MODE ≠ d'.rd 0 PLY_CFG.MODE then d'.plyInit else d'

end Sys2Proof.Machine
end

