-- ==== Sys2Proof/Machine/Commit.lean ====
section
/-!
DEFINITION. Staging and commit (R49 to R52, R417, R418): the checks and the effects of a commit of every page, the load
figures of the CLE and of the Skein ports (R32, R150), and when a pending commit is carried out.
-/

namespace Sys2Proof.Machine

/-! ### CLE demand and port budgets (R32, R150) -/

/-- Updates a strand asks of the CLE in one period. -/
def Dev.perPeriod (d : Dev) (s : Nat) : Nat := if d.on s STR_CFG.CSAMP then 2 else 1

/-- CLE demand of the enabled strands, updates per second. -/
def Dev.cleDemand (d : Dev) : Rat :=
  (List.range 48).foldl (fun a s =>
    if d.en .str s then a + ((d.perPeriod s * ticksPerS : Nat) : Rat) / (d.rd s STR_CARRIER.PERIOD : Rat) else a) 0

/-- Whether the demand keeps R32. -/
def Dev.cleOk (d : Dev) : Bool := decide (d.cleDemand ≤ 9600000)

/-- The enabled strands whose EDGE node is on a port. -/
def Dev.portStrands (d : Dev) (k : Nat) : List Nat :=
  (List.range 48).filter fun s => d.en .str s && d.rd s STR_TLMSRC.PORT = k

/-- L and H of R150. -/
def Dev.portLH (d : Dev) (k : Nat) : Nat × Nat :=
  (d.portStrands k).foldl (fun a s => (a.1 + d.perPeriod s, max a.2 (d.rd s STR_TLMSRC.NODE))) (0, 0)

/-- W and U of R150, ns; 0 while no enabled strand names the port. A RING_PLY port adds 1,000 ns to W (R338). -/
def Dev.portWU (d : Dev) (k : Nat) : Nat × Nat :=
  let (l, h) := d.portLH k
  if l = 0 then (0, 0)
  else (4 * (92 * l + 132) + 24 * h + (if d.rd k SKN_CFG.TOPO = 2 then 1000 else 0), 300 + 4 * (44 * l + 132) + 24 * h)

/-- The shortest period of a port's strands, ticks. -/
def Dev.portT (d : Dev) (k : Nat) : Nat :=
  match (d.portStrands k).map fun s => d.rd s STR_CARRIER.PERIOD with
  | [] => 0
  | p :: ps => ps.foldl min p

/-- Whether a port keeps its budget: W ≤ 0.45 T and U ≤ TLM_DL / 100 · T, T in ns being 25/64 of its ticks. -/
def Dev.portOk (d : Dev) (k : Nat) : Bool :=
  let (w, u) := d.portWU k
  let t := d.portT k
  w = 0 || (w * 6400 ≤ 45 * 25 * t && u * 6400 ≤ d.rd 0 CLE_CFG.TLM_DL * 25 * t)

/-- CLE_LOAD and SKN_LOAD show the active configuration. -/
def Dev.showLoad (d : Dev) : Dev :=
  let d := d.wrU 0 CLE_LOAD.UPD (d.cleDemand + 1 / 2).floor
  (List.range 12).foldl (fun d k => let (w, u) := d.portWU k; (d.wrU k SKN_LOAD.W_NS w).wrU k SKN_LOAD.U_NS u) d

/-- A write of PCTRL.EN to a STR page (R32, R103, R150): the carrier starts, or the strand leaves service. -/
def Dev.strEnable (d : Dev) (s : Nat) (on : Bool) : Except Nat Dev :=
  let d' := d.wrB s (PCTRL.EN .str) on
  if d.en .str s = on then .ok d
  else if on then
    if !d'.cleOk || !d'.portOk (d.rd s STR_TLMSRC.PORT) then .error RC.CAPACITY
    else
      let d := if d'.rd s STR_STAT.STATE = 0 then d'.setStr s 1 else d'
      let d := if d.asg s = 6 then d.setAsg s 0 0 else d
      .ok (d.modStrand s fun x => { x with started := false, carrierAt := d.now }).showLoad
  else
    let d := d'.stopEdges s
    let d := match d.hoOf s with
      | some h => d.hoAbort h 5 false
      | none => if d.asg s = 1 || d.asg s = 4 then d.releaseStrand s else d
    let d := if d.rd s STR_STAT.STATE = 5 then d else d.setStr s 0
    .ok (if d.asg s = 0 then d.setAsg s 6 0 else d).showLoad

/-! ### Checks (R52) -/

/-- Words of a page between two offsets that differ between two states. -/
def wordsDiffer (d d' : Dev) (t : Tag) (n a b : Nat) : Bool :=
  (stagedOffsets t).any fun off => a ≤ off && off ≤ b && d.word t n off ≠ d'.word t n off

/-- A field differs between two states. -/
def differs (d d' : Dev) (n : Nat) (f : Field) : Bool := d.rd n f ≠ d'.rd n f

/-- STR_ORDER holds each phase number below NPH once in its slots below NPH (R107). -/
def Dev.orderOk (d : Dev) (s : Nat) : Bool :=
  let n := d.rd s STR_CFG.NPH
  let xs := (List.range n).map fun i => d.rd s (STR_ORDER.SLOT i)
  (List.range n).all fun p => xs.contains p

/-- Checks of a STR commit (R32, R91, R96, R100, R103, R107, R150; Tables STR-3, STR-9). -/
def strReasons (n : Nat) (d d' : Dev) : List Nat :=
  let run := d.strRunning n
  let b := d'.rd n STR_LOOPCFG.BANKSEL
  let carrier := differs d d' n STR_CARRIER.PERIOD || differs d d' n STR_CFG.CSAMP
  let nph := d'.rd n STR_CFG.NPH
  failIf (run && (carrier || differs d d' n STR_CFG.NPH)) RC.ENERGISED
    ++ failIf (nph * 300000 < d'.rd n STR_IMAX.MA) RC.RANGE
    ++ failIf (!d'.orderOk n || d'.rd n STR_CARRIER.PERIOD ≤ d'.rd n STR_MINPULSE.MINON + d'.rd n STR_MINPULSE.MINOFF)
        RC.RANGE
    ++ failIf (nph < d'.rd n STR_SHEDCFG.NMIN) RC.RANGE
    ++ failIf ((List.range 7).any fun k => 65535 < d'.rd n (STR_SHED.TH (k + 2)) + d'.rd n (STR_SHED.HYS (k + 2))) RC.RANGE
    ++ failIf (d'.on n STR_CFG.CSAMP && d'.rd n STR_CARRIER.PERIOD % 2 = 1) RC.PAIR
    ++ failIf (decide (d'.rdI n STR_DMAX.D ≤ d'.rdI n STR_DMIN.D)) RC.PAIR
    ++ failIf (d.en .str n && d.cleDemand < d'.cleDemand && !d'.cleOk) RC.CAPACITY
    ++ failIf ((carrier || differs d d' n STR_TLMSRC.PORT || differs d d' n STR_TLMSRC.NODE)
        && !(d'.portOk (d.rd n STR_TLMSRC.PORT) && d'.portOk (d'.rd n STR_TLMSRC.PORT))) RC.CAPACITY
    ++ failIf (run && d.rd n STR_LOOPCFG.BANKSEL = b && wordsDiffer d d' .str n (0x80 + 0x40 * b) (0xA8 + 0x40 * b)) 0x80

/-- A point's state is neither IDLE nor HELD. -/
def Dev.ptBusy (d : Dev) (p : Nat) : Bool := d.ptState p ≠ 0 && d.ptState p ≠ 9

/-- Checks of an OUT commit (R100, R122, R151; Tables OUT-2, OUT-7, OUT-8, OUT-10). -/
def outReasons (p : Nat) (d d' : Dev) : List Nat :=
  let mw := d'.rd p OUT_CFG.TYPE = 0
  let b := d'.rd p OUT_LOOPCFG.BANKSEL
  failIf (d.ptBusy p && (wordsDiffer d d' .out p 0x44 0x50 || wordsDiffer d d' .out p 0x5C 0x5C
      || wordsDiffer d d' .out p 0x380 0x394)) RC.ENERGISED
    ++ failIf (d'.rd p OUT_WELDCFG.MINV_V ≤ d'.rd p OUT_WELDCFG.TOL_V) RC.RANGE
    ++ failIf (d'.rd p OUT_DISCFG.METHOD = 0 && (d.strandsOf p).any fun s => !d.on s STR_CFG.BIDIR) RC.RANGE
    ++ failIf (d'.rd p OUT_DISCFG.METHOD = 1 && 11 < d'.rd p OUT_DISSW.PORT) RC.RANGE
    ++ failIf (d'.rd p OUT_ISOCFG.WARN_OPV ≤ d'.rd p OUT_ISOCFG.FAULT_OPV) RC.PAIR
    ++ failIf (decide (d'.rdI p OUT_OLUMAX.U ≤ d'.rdI p OUT_OLUMIN.U)) RC.PAIR
    ++ failIf (d.ptBusy p && d.rd p OUT_LOOPCFG.BANKSEL = b && wordsDiffer d d' .out p (0x310 + 0x40 * b) (0x330 + 0x40 * b))
        0x80
    ++ failIf ((if mw then 3000000 else 500000) < d'.rd p OUT_IMAX.MA || (if mw then 1250000 else 1000000) < d'.rd p OUT_VMAX.MV
        || (if mw then 3750000 else 500000) < d'.rd p OUT_PMAX.W) 0x81

/-- Checks of an AUX commit (R100; Table AUX-1). -/
def auxReasons (n : Nat) (d d' : Dev) : List Nat :=
  let node := d'.on n AUX_OUT.TYPE
  let b := d'.rd n AUX_CFG.BANKSEL
  failIf (if node then d'.on n AUX_OUT.LSW
      else d'.on n AUX_OUT.CH || d'.on n AUX_OUT.NODE || d'.on n AUX_OUT.PORT) RC.RANGE
    ++ failIf (decide (d'.rdI n AUX_UMAX.U ≤ d'.rdI n AUX_UMIN.U)) RC.PAIR
    ++ failIf (d.en .aux n && d.rd n AUX_CFG.BANKSEL = b && wordsDiffer d d' .aux n (0x60 + 0x20 * b) (0x70 + 0x20 * b)) 0x80

/-- The enabled entries of the contactor matrix. -/
def Dev.ctmOn (d : Dev) : List Nat := (List.range 64).filter fun e => d.on 0 (CTM_CONT_A.EN e)

/-- The node of an entry. -/
def Dev.ctmNode (d : Dev) (e : Nat) : Nat × Nat := (d.rd 0 (CTM_CONT_A.PORT e), d.rd 0 (CTM_CONT_A.NODE e))

/-- An entry's point or strand is energised, or its contactor is not OPEN. -/
def Dev.ctmBusy (d : Dev) (e : Nat) : Bool :=
  d.ctmState e ≠ 0 || d.energised (d.rd 0 (CTM_CONT_A.POINT e))
    || (d.rd 0 (CTM_CONT_A.ROLE e) = 1 && d.strRunning (d.rd 0 (CTM_CONT_A.STRAND e)))

/-- An enabled OUTPUT entry of a point serves a pole: 0 DC+, 1 DC−; POLE 2 serves both. -/
def Dev.poleServed (d : Dev) (p pole : Nat) : Bool :=
  d.ctmOn.any fun e => d.rd 0 (CTM_CONT_A.ROLE e) = 0 && d.rd 0 (CTM_CONT_A.POINT e) = p
    && (d.rd 0 (CTM_CONT_A.POLE e) = pole || d.rd 0 (CTM_CONT_A.POLE e) = 2)

/-- Checks of a CTM commit (R154). -/
def ctmReasons (d d' : Dev) : List Nat :=
  let on := d'.ctmOn
  let moved (e : Nat) : Bool := d.word .ctm 0 (0x40 + 8 * e) ≠ d'.word .ctm 0 (0x40 + 8 * e)
    || d.word .ctm 0 (0x44 + 8 * e) ≠ d'.word .ctm 0 (0x44 + 8 * e)
  failIf ((List.range 64).any fun e => moved e && (d.ctmBusy e || (d'.on 0 (CTM_CONT_A.EN e) && d'.ctmBusy e))) RC.ENERGISED
    ++ failIf ((List.range 64).any fun e => d'.rd 0 (CTM_CONT_A.ROLE e) = 0 && d'.on 0 (CTM_CONT_A.STRAND e)) RC.RANGE
    ++ failIf ((List.range 32).any fun p => d.en .out p && !(d'.poleServed p 0 && d'.poleServed p 1)) 0x81
    ++ failIf (on.any fun e => on.any fun f => e < f && d'.ctmNode e = d'.ctmNode f
        && (d'.rd 0 (CTM_CONT_B.COIL e) = d'.rd 0 (CTM_CONT_B.COIL f)
          || d'.rd 0 (CTM_CONT_B.AUX e) = d'.rd 0 (CTM_CONT_B.AUX f))) 0x82
    ++ failIf (on.any fun e => d'.rd (d'.ctmNode e).1 (SKN_EXPECT.POS (d'.ctmNode e).2) ≠ 2) 0x83

/-- Checks of a SKN commit (R150; Table SKN-9). -/
def sknReasons (k : Nat) (d d' : Dev) : List Nat :=
  let ring := d'.rd k SKN_CFG.TOPO = 1
  let q := d'.rd k SKN_CFG.PARTNER
  failIf ((differs d d' k SKN_CFG.TOPO || differs d d' k SKN_CFG.PARTNER)
      && (List.range 48).any fun s => d.rd s STR_TLMSRC.PORT = k && d.strRunning s) RC.ENERGISED
    ++ failIf (ring && 11 < q) RC.RANGE
    ++ failIf (!d'.portOk k) RC.CAPACITY
    ++ failIf (ring && (q = k || (q < 12 && d'.expectsNodes k && (d'.rd q SKN_CFG.TOPO ≠ 1 || d'.expectsNodes q)))) 0x81

/-- Checks of a THM commit (R162 to R166). -/
def thmReasons (c : Nat) (d d' : Dev) : List Nat :=
  let changed := wordsDiffer d d' .thm c 0x40 0x58
  failIf (changed && (d.energised (d.rd c THM_CFG.HWPT) || d.energised (d'.rd c THM_CFG.HWPT))) RC.ENERGISED
    ++ failIf (decide (d'.rdI c THM_HWTRIP.TRIP - 50 < d'.rdI c THM_HWTRIP.REL)) RC.PAIR

/-- The channels a cable names. -/
def Dev.cblChans (d : Dev) (i : Nat) : List Nat :=
  ((List.range 4).filterMap fun k => if d.on i (CBL_PINSRC.EN k) then some (d.rd i (CBL_PINSRC.CH k)) else none)
    ++ (if d.on i CBL_ENVSRC.IN_EN then [d.rd i CBL_ENVSRC.INLET] else [])
    ++ (if d.on i CBL_ENVSRC.OUT_EN then [d.rd i CBL_ENVSRC.OUTLET] else [])
    ++ (if d.on i CBL_ENVSRC.AMB_EN then [d.rd i CBL_ENVSRC.AMB] else [])

/-- No number stands twice. -/
def noRepeat : List Nat → Bool
  | [] => true
  | x :: xs => !xs.contains x && noRepeat xs

/-- The own ranges of a page's staged registers as they stand active. -/
def Dev.rangesOk (d : Dev) (t : Tag) (n : Nat) : Bool :=
  ((regFams t).filter RegFam.stagedReg).all fun r => r.offsets.all fun off =>
    r.fields.all fun f => f.rng.ok (f.hi + 1 - f.lo) (fget f.hi f.lo (d.word t n off))

/-- Checks of a CBL commit; but for the change rule they apply with EN = 1 only (R168, R169, R174, R176; Table CBL-2). -/
def cblReasons (i : Nat) (d d' : Dev) : List Nat :=
  let chans := d'.cblChans i
  let g (f : Field) : Nat := d'.rd i f
  let unstable (gs : Nat) (c : Field) : Bool := 500000 * g c < gs
  failIf (d.energised i && wordsDiffer d d' .cbl i 0x40 0x48) RC.ENERGISED ++
  (if !d'.on i CBL_CFG.EN then []
   else
    failIf (!d'.rangesOk .cbl i) RC.RANGE
      ++ failIf (d.rd i OUT_IMAX.MA < g CBL_NOSENS.MA) RC.RANGE
      ++ failIf (g CBL_ROR1.DERATE ≤ g CBL_ROR1.WARN || g CBL_ROR2.TRIP ≤ g CBL_ROR1.DERATE || g CBL_ROR1.WARN ≤ g CBL_ROR2.HYS)
          RC.RANGE
      ++ failIf (decide (d'.rdI i CBL_LIM.T_LIM ≤ d'.rdI i CBL_COOLT0.T0)) RC.RANGE
      ++ failIf (d'.on i CBL_CFG.COOL_EN && !d.on (g CBL_CFG.COOL_AUX) AUX_CFG.DIR) RC.RANGE
      ++ failIf (decide (d'.rdI i CBL_COOLT.MAX ≤ d'.rdI i CBL_COOLT.MIN)) RC.PAIR
      ++ failIf (chans.any (fun c => d.rd c THM_CFG.MODE = 0) || !noRepeat chans
          || (List.range 32).any (fun j => j ≠ i && (d.cblChans j).any chans.contains)
          || (List.range 4).any (fun k => d'.on i (CBL_PINSRC.EN k)
                && !(d.on (g (CBL_PINSRC.CH k)) THM_CFG.HWEN && d.rd (g (CBL_PINSRC.CH k)) THM_CFG.HWPT = i))) 0x81
      ++ failIf (unstable (g CBL_GCW.G + g CBL_GPC.G + g CBL_GCA.G) CBL_CC.C || unstable (g CBL_GPW.G + g CBL_GPC.G) CBL_CP.C
          || unstable (g CBL_GCW.G + g CBL_GPW.G + g CBL_GWF.G) CBL_CW.C) 0x82)

/-- The curve of a channel is in order (R184). -/
def Dev.curveOk (d : Dev) (n : Nat) : Bool :=
  let i (k : Nat) : Nat := d.rd n (LSW_CURVE_I.MA k)
  let t (k : Nat) : Nat := d.rd n (LSW_CURVE_T.MS k)
  (List.range 7).all (fun k => i k < i (k + 1) && t (k + 1) < t k) && 1 ≤ t 7 && t 0 ≤ 3600000
    && i 0 < d.rd n LSW_SHORT.A * 1000

/-- Checks of a LSW commit (R179, R184, R185; Table LSW-5). -/
def lswReasons (n : Nat) (d d' : Dev) : List Nat :=
  let fet := d'.rd n LSW_TSRC.FET
  let owners := (List.range 16).filter fun a => d.en .aux a && d.rd a AUX_OUT.TYPE = 0 && d.rd a AUX_OUT.LSW = n
  failIf (d'.on n LSW_CFG.EN && (d.rd fet THM_CFG.MODE ≠ 1 || d.rd (d'.rd n LSW_TSRC.CASE) THM_CFG.MODE = 0)) RC.RANGE
    ++ failIf (100000 < d'.rd n LSW_SHORT.A * d'.rd n LSW_RSHUNT.UOHM) RC.RANGE
    ++ failIf (d'.rd n LSW_TLIM.DT_LIM ≤ d'.rd n LSW_TLIM.DT_HYS) RC.RANGE
    ++ failIf (d'.on n LSW_CFG.AUXOWN && owners.length ≠ 1) RC.RANGE
    ++ failIf (!d'.curveOk n) RC.PAIR
    ++ failIf (d.lswOn n && (differs d d' n LSW_CFG.SLEW || differs d d' n LSW_CFG.AUXOWN || wordsDiffer d d' .lsw n 0x44 0x44
        || wordsDiffer d d' .lsw n 0x4C 0x4C)) 0x82

/-- The three fixed structures of the shared buffers (R422): 0 submission ring, 1 receive ring, 2 host slots. -/
def Dev.bufOf (d : Dev) : Nat → Nat × Nat
  | 0 => (d.rd 0 OPE_SQ_BASE.BASE * 4096, d.rd 0 OPE_SQ_SIZE.SIZE * 32)
  | 1 => (d.rd 0 VCM_RX.BASE * 4096, d.rd 0 VCM_RX.NSLOT * 2048)
  | _ => (d.rd 0 SFC_HBUF.BASE * 4096, 8192)

/-- A commit that moves a structure onto another (R422). -/
def bufReasons (i : Nat) (d d' : Dev) : List Nat :=
  let a := d'.bufOf i
  failIf (d.bufOf i ≠ a && (List.range 3).any fun j =>
    j ≠ i && (let b := d'.bufOf j; a.1 < b.1 + b.2 && b.1 < a.1 + a.2)) RC.RANGE

/-- Checks of an OPE commit (R313, R422). -/
def opeReasons (d d' : Dev) : List Nat :=
  failIf (d.on 0 OPE_CTL.SQ_EN && d.bufOf 0 ≠ d'.bufOf 0) RC.RANGE
    ++ failIf (2 ^ 22 < (d'.bufOf 0).1 + (d'.bufOf 0).2) RC.RANGE ++ bufReasons 0 d d'

/-- Checks of an HIF commit: an enabled ring keeps its base (R50). -/
def hifReasons (d d' : Dev) : List Nat :=
  failIf (d.on 0 HIF_RINGCTL.CQ_EN && wordsDiffer d d' .hif 0 0x48 0x4C) RC.RANGE
    ++ failIf (d.on 0 HIF_RINGCTL.EQ_EN && wordsDiffer d d' .hif 0 0x50 0x54) RC.RANGE

/-- Checks of an ALC commit (R58, R334). -/
def alcReasons (d d' : Dev) : List Nat :=
  failIf (d.siteMax < d'.rd 0 ALC_BUDGET.W || d.siteMax < d'.rd 0 ALC_GRID_FB.W) RC.RANGE
    ++ failIf ((List.range 16).any fun c => d'.on 0 (ALC_CABSRC.EN c)
        && decide (d'.rdI 0 (ALC_CAB.T_ZERO c) ≤ d'.rdI 0 (ALC_CAB.T_START c))) RC.PAIR

/-- Checks of a CLE commit (R150). -/
def cleReasons (d d' : Dev) : List Nat :=
  failIf (differs d d' 0 CLE_CFG.TLM_DL && !((List.range 12).all d'.portOk)) RC.CAPACITY

/-- Checks of a DTM commit (R177). -/
def dtmReasons (d' : Dev) : List Nat :=
  failIf (d'.rd 0 DTM_SD.SD_T ≤ d'.rd 0 DTM_THR.T1 + 6 * d'.rd 0 DTM_THR.STEP) RC.RANGE

/-- Whether a page exists (R413). -/
def pageExists (p : Nat) : Bool := (pageOf p).isSome

/-- The checks of a page's commit that fail: `d'` holds the staged values as active ones. -/
def commitReasons (t : Tag) (n : Nat) (d d' : Dev) : List Nat :=
  match t with
  | .str => strReasons n d d'
  | .out => outReasons n d d'
  | .aux => auxReasons n d d'
  | .ctm => ctmReasons d d'
  | .skn => sknReasons n d d'
  | .thm => thmReasons n d d'
  | .cbl => cblReasons n d d'
  | .lsw => lswReasons n d d'
  | .ope => opeReasons d d'
  | .hif => hifReasons d d'
  | .alc => alcReasons d d'
  | .cle => cleReasons d d'
  | .dtm => dtmReasons d'
  | .vcm => vcmReasons d d' ++ bufReasons 1 d d'
  | .frc => frcReasons d d' pageExists
  | .saf => safReasons d d'
  | .sfc => sfcReasons d d' ++ bufReasons 2 d d'
  | .plc => plcReasons d d'
  | .clk => clkReasons d d'
  | .trf => trfReasons d d'
  | .pwr => pwrReasons d d'
  | .ply => plyReasons d d'
  | .sys | .rst | .evt | .aon | .rtc | .jnl | .ses | .key | .cry | .lgl | .mtr | .tmp => []

/-! ### Effects -/

/-- What an accepted STR commit starts: the bank in use (R100), the carrier and NODE_PERIOD of a stopped strand (R103,
Table SKN-6), the phases of a changed NPH, the loads. -/
def strCommitted (n : Nat) (d d' : Dev) : Dev :=
  let b := d'.rd n STR_LOOPCFG.BANKSEL
  let d' := if d'.rd n STR_STAT.BANK = b then d' else (d'.wr n STR_STAT.BANK b).raise n Ev.STR.BANK_SWAPPED
  let d' := if differs d d' n STR_CFG.NPH then d'.phasesBack n else d'
  let d' :=
    if d'.strRunning n then d'
    else
      let per := d'.rd n STR_CARRIER.PERIOD + d'.rd n STR_CFG.NPH * 2 ^ 24 + (if d'.on n STR_CFG.CSAMP then 2 ^ 31 else 0)
      let d' := if differs d d' n STR_CARRIER.PERIOD then
          d'.modStrand n fun x => { x with started := false, carrierAt := d'.now } else d'
      d'.request OK.NODE_WR (leBytes 1 (d'.rd n STR_TLMSRC.PORT) ++ leBytes 1 (d'.rd n STR_TLMSRC.NODE) ++ leBytes 2 4
        ++ leBytes 4 per)
  d'.showLoad

/-- The effect of a page's accepted commit: `d` before it, `d'` with the new values. -/
def commitEffect (t : Tag) (n : Nat) (d d' : Dev) : Dev :=
  match t with
  | .str => strCommitted n d d'
  | .out =>
    let b := d'.rd n OUT_LOOPCFG.BANKSEL
    if d'.ptBusy n then d' else d'.wr n OUT_LOOPSTAT.BANK b
  | .cle | .skn => d'.showLoad
  | .thm =>
    let (x, d') := d'.drawBelow 41
    d'.modThm n fun y => { y with cmpErr := (x : Int) - 20 }
  | .cbl =>
    if d'.on n CBL_CFG.EN && !d.on n CBL_CFG.EN then d'.modCbl n fun x => { x with init := false }
    else if !d'.on n CBL_CFG.EN then d'.wr n CBL_STAT.VALID 0 else d'
  | .alc =>
    if differs d d' 0 ALC_GRID_TMO.MS then { d' with alc := { d'.alc with gridAt := d'.now, gridFb := false } } else d'
  | .frc => d'.frcLayout
  | .saf => safCommitted d d'
  | .sfc => sfcCommitted d d'
  | .plc => plcCommitted d d'
  | .clk => clkCommitted d d'
  | .trf => trfCommitted d'
  | .pwr => pwrCommitted d'
  | .ply => plyCommitted d d'
  | .vcm => { d' with vcm := { d'.vcm with pts := d'.vcm.pts.map fun e => (e.1, { e.2 with driven := none }) } }
  | .lsw => if differs d d' n LSW_PWM.FREQ then d'.pwmRetime n else d'
  | .aux | .ctm | .ope | .hif | .dtm | .sys | .rst | .evt | .aon | .rtc | .jnl | .ses | .key | .cry | .lgl | .mtr
  | .tmp => d'

/-! ### Carrying a commit out (R50) -/

/-- The staged copies of a page become its active registers. -/
def Dev.stagedActive (d : Dev) (t : Tag) (n : Nat) : Dev :=
  (stagedOffsets t).foldl (fun d off => d.setWord t n off (d.word t n (0x800 + off))) d

/-- The pages that stay each unit's own in Ply-guard (R339). -/
def plyOwn (t : Tag) : Bool :=
  legalTag t || (match t with
    | .sys | .rst | .clk | .dtm | .key | .cry | .frc | .hif | .ply | .rtc | .evt | .aon | .pwr => true
    | _ => false)

/-- The active staged area of a page, as offsets and words. -/
def Dev.stagedArea (d : Dev) (t : Tag) (n : Nat) : List (Nat × Word) := (stagedOffsets t).map fun off => (off, d.word t n off)

/-- Carry out the commit of a page (R50): all of it, or none with the reason. The active unit of a pair mirrors it
(R339). -/
def Dev.commit (d : Dev) (t : Tag) (n : Nat) : Dev :=
  let d' := d.stagedActive t n
  match firstReason (commitReasons t n d d') with
  | some r => (d.wr n (STAGE_STAT.STATE t) 3).wr n (STAGE_STAT.REASON t) r
  | none =>
    let d := (((commitEffect t n d d').wr n (STAGE_STAT.STATE t) 0).inc n (STAGE_STAT.COMMITS t)).seqInc t n
    if d.plyActive && d.plyPaired && !plyOwn t then d.plySend (.mirror (.commit (pageIx t n) (d.stagedArea t n))) else d

/-- When the commit of a page was requested. -/
def Dev.stagedAt (d : Dev) (t : Tag) (n : Nat) : Nat := d.stageAt.get (fun _ => 0) (pageIx t n)

/-- The commit of a page that waits for it. -/
def Dev.commitPending (d : Dev) (t : Tag) (n : Nat) : Dev := if d.rd n (STAGE_STAT.STATE t) = 2 then d.commit t n else d

/-- The commit of a page that waits for a boundary: one requested in the boundary's own cycle waits for the next (R59,
R101). -/
def Dev.commitAt (d : Dev) (t : Tag) (n b : Nat) : Dev := if d.stagedAt t n < b then d.commitPending t n else d

/-- A strand's next sample boundary has come after an instant. -/
def Dev.boundaryDue (d : Dev) (s since : Nat) : Bool :=
  let b := (d.strand s).boundary + d.rd s STR_CARRIER.PERIOD
  (d.strand s).started && b ≤ d.now && since < b

/-- A page's commit boundary has come (R50, R103, R417). -/
def Dev.commitDue (d : Dev) (t : Tag) (n : Nat) : Bool :=
  match t with
  | .str => !d.en .str n || d.boundaryDue n (d.stagedAt t n)
  | .cle =>
    let run := (List.range 48).filter d.strRunning
    run.isEmpty || run.any fun s => d.boundaryDue s (d.stagedAt t n)
  | .alc => !d.alc.started || (d.rowEnd ≤ d.now && d.stagedAt t n < d.rowEnd)
  | .trf => d.lgl.rtc.secAt = (d.now : Int)
  | _ => true

/-- Effect of STAGE_COMMIT_APPLY (R50). -/
def stageCommitApplyEffect (b : Tag) (n : Nat) (d : Dev) : Dev :=
  if n < b.count && d.rd n (STAGE_STAT.STATE b) = 2 && d.pageUp b n && d.commitDue b n then d.commit b n else d

/-- STAGE_COMMIT_APPLY (R50). -/
def execStageCommitApply (t : Nat) (b : Tag) (n : Nat) (s : State) := onDev t (stageCommitApplyEffect b n) s

/-- A write of STAGE that the page's lock admits (R50): BAD_KEY, STAGE_BUSY, or the commit pending. In STATE 0 nothing
changes. -/
def Dev.stageKey (d : Dev) (t : Tag) (n key : Nat) : Except Nat Dev :=
  let st := d.rd n (STAGE_STAT.STATE t)
  if key ≠ 0x5713 then .error RC.BAD_KEY
  else if st = 2 then .error RC.STAGE_BUSY
  else if st = 0 then .ok d
  else .ok { d.wr n (STAGE_STAT.STATE t) 2 with stageAt := d.stageAt.set (fun _ => 0) (pageIx t n) d.now }

end Sys2Proof.Machine
end

