-- ==== Sys2Proof/Machine/Reset.lean ====
section
/-!
DEFINITION. Cast-on and reset (R402 to R412): the reset classes, the steps of cast-on, the scan and the replay of the
journal (R326 to R328), SYS requests and the quiesce window (R325, R409, R410), the supplies and the power-fail warning
(R324, R402).
-/

namespace Sys2Proof.Machine

/-! ### Reset classes (Table RST-2) -/

/-- Change the record of cast-on. -/
def Dev.modSys (d : Dev) (f : Sys → Sys) : Dev := { d with sys := f d.sys }

/-- Whether a reset class returns a page to its reset values. -/
def Dev.castResets (d : Dev) (t : Tag) (n : Nat) : Bool :=
  if legalTag t then false
  else
    match d.sys.cls with
    | .por | .cpor => true
    | .wake => d.sys.back.contains (domOf t n).ix
    | .sys | .thermal | .retfail =>
      !(domOf t n = .aon || domOf t n = .safe) && !(d.sys.cls = .sys && t = .frc && d.rd 0 FRC_STAT.STATE = 3)

/-- Pages that satisfy a test return to reset. -/
def Dev.resetPages (d : Dev) (p : Tag → Nat → Bool) : Dev :=
  Tag.all.foldl (fun d t => (List.range t.count).foldl (fun d n => if p t n then d.resetPage t n else d) d) d

/-- Pages that the runtime returns to reset once it is loaded; the others return when cast-on begins, since nothing
reaches them before it (R404). -/
def lateTag : Tag → Bool
  | .sys | .evt | .key => true
  | _ => false

/-- Instants of the L-die follow the timebase count that starts again at 0 (R440). -/
def Lgl.rebase (l : Lgl) (t : Nat) : Lgl :=
  { l with rtc := { l.rtc with secAt := l.rtc.secAt - t, slewAt := l.rtc.slewAt - t }, romAt := l.romAt - t,
           chs := l.chs.map fun e => (e.1, { e.2 with lostAt := e.2.lostAt - t }),
           chal := l.chal.map fun c => (c.1, c.2.1, c.2.2 - t), fails := l.fails.map (· - t), lockEnd := l.lockEnd - t,
           lockAt := l.lockAt.map (· - t), roleAt := l.roleAt - t }

/-- RST_CAUSE and RST_HIST take the cause of a cast-on (R411). -/
def Dev.noteCause (d : Dev) : Dev :=
  let y := d.sys
  let old := d.rd 0 RST_CAUSE.CODE
  let d :=
    if y.cls = .por || y.cls = .cpor then d
    else
      let d := [3, 2, 1].foldl (fun d k => d.wr 0 (RST_HIST.CODE k) (d.rd 0 (RST_HIST.CODE (k - 1)))) d
      d.wr 0 (RST_HIST.CODE 0) old
  let d := ((d.wr 0 RST_CAUSE.CODE y.cause).wrB 0 RST_CAUSE.MERGED y.merged).wrB 0 RST_CAUSE.QFORCED y.qforced
  ((d.wr 0 RST_CAUSE.SENSOR y.sensor).raise 0 Ev.RST.CAUSE_VALID).modSys fun x => { x with castons := x.castons + 1 }

/-- The timebase count starts again at 0 as the C-die leaves power-on reset (R440). -/
def Dev.timeZero (d : Dev) : Dev :=
  let t := d.now
  { d with now := 0, lgl := d.lgl.rebase t, clk := { d.clk with refAt := 0, lossAt := none },
           key := { d.key with failAt := d.key.failAt - t } }

/-- What POR and C-POR clear beyond the pages. -/
def Dev.porClear (d : Dev) : Dev :=
  let d := { d with die := {}, pwr := {}, vaux := {} }
  (d.modSys fun x => { x with castons := 0, jtag := .idcode }).setWord .hif 0 0x6C (resetWord (pageIx .hif 0 * 4096 + 0x6C))

/-- Cast-on of the C-die begins, in a class, for a cause, bringing domains back (R404, R408). -/
def Dev.castStart (d : Dev) (c : RstClass) (cause : Nat) (back : List Nat) : Dev :=
  let d := if d.sys.step = 1 then d.noteCause else d
  let d := d.modSys fun x => { x with step := 1, cls := c, cause := cause, merged := false, qforced := false, sensor := 0,
                                      loadAt := 0, replayed := false, back := back, wakeDone := false, pend := none }
  let d := if c = .por || c = .cpor then d.porClear else d
  let d := if (c = .sys || c = .cpor) && d.lglUp then d.clReset else d
  let d := if c = .sys then d.inc 0 RST_COUNT.COUNT else d
  let p := d.castResets
  let d := d.resetPages fun t n => p t n && !lateTag t
  let d := if p .hif 0 then d.hifReset false else d
  let d := (((d.setWord .sys 0 SYS_STAT.STOP.off 0#32).wr 0 KEY_LC.DBGEN 0).wr 0 KEY_LC.SWATCH 0)
  let d := back.foldl (fun d i => d.setDomState (domAt i) 0) (d.wr 0 PWR_ENTRY.PHASE 0)
  let d := { d with ope := { d.ope with quiesce := none }, host := { d.host with cqHeld := [] },
                    pwr := { d.pwr with lower := [], up := [], pend := 0 } }
  let d := if c = .thermal then { d with die := {} } else d
  let d := if p .alc 0 then d.wr 0 ALC_STAT.PRICE_STALE 1 else d
  if c = .por || c = .cpor || c = .thermal then (d.pllStart 0).pllStart 1 else d

/-- Every domain. -/
def allDoms : List Nat := List.range 18

/-- A cast-on begins; every class but SYS loses or scrubs the shared buffers (Table RST-2). -/
def State.cast (s : State) (d : Dev) (c : RstClass) (cause : Nat) (back : List Nat) : State :=
  { s with dev := d.castStart c cause back, mem := if c = .sys then s.mem else { s.mem with sram := [] } }

/-! ### Configuration (R390, R404 step 5) -/

/-- A word with the fields of some access codes taken from another. -/
def RegFam.blend (r : RegFam) (old w : Word) (p : Acc → Bool) : Word :=
  r.fields.foldl (fun x f => if p f.acc then fset f.hi f.lo x (fget f.hi f.lo w) else x) old

/-- A word of the image that is not staged: PCTRL, EVT_EN, or RW fields. -/
def Dev.cfgOther (d : Dev) (t : Tag) (n : Nat) (e : Nat × Word) : Dev :=
  if e.1 = 0x008 then
    let en := e.2.getLsbD 0
    let d := if t = .str then (match d.strEnable n en with | .ok d => d | .error _ => d) else d.wrB n (PCTRL.EN t) en
    if e.2.getLsbD 2 then d.wr n (PCTRL.LOCK t) 1 else d
  else if e.1 = 0x014 then d.setWord t n 0x014 (e.2 &&& BitVec.ofNat 32 (evtBits t n))
  else
    match famAt t n e.1 with
    | some r => d.setWord t n e.1 (r.blend (d.word t n e.1) e.2 (· = .rw))
    | none => d

/-- Apply the image to one page: its staged values in one commit, omitted where a kept page holds them already, then
the rest. -/
def Dev.cfgPage (d : Dev) (t : Tag) (n : Nat) (kept : Bool) (ws : List (Nat × Word)) : Dev :=
  let d := ws.foldl (fun d e =>
    match famAt t n e.1 with
    | some r => if r.stagedReg then d.setWord t n (0x800 + e.1) (r.blend (d.word t n (0x800 + e.1)) e.2 (· = .rws)) else d
    | none => d) d
  let same := (stagedOffsets t).all fun off => d.word t n off = d.word t n (0x800 + off)
  ws.foldl (fun d e => d.cfgOther t n e) (if !hasStaged t n || (kept && same) then d else d.commit t n)

/-- Apply the running configuration image to the pages of the domains that are ON and pass a test. -/
def Dev.applyCfg (d : Dev) (sel kept : Tag → Nat → Bool) : Dev :=
  let b := d.key.cfgRun
  let ws := Config.cfgWords (d.flash (bankBase b + 256) (d.imgNum b 12 4))
  (ws.map (·.1 / 4096)).eraseDups.foldl (fun d p =>
    match pageOf p with
    | some (t, n) =>
      if legalTag t || !d.domOn (domOf t n) || !sel t n then d
      else d.cfgPage t n (kept t n) (ws.filterMap fun e => if e.1 / 4096 = p then some (e.1 % 4096, e.2) else none)
    | none => d) d

/-! ### The journal at cast-on (R326 to R328) -/

/-- Insert before the first element with a larger key. -/
def insertBy {α : Type} (k : α → Nat) (x : α) : List α → List α
  | [] => [x]
  | y :: ys => if k x < k y then x :: y :: ys else y :: insertBy k x ys

/-- In ascending order of a key. -/
def sortBy {α : Type} (k : α → Nat) (l : List α) : List α := l.foldl (fun a x => insertBy k x a) []

/-- The record with the highest SEQ. -/
def newestRec (l : List (Nat × JRec)) : Option (Nat × JRec) :=
  l.foldl (fun a e => match a with
    | none => some e
    | some b => if b.2.seq < e.2.seq then some e else some b) none

/-- The operation a record of KIND ISSUE or MOVED names. -/
def opOfRec (e : Nat × JRec) : Op :=
  { cls := e.2.cls, kind := e.2.opkind, args := opArgs e.2.body, host := e.2.tag ≠ 0xFFFF, tag := e.2.tag, phase := .issued,
    slot := e.2.slot, refSeq := e.2.ref, recIdx := e.1 }

/-- The completion entry owed for a DONE record. -/
def cqOfRec (e : Nat × JRec) : CqEntry :=
  let fl := leAt e.2.body 2 1
  { tag := e.2.tag, cls := e.2.cls, replayed := fl.testBit 0, compensated := fl.testBit 1, status := leAt e.2.body 0 2,
    jnlIndex := e.1, time := e.2.time }

/-- The operations in flight that records show: no DONE of the same REF; each by its newest record, in order of issue. -/
def flightOf (ring : List (Nat × JRec)) : List Op :=
  let dones := ring.filterMap fun (e : Nat × JRec) => if e.2.kind = 2 then some e.2.ref else none
  let isOp (r : JRec) : Bool := r.kind = 1 || r.kind = 3
  sortBy Op.refSeq ((ring.filter fun (e : Nat × JRec) => isOp e.2 && !dones.contains e.2.ref
    && ring.all fun x => !(isOp x.2 && x.2.ref = e.2.ref && e.2.seq < x.2.seq)).map opOfRec)

/-- The newest SESSION record of each loop, as ring index plus 1. -/
def sessionsOf (ring : List (Nat × JRec)) : AMap Nat :=
  (List.range 64).foldl (fun m k =>
    match newestRec (ring.filter fun (e : Nat × JRec) => e.2.kind = 4 && leAt e.2.body 0 1 = k) with
    | some e => m.set (fun _ => 0) k (e.1 + 1)
    | none => m) []

/-- The scan (R326): `bad` names the records whose CRC fails. -/
def Dev.jnlScan (bad : List Nat) (d : Dev) : Dev :=
  let lost := d.ope.jnl.filter fun e => bad.contains e.1
  let jnl := d.ope.jnl.filter fun e => !bad.contains e.1
  let recs := jnl.filterMap fun e => e.2.map fun r => (e.1, r)
  let ring := recs.filter fun e => 64 ≤ e.1
  let head := match newestRec ring with | some e => ringNext e.1 | none => 64
  let owed := sortBy (fun (e : Nat × JRec) => e.2.seq) (ring.filter fun (e : Nat × JRec) => e.2.kind = 2 && !e.2.dlv)
  let none' := owed.filter fun (e : Nat × JRec) => e.2.tag = 0xFFFF
  let d := { d with ope := { d.ope with jnl := jnl, flight := flightOf ring, sesRec := sessionsOf ring },
                    host := { d.host with cqHeld := (owed.filter fun (e : Nat × JRec) => e.2.tag ≠ 0xFFFF).map cqOfRec } }
  let d := none'.foldl (fun d e => d.setDlv e.1) d
  let back (i : Nat) : Nat := let k := (head + 65472 - i) % 65472; if k = 0 then 65472 else k
  let used := ((ring.map (·.1)).filter d.jnlLive).foldl (fun a i => max a (back i)) 0
  let d := { d with ope := { d.ope with used := used } }
  let d := (d.wr 0 JNL_HEAD.IDX head).wr 0 JNL_TAIL.IDX (64 + (head - 64 + 65472 - used) % 65472)
  let d := d.wr64 0 JNL_SEQ_LO.SEQ JNL_SEQ_HI.SEQ (recs.foldl (fun a e => max a e.2.seq) 0)
  let d := match newestRec (recs.filter fun (e : Nat × JRec) => e.1 < 64) with
    | some e => (d.wr 0 JNL_EMERG.VALID 1).wr 0 JNL_EMERG.IDX e.1
    | none => d
  let d := d.wrU 0 JNL_CRCERR.COUNT lost.length
  if lost.isEmpty then d else d.raise 0 Ev.JNL.SCAN_CRC

/-- An operation found in flight completes at once (R327). -/
def Dev.replayClose (d : Dev) (o : Op) (status : Nat) (comp : Bool) : Dev :=
  d.opClose { o with phase := .finished, status := status, compensated := comp }

/-- The payload of a replayed operation is the one it was issued with. -/
def Op.payloadOk (sram : AMap Byte) (o : Op) : Bool :=
  !opHasCrc o.kind || o.arg 20 4 = crc32c (sram.getBytes (o.arg 16 4) (o.arg 10 2))

/-- The three passes over the operations found in flight (R327). -/
def Dev.replayOps (sram : AMap Byte) (d : Dev) : Dev :=
  let ops := d.ope.flight
  let comp := ops.filter fun o => opReplay o.kind = 2
  let again := ops.filter fun o => opReplay o.kind = 0 && o.payloadOk sram
  let torn := ops.filter fun o => opReplay o.kind = 0 && !o.payloadOk sram
  let never := ops.filter fun o => opReplay o.kind = 1
  let d := comp.foldl (fun d o => (d.requestSafe (o.kind + 1) (o.arg 8 1)).replayClose o 0 true) d
  let d := torn.foldl (fun d o => d.replayClose o 7 false) d
  let d := again.foldl (fun d o => d.setOp o.slot fun o => { o with replayed := true }) d
  let d := never.foldl (fun d o => (d.imgInterrupted o).replayClose o 7 false) d
  ((d.wr 0 OPE_REPLAY.COMPENSATED comp.length).wr 0 OPE_REPLAY.REPLAYED again.length).wr 0 OPE_REPLAY.INTERRUPTED
    (torn.length + never.length)

/-- A session found live is reopened as INTERRUPTED (R213, R328). -/
def Dev.sesReopen (d : Dev) (m : Nat) : Dev :=
  match d.ope.sesRec.get (fun _ => 0) m with
  | 0 => d
  | i + 1 =>
    match d.jrec i with
    | some r =>
      let st := leAt r.body 3 1
      if 3 ≤ st && st ≤ 5 then
        let d := (d.wr 0 (SES_STAT.GEN m) (leAt r.body 1 1)).wr 0 (SES_STAT.POINT m) (leAt r.body 2 1)
        ((d.wr 0 (SES_STAT.CAUSE m) 0x0E).setSes m 7).raise 0 Ev.SES.INTERRUPTED
      else d
    | none => d

/-- Replay (R327, R328): afterwards the pairs opened by a quiesce window follow R295 again (R325). -/
def Dev.replay (sram : AMap Byte) (d : Dev) : Dev :=
  let d := (List.range 64).foldl Dev.sesReopen (d.replayOps sram)
  (d.raise 0 Ev.OPE.REPLAY_DONE).modSys fun x => { x with replayed := true, pairHold := 0 }

/-! ### Banks at cast-on (R366, R367) -/

/-- Trial boots counted for a kind. -/
def Dev.trialsOf (d : Dev) (kind : Nat) : Nat := d.key.trials.get (fun _ => 0) kind

/-- Banks of a kind in the order in which they are tried: a trial with trial boots left, the confirmed one, its fallback,
a trial without. -/
def Dev.bankOrder (d : Dev) (kind : Nat) : List Nat :=
  let bs := [2 * kind, 2 * kind + 1]
  let trial := bs.filter fun b => d.bank b = 2
  let rest := bs.filter (fun b => d.bank b = 1) ++ bs.filter fun b => d.bank b = 0 && d.key.fallback.get (fun _ => false) b
  if d.trialsOf kind < 3 then trial ++ rest else rest ++ trial

/-- The first bank that passes; those that fail before it become INVALID. -/
def Dev.tryBanks : List Nat → Dev → Option Nat × Dev
  | [], d => (none, d)
  | b :: bs, d =>
    if d.imgOk b && d.key.minSvn ≤ d.imgSvn b then (some b, d) else Dev.tryBanks bs (d.setBank b 3)

/-- Pick the bank of a kind: a trial boot is counted; a fall from TRIAL to CONFIRMED raises IMG_FALLBACK. -/
def Dev.pickBank (d : Dev) (kind : Nat) : Option Nat × Dev :=
  let order := d.bankOrder kind
  let hadTrial := order.any fun b => d.bank b = 2
  let (b, d) := Dev.tryBanks order d
  match b with
  | none => (none, d)
  | some b =>
    if d.bank b = 2 then
      let d := { d with key := { d.key with trials := d.key.trials.set (fun _ => 0) kind (d.trialsOf kind + 1) } }
      (some b, d.wr 0 KEY_IMG.TRIALS (d.trialsOf 0))
    else (some b, if hadTrial && d.bank b = 1 then d.raise 0 Ev.KEY.IMG_FALLBACK else d)

/-! ### The steps of cast-on (R404, R405) -/

/-- The next step. -/
def Dev.castNext (d : Dev) : Dev := d.modSys fun x => { x with step := x.step + 1 }

/-- Cast-on stops (Table SYS-1). -/
def Dev.castStop (d : Dev) (n : Nat) : Dev := (d.wr 0 SYS_STAT.STOP n).raise 0 Ev.SYS.CASTON_STOP

/-- Step 2: OTP is loaded, a first start makes the root, a debug arming is consumed (R350, R353, R356). -/
def Dev.castOtp (rootFails : Nat) (d : Dev) : Dev :=
  let made := d.key.root.isNone && d.key.lc = 0 && rootFails < 3
  let d :=
    if made then
      let (x, d) := d.drawBytes 32
      Dev.lcBecome { d with key := { d.key with root := some x } } 1
    else d
  if d.key.root.isNone && d.key.lc = 0 then (d.showKey).castStop 1
  else if d.key.lc = 4 then (d.showKey).castStop 2
  else
    let dbg := d.key.armed
    let d := { d with key := { d.key with armed := false } }
    let d := (d.wrB 0 KEY_LC.DBGEN dbg).wrB 0 KEY_LC.SWATCH dbg
    (if dbg then d.tamperUp 8 0 else d).showKey.castNext

/-- Step 4: the runtime bank is picked, and its load begins; without one, recovery (R405). -/
def Dev.castRuntime (bad : List Nat) (d : Dev) : Dev :=
  match d.pickBank 0 with
  | (none, d) => (d.jnlScan bad).castStop 3
  | (some b, d) =>
    let d := (d.wr 0 KEY_IMG.BOOTBANK (b % 2)).wr 0 KEY_IMGVER.VER (d.imgNum b 4 4)
    (d.modSys fun x => { x with loadAt := d.now }).castNext

/-- Step 5: the runtime returns the pages left to reset, sets BOOTED, and applies the configuration bank. Rows start at
the first whole millisecond (R54). -/
def Dev.castBoot (bad : List Nat) (d : Dev) : Dev :=
  let ver := d.rd 0 KEY_IMGVER.VER
  let p := d.castResets
  let d := d.resetPages fun t n => p t n && lateTag t
  let d := ((d.wr 0 KEY_IMGVER.VER ver).wr 0 SYS_FWVER.VER ver).wr 0 SYS_CASTONS.COUNT d.sys.castons
  let d := (d.wr 0 SYS_STAT.BOOTED 1).raise 0 Ev.SYS.BOOTED
  match d.pickBank 1 with
  | (none, d) => (d.jnlScan bad).castStop 4
  | (some b, d) =>
    let d := { d with key := { d.key with cfgRun := b } }
    let d := d.applyCfg (fun _ _ => true) fun t n => !p t n
    let d := (d.wr 0 SYS_STAT.CONFIGURED 1).raise 0 Ev.SYS.CONFIGURED
    let d := if p .alc 0 then { d with alc := { d.alc with firstAt := (d.now + ticksPerMs - 1) / ticksPerMs * ticksPerMs } }
      else d
    (d.wrB 0 ALC_STAT.PRICE_STALE (!d.alc.priceNew)).castNext

/-! ### Release (R407) -/

/-- SYS_BLOCK: the conditions not met. -/
def Dev.sysBlock (d : Dev) : Nat :=
  let b (k : Nat) (ok : Bool) : Nat := if ok then 0 else 2 ^ k
  b 0 (d.on 0 SYS_STAT.BOOTED && d.on 0 SYS_STAT.CONFIGURED && d.rd 0 SYS_STAT.STOP = 0)
    + b 1 d.sys.replayed
    + b 2 (d.on 0 LGL_STAT.READY && d.on 0 LGL_STAT.ROMOK)
    + b 3 (!d.on 0 CLK_STAT.FB)
    + b 4 (d.on 0 SAF_STAT.READY && !d.on 0 SAF_STAT.FAIL)
    + b 5 (d.key.lc = 1 || d.key.lc = 2)
    + b 6 (!d.ope.pfail && !d.lglPfail)
    + b 7 ([Dom.core, .cle, .alc, .ope, .mem].all d.domOn)

/-- A write of SYS_CTL. In a quiesce window the reset governs (R410). -/
def Dev.sysRelease (d : Dev) (v : Nat) : Except Nat Dev :=
  if v % 2 = 0 || d.ope.quiesce.isSome then .ok d
  else if d.sysBlock ≠ 0 then .error 0x81
  else .ok ((d.wr 0 SYS_STAT.RELEASED 1).raise 0 Ev.SYS.RELEASED)

/-- Step 8: READY once only the host's release is missing; it ends cast-on. -/
def Dev.castReady (d : Dev) : Dev :=
  if d.sysBlock ≠ 0 then d
  else
    let d := (d.wr 0 SYS_STAT.READY 1).raise 0 Ev.SYS.READY
    d.modSys fun x => { x with step := 0 }

/-- Cast-on goes on: no supply is missing, CORE is ON, RSTN does not hold it (R402, R409). -/
def Dev.castGoes (d : Dev) : Bool :=
  !d.sys.held && d.domOn .core && d.rd 0 SYS_STAT.STOP = 0 && d.die.shutAt.isNone
    && !(d.sys.rstn && d.on 0 RST_CFG.RSTN_EN)

/-- Effect of CAST_ON_ADVANCE: `rootFails` the root generations that fail (R350), `bad` the journal records whose CRC
fails (R321). -/
def castOnAdvanceEffect (rootFails : Nat) (bad : List Nat) (sram : AMap Byte) (d : Dev) : Dev :=
  if !d.castGoes then d
  else
    match d.sys.step with
    | 1 => if d.pllLocked 0 && d.pllLocked 1 then d.noteCause.castNext else d
    | 2 => d.castOtp rootFails
    | 3 => d.castNext
    | 4 => d.castRuntime bad
    | 5 => d.castBoot bad
    | 6 => ((d.jnlScan bad).replay sram).castNext
    | 7 =>
      let d := if d.castResets .ply 0 then d.plyInit else d
      let d := if d.sys.wakeDone then d.raise 0 Ev.PWR.WAKE_DONE else d
      (d.modSys fun x => { x with wakeDone := false }).castNext
    | 8 => d.castReady
    | _ => d

/-- CAST_ON_ADVANCE (R404). -/
def execCastOnAdvance (t : Nat) (rootFails : Nat) (bad : List Nat) (s : State) :=
  onDev t (castOnAdvanceEffect rootFails bad s.mem.sram) s

/-- Effect of BOOT_WATCHDOG: 2,000 ms after the start of the load (R406). -/
def bootWatchdogEffect (d : Dev) : Dev :=
  if d.castGoes && d.sys.step = 5 && !d.on 0 SYS_STAT.BOOTED && d.sys.loadAt + 2000 * ticksPerMs ≤ d.now then
    d.castStart .sys 5 allDoms
  else d

/-- BOOT_WATCHDOG (R406). -/
def execBootWatchdog (t : Nat) (s : State) := onDev t bootWatchdogEffect s

/-! ### SYS reset (R325, R409, R410) -/

/-- The end of the quiesce window: the recorder is cut, a RESET record written, and the reset proceeds. -/
def Dev.quiesceEnd (d : Dev) (forced : Bool) : Dev :=
  let y := d.sys
  let d := d.frcCut
  let body := [BitVec.ofNat 8 y.cause, if forced then 1#8 else 0#8]
  let (_, d) := d.jnlWrite fun seq time => { kind := 6, seq := seq, time := time, body := body }
  (d.castStart .sys y.cause allDoms).modSys fun x => { x with merged := y.merged, qforced := forced }

/-- The pairs that the window has still to open. -/
def Dev.quiesceLeft (d : Dev) : List Nat := (List.range 8).filter fun q => d.quiesces q && d.pairOn q

/-- The window ends once every such pair is open. -/
def Dev.quiesceCheck (d : Dev) : Dev := if d.ope.quiesce.isSome && d.quiesceLeft.isEmpty then d.quiesceEnd false else d

/-- Every strand's node has stopped at STOP with IMM (R135, R147). -/
def Dev.strandsStop (d : Dev) : Dev :=
  (List.range 48).foldl (fun d s => d.modStrand s fun x => { x with stopped := true, armed := false }) d

/-- A SYS reset is requested for a cause, 2 host, 3 management, 4 pin, 5 watchdog (R409, R410). -/
def Dev.sysRequest (d : Dev) (cause : Nat) : Dev :=
  if d.sys.held then d
  else
    let d := if d.rd 0 FRC_STAT.STATE = 1 && d.domOn .frc then d.frcTrigger 5 d.now else d
    if d.ope.quiesce.isSome || d.sys.pend.isSome then d.modSys fun x => { x with merged := true }
    else if d.rd 0 PWR_ENTRY.PHASE ≠ 0 then d.modSys fun x => { x with pend := some cause }
    else if !d.domOn .core then
      (if d.die.shutAt.isSome then d else d.raiseDoms allDoms).modSys fun x => { x with pend := some cause }
    else if !d.on 0 SYS_STAT.RELEASED then d.frcCut.castStart .sys cause allDoms
    else
      let d := { d with ope := { d.ope with quiesce := some d.now }, sys := { d.sys with cause := cause, merged := false } }
      (d.raise 0 Ev.OPE.QUIESCE).sendStopImm.strandsStop.quiesceCheck

/-- A write of RST_REQ, from the PCI Express endpoint or the management port (R409). -/
def Dev.rstReq (d : Dev) (mgmt : Bool) (key : Nat) : Except Nat Dev :=
  if key = 0x2B0F then .ok (d.sysRequest (if mgmt then 3 else 2)) else .error RC.BAD_KEY

/-- RSTN_ASSERT (R409): 10 µs low. -/
def rstnAssertEffect (d : Dev) : Dev :=
  let d := d.modSys fun x => { x with rstn := true }
  if d.on 0 RST_CFG.RSTN_EN then d.sysRequest 4 else d

/-- RSTN_ASSERT (R409). -/
def execRstnAssert (t : Nat) (s : State) := onDev t rstnAssertEffect s

/-- RSTN_RELEASE (R409). -/
def execRstnRelease (t : Nat) (s : State) := onDev t (fun d => d.modSys fun x => { x with rstn := false }) s

/-- Effect of RUNTIME_WATCHDOG_EXPIRY: a runtime that runs has not serviced its watchdog. -/
def runtimeWatchdogExpiryEffect (d : Dev) : Dev := if d.on 0 SYS_STAT.BOOTED && d.domOn .core then d.sysRequest 5 else d

/-- RUNTIME_WATCHDOG_EXPIRY (R409). -/
def execRuntimeWatchdogExpiry (t : Nat) (s : State) := onDev t runtimeWatchdogExpiryEffect s

/-- Effect of QUIESCE_TIMEOUT: at 2 ms the pairs still closed are opened. -/
def quiesceTimeoutEffect (d : Dev) : Dev :=
  match d.ope.quiesce with
  | some t0 =>
    if t0 + 2 * ticksPerMs ≤ d.now then
      let left := d.quiesceLeft
      let d := left.foldl Dev.pairCut d
      (if left.isEmpty then d else d.raise 0 Ev.OPE.QUIESCE_FORCED).quiesceEnd (!left.isEmpty)
    else d
  | none => d

/-- QUIESCE_TIMEOUT (R325). -/
def execQuiesceTimeout (t : Nat) (s : State) := onDev t quiesceTimeoutEffect s

/-! ### Supplies (R402, R403) -/

/-- Rails in the set of the C-die, of the L-die (Table RST-1). -/
def railC (r : Rail) : Bool := r ≠ .vddL
def railL (r : Rail) : Bool := r = .vddL || r = .vddM || r = .vio || r = .vaon

/-- Effect of RAIL_INVALID: power-on reset is asserted on the dies of its sets. Output switches and load switches are
off, and what the C-die's supply holds is lost (R396, R402). -/
def railInvalidEffect (r : Rail) (d : Dev) : Dev :=
  let d := d.modSys fun x => { x with rails := if x.rails.contains r then x.rails else x.rails ++ [r] }
  let d := if railL r then (d.lDieDown.modPll 2 fun x => { x with state := 0 }).modSys fun x => { x with lheld := true } else d
  if !railC r then (if d.sys.held then d.modSys fun x => { x with cls := .por, cause := 1 } else d)
  else
    let c : RstClass := if d.sys.lheld then .por else if d.sys.held then d.sys.cls else .cpor
    let d := (d.modSys fun x => { x with pairHold := 0 }).pairsOff.lswAllOff
    let d := { d with edram := [], host := { d.host with d3 := false } }
    (d.castStart c (if c = .por then 1 else 9) allDoms).modSys fun x => { x with held := true }

/-- RAIL_INVALID (R402): the shared buffers are lost with the C-die's supply. -/
def execRailInvalid (t : Nat) (r : Rail) (s : State) : Host.Outcome State Fault Refusal :=
  .next { s with dev := railInvalidEffect r (Dev.at t s.dev),
                 mem := if railC r then { s.mem with sram := [] } else s.mem }

/-- Effect of POWER_ON_RESET_RELEASE: 2 ms after every rail of the die's set is valid. -/
def powerOnResetReleaseEffect (die : Sys2Proof.Die) (d : Dev) : Dev :=
  match die with
  | .c =>
    if !d.sys.held then d
    else
      let d := d.modSys fun x => { x with held := false, rails := x.rails.filter fun r => !railC r }
      d.timeZero.castStart d.sys.cls d.sys.cause allDoms
  | .l =>
    if !d.sys.lheld then d
    else (d.modSys fun x => { x with lheld := false, rails := x.rails.filter fun r => !railL r }).pllStart 2

/-- POWER_ON_RESET_RELEASE (R402). -/
def execPowerOnResetRelease (t : Nat) (die : Sys2Proof.Die) (s : State) := onDev t (powerOnResetReleaseEffect die) s

/-! ### Power-fail warning (R250, R324) -/

/-- The engine's part: issue stops and one PFAIL record is written into the emergency area. -/
def Dev.opePfail (d : Dev) : Dev :=
  if d.ope.pfail || !d.domOn .ope then d
  else
    let i := if d.on 0 JNL_EMERG.VALID then (d.rd 0 JNL_EMERG.IDX + 1) % 64 else 0
    let seq := d.jnlSeq + 1
    let body := leBytes 2 d.ope.flight.length ++ leBytes 2 d.sesLive ++ [0#8]
    let d := (d.setJrec i (some { kind := 5, seq := seq, time := d.now, body := body })).wr64 0 JNL_SEQ_LO.SEQ JNL_SEQ_HI.SEQ seq
    let d := (d.wr 0 JNL_EMERG.VALID 1).wr 0 JNL_EMERG.IDX i
    Dev.raise { d with ope := { d.ope with pfail := true } } 0 Ev.JNL.PFAIL_REC

/-- PFAIL_WARNING (R250, R324). -/
def execPfailWarning (t : Nat) (s : State) := onDev t (fun d => d.lglPfailWarn.opePfail) s

/-- The warning is withdrawn: the record is rewritten with RECOVERED and issue resumes. -/
def Dev.opePfailEnd (d : Dev) : Dev :=
  if !d.ope.pfail then d
  else
    let i := d.rd 0 JNL_EMERG.IDX
    let d := match d.jrec i with
      | some r => if r.kind = 5 then d.setJrec i (some { r with body := r.body.take 4 ++ [1#8] }) else d
      | none => d
    { d with ope := { d.ope with pfail := false } }

/-- PFAIL_RETURN (R250, R324). -/
def execPfailReturn (t : Nat) (s : State) := onDev t (fun d => d.lglPfailReturn.opePfailEnd) s

end Sys2Proof.Machine
end

