-- ==== Sys2Proof/Machine/Power.lean ====
section
/-!
DEFINITION. Power domains at work (R390 to R401): the entry with its abort points, the wake and its sources, retention
and its check, the die shutdown (R178), and the second's feed with the RTC alarm (R20, R397).
-/

namespace Sys2Proof.Machine

/-! ### Entry (R393 to R395) -/

/-- A SYS request that waited for the power entry or wake is carried out once CORE is ON and neither is under way
(R410). -/
def Dev.pendReset (d : Dev) : Dev :=
  match d.sys.pend with
  | none => d
  | some c =>
    if d.rd 0 PWR_ENTRY.PHASE ≠ 0 then d
    else if !d.domOn .core then d.raiseDoms allDoms
    else (d.modSys fun x => { x with pend := none }).sysRequest c

/-- A wake, or a SYS request, is pending against the entry. -/
def Dev.pwrPending (d : Dev) : Bool := d.pwr.pend ≠ 0 || d.sys.pend.isSome

/-- What the steps done have changed is undone: the lowered domains are ON again and the clocks start (Table PWR-2). -/
def Dev.pwrUndo (d : Dev) : Dev :=
  let d := d.pwr.lower.foldl (fun d e => if d.domState (domAt e.1) = 3 then d.setDomState (domAt e.1) 0 else d) d
  let d := if Dom.all.any fun x => 4 ≤ x.ix && d.domOn x then d.pllWake [4] else d
  { d.wr 0 PWR_ENTRY.PHASE 0 with pwr := { d.pwr with lower := [] } }

/-- The entry stops at abort point k: the domains of the wake are raised, and a waiting reset follows. -/
def Dev.pwrAbort (d : Dev) (k : Nat) : Dev :=
  let src := d.pwr.pend
  let up := d.pwr.up
  let d := (d.pwrUndo.wr 0 AON_WAKEABORT.AP k).wr 0 AON_WAKEABORT.SRC src
  let d := ((d.inc 0 AON_WAKEABORT.COUNT).raise 0 Ev.AON.WAKE_ABORT).wr 0 PWR_ENTRY.RESULT 2
  (Dev.raiseDoms { d with pwr := { d.pwr with pend := 0, up := [] } } up).pendReset

/-- Whether the step after abort point k has completed: operations of lowered domains have ended; a lowered HIF needs its
link down, in D3hot, or in L1, which an idle link with ASPM L1 enabled enters (R393). -/
def Dev.stepDone (d : Dev) (k : Nat) : Bool :=
  let low (x : Dom) : Bool := d.pwr.lower.any fun e => e.1 = x.ix
  match k with
  | 0 => d.ope.flight.all fun o => !(low (d.opDom o) || low .ope)
  | 1 => !low .hif || !d.on 0 HIF_LINK.UP || d.host.d3 || d.host.aspmL1
  | _ => true

/-- What the step after abort point k does to the lowered domains. -/
def Dev.stepActs (d : Dev) (k : Nat) : Dev :=
  match k with
  | 0 => d.pwr.lower.foldl (fun d e => if d.domOn (domAt e.1) then d.setDomState (domAt e.1) 3 else d) d
  | 1 => d.pwr.lower.foldl (fun d e => if d.domState (domAt e.1) = 3 then d.domLinks (domAt e.1) else d) d
  | 3 => d.pllRest d.domOn
  | _ => d

/-- The supply step ends the entry: the domains take their targets; a wake that came after AP5 is a wake from the low
state (R395). -/
def Dev.pwrFinish (d : Dev) : Dev :=
  let up := d.pwr.up
  let woke := d.pwr.pend ≠ 0
  let d := d.pwr.lower.foldl (fun d e => d.domLeave (domAt e.1) e.2) d
  let d := ((d.wr 0 PWR_ENTRY.RESULT 1).wr 0 PWR_ENTRY.PHASE 0).raise 0 Ev.PWR.ENTRY_DONE
  let d := { d with pwr := { d.pwr with endAt := some d.now, lower := [], up := [], pend := 0 } }
  let d := if woke then (d.inc 0 PWR_WAKECNT.COUNT).wr 0 AON_SLEEPMS.MS 0 else d
  (d.raiseDoms up).pendReset

/-- Effect of PWR_ENTRY_ADVANCE: the entry, at abort point k, either stops there for a wake or completes its next step. -/
def pwrEntryAdvanceEffect (d : Dev) : Dev :=
  if d.rd 0 PWR_ENTRY.PHASE ≠ 1 || d.die.shutAt.isSome then d
  else
    let k := d.rd 0 PWR_ENTRY.LASTAP
    if d.pwrPending && d.pwr.pendAt ≤ d.pwr.apAt then d.pwrAbort k
    else if k = 5 then d.pwrFinish
    else if !d.stepDone k then d
    else
      let d := (d.stepActs k).wr 0 PWR_ENTRY.LASTAP (k + 1)
      let d := { d with pwr := { d.pwr with apAt := d.now } }
      if d.pwrPending then d.pwrAbort (k + 1) else d

/-- PWR_ENTRY_ADVANCE (R393): the shared buffers lose their contents when CORE goes OFF. -/
def execPwrEntryAdvance (t : Nat) (s : State) : Host.Outcome State Fault Refusal :=
  let was := s.dev.domState .core
  let d := pwrEntryAdvanceEffect (Dev.at t s.dev)
  .next { s with dev := d, mem := if was ≠ 2 && d.domState .core = 2 then { s.mem with sram := [] } else s.mem }

/-- Effect of PWR_QTMO: AP1 is not reached within QTMO_MS. -/
def pwrQtmoEffect (d : Dev) : Dev :=
  if d.rd 0 PWR_ENTRY.PHASE = 1 && d.rd 0 PWR_ENTRY.LASTAP = 0
      && d.pwr.startAt + d.rd 0 PWR_CFG.QTMO_MS * ticksPerMs ≤ d.now then
    let up := d.pwr.up
    let d := ((d.pwrUndo.wr 0 PWR_ENTRY.RESULT 3).raise 0 Ev.PWR.QTMO)
    (Dev.raiseDoms { d with pwr := { d.pwr with pend := 0, up := [] } } up).pendReset
  else d

/-- PWR_QTMO (R393). -/
def execPwrQtmo (t : Nat) (s : State) := onDev t pwrQtmoEffect s

/-! ### Wake sources (Table PWR-3) -/

/-- Whether a domain that a source raises, its own or mapped, is not ON. -/
def Dev.srcLow (d : Dev) (src : Nat) (own : List Nat) : Bool :=
  (List.range 18).any fun i => (own.contains i || d.bit 0 (PWR_WAKEMAP.DOMS src) i) && !d.domOn (domAt i)

/-- Effect of SAFE_PIN_WAKE: an accepted change of a channel of a function, none for the reset input. -/
def safePinWakeEffect (fn : Option (Fin 32)) (d : Dev) : Dev :=
  let named := match fn with
    | some n => d.bit 0 AON_SAFEWAKE.FN n
    | none => d.on 0 AON_WAKEEN.SAFRST
  if d.on 0 AON_WAKEEN.SAFE && named && d.srcLow 3 [Dom.safe.ix] then d.wake 3 0 [Dom.safe.ix] else d

/-- SAFE_PIN_WAKE (R397). -/
def execSafePinWake (t : Nat) (fn : Option (Fin 32)) (s : State) := onDev t (safePinWakeEffect fn) s

/-- Effect of PCIE_WAKE. -/
def pcieWakeEffect (d : Dev) : Dev :=
  if d.on 0 AON_WAKEEN.PCIE && !d.domOn .hif then d.wake 4 0 [Dom.hif.ix] else d

/-- PCIE_WAKE (R397). -/
def execPcieWake (t : Nat) (s : State) := onDev t pcieWakeEffect s

/-- Effect of MGMT_WAKE_MATCH: with the C-die clocks stopped the port matches its own address (R43). -/
def mgmtWakeMatchEffect (addr : Nat) (d : Dev) : Dev :=
  if d.on 0 HIF_MGMT.WAKE_EN && !d.domOn .core && addr = d.rd 0 HIF_MGMT.ADDR then d.wake 1 0 [Dom.hif.ix] else d

/-- MGMT_WAKE_MATCH (R43, R397). -/
def execMgmtWakeMatch (t : Nat) (addr : Nat) (s : State) := onDev t (mgmtWakeMatchEffect addr) s

/-- Effect of SKN_WAKE_DETECT: the port's detector runs while its domain is RET or OFF (R149), ignored in a die shutdown
(R178). -/
def sknWakeDetectEffect (k : Fin 12) (pattern : Bool) (d : Dev) : Dev :=
  let st := d.domState (sknDom k)
  let mode := d.rd k SKN_CFG.WAKE
  if d.die.shutAt.isNone && d.on 0 AON_WAKEEN.SKN && (st = 1 || st = 2) && (mode = 1 || (mode = 2 && pattern)) then
    ((d.wr k SKN_WAKE.CAUSE mode).raise k Ev.SKN.WAKE).wake 0 (2 ^ k.val) [(sknDom k).ix]
  else d

/-- SKN_WAKE_DETECT (R149, R397). -/
def execSknWakeDetect (t : Nat) (k : Fin 12) (pattern : Bool) (s : State) := onDev t (sknWakeDetectEffect k pattern) s

/-! ### The wake (R397 to R399) -/

/-- A retained bank of the shared buffers failed: the rings whose base lies in it start again (Table PWR-4). -/
def Dev.sramBankBad (d : Dev) (b : Nat) : Dev :=
  let d := if d.rd 0 OPE_SQ_BASE.BASE / 256 = b then
      ((d.wr 0 OPE_CTL.SQ_EN 0).wr 0 OPE_SQ_TAIL.IDX 0).wr 0 OPE_SQ_HEAD.IDX 0
    else d
  if d.rd 0 VCM_RX.BASE / 256 = b then
    { ((d.wr 0 VCM_RXHEAD.IDX 0).wr 0 VCM_RXTAIL.IDX 0).wr 0 VCM_RXTAIL.PHASE 0 with vcm := { d.vcm with rxUsed := 0 } }
  else d

/-- A retained bank failed: AON_RETFAIL, WAKECAUSE and RET_FAIL. -/
def Dev.retFail (d : Dev) (f : Field) (banks : Nat) : Dev :=
  ((d.wr 0 f (Nat.lor (d.rd 0 f) banks)).wr 0 AON_WAKECAUSE.RETFAIL 1).raise 0 Ev.AON.RET_FAIL

/-- Failed eDRAM banks: the recorder enters IDLE and every region reads unfrozen. -/
def Dev.edramBankBad (d : Dev) (banks : Nat) : Dev :=
  let d := d.frcDisarm.frcEmpty
  { d with edram := (List.range 16).foldl (fun m b => if banks.testBit b then m.clearRange (b * 2 ^ 20) (2 ^ 20) else m) d.edram }

/-- The state reached by a wake stands in both copies of PWR_TARGET. -/
def Dev.wakeTargets (d : Dev) (up : List Nat) : Dev :=
  let new := up.filter fun i => d.pwrTarget i ≠ 0
  if new.isEmpty then d
  else
    let d := new.foldl (fun d i =>
      let f := if i < 16 then PWR_TARGET0.D i else PWR_TARGET1.D (i - 16)
      (d.wr 0 f 0).wr 0 f.staged 0) d
    d.seqInc .pwr 0

/-- Domains become ON: those that were OFF start from reset values with the configuration reapplied (R390). -/
def Dev.bringUp (d : Dev) (up : List Nat) : Dev :=
  let off := up.filter fun i => d.domState (domAt i) = 2
  let alc := up.contains Dom.alc.ix
  let d := off.foldl (fun d i =>
    let cause := (List.range 12).map fun k => d.rd k SKN_WAKE.CAUSE
    let d := (d.offReset (domAt i)).resetDom (domAt i)
    (List.range 12).foldl (fun d k => d.wr k SKN_WAKE.CAUSE (cause.getD k 0)) d) d
  let d := up.foldl (fun d i => d.setDomState (domAt i) 0) d
  let d := d.applyCfg (fun t n => off.contains (domOf t n).ix) fun _ _ => false
  let d := d.wrB 0 ALC_STAT.PRICE_STALE (if off.contains Dom.alc.ix then true else d.on 0 ALC_STAT.PRICE_STALE)
  if alc then
    { d with alc := { d.alc with started := false, next := none, scns := [],
                                 firstAt := (d.now + ticksPerMs - 1) / ticksPerMs * ticksPerMs } }
  else d

/-- DOMAIN_WAKE (R397): the raised domains become ON once the PLLs they need are locked; `sramBad` and `edramBad` are the
retained banks that fail their check (R399). CORE from OFF goes through cast-on. -/
def execDomainWake (t : Nat) (sramBad edramBad : Nat) (s : State) : Host.Outcome State Fault Refusal :=
  let d := Dev.at t s.dev
  let up := d.pwr.up
  if d.rd 0 PWR_ENTRY.PHASE ≠ 2 || d.die.shutAt.isSome
      || (up.any (4 ≤ ·) && !(d.pllLocked 0 && d.pllLocked 1)) then .next { s with dev := d }
  else
    let core := d.domState .core
    let sram := if up.contains Dom.core.ix && core = 1 then sramBad % 2 ^ 24 else 0
    let edram := if up.contains Dom.frc.ix && d.domState .frc = 1 then edramBad % 2 ^ 16 else 0
    let d := d.wakeTargets up
    if up.contains Dom.core.ix && core = 2 then
      let ret := up.filter fun i => d.domState (domAt i) = 1
      let off := up.filter fun i => d.domState (domAt i) ≠ 1
      let d := ret.foldl (fun d i => d.setDomState (domAt i) 0) d
      let s := s.cast d .wake 7 off
      .next { s with dev := s.dev.modSys fun x => { x with wakeDone := true } }
    else
      let d := (d.bringUp up).wr 0 PWR_ENTRY.PHASE 0
      let d := { d with pwr := { d.pwr with up := [] } }
      let d := if edram = 0 then d else (d.retFail AON_RETFAIL_EDRAM.BANKS edram).edramBankBad edram
      let d := if sram = 0 then d else d.retFail AON_RETFAIL_SRAM.BANKS sram
      if sram / 16 ≠ 0 then .next (s.cast d .retfail 8 allDoms)
      else
        let bad := (List.range 4).filter fun b => sram.testBit b
        let d := (bad.foldl Dev.sramBankBad d).raise 0 Ev.PWR.WAKE_DONE
        .next { s with dev := d.pendReset,
                       mem := { s.mem with sram := bad.foldl (fun m b => m.clearRange (b * 2 ^ 20) (2 ^ 20)) s.mem.sram } }

/-- EDRAM_REFRESH (R400): every row keeps what it holds; nothing the spec shows changes. -/
def execEdramRefresh (t : Nat) (s : State) := onDev t (fun d => d) s

/-! ### Die shutdown (R178) -/

/-- A power entry or wake under way is abandoned (R396). -/
def Dev.pwrAbandon (d : Dev) : Dev :=
  if d.rd 0 PWR_ENTRY.PHASE = 0 then d
  else
    let d := d.pwrUndo.wr 0 PWR_ENTRY.RESULT 4
    { d with pwr := { d.pwr with up := [], pend := 0 } }

/-- Effect of DIE_SHUTDOWN_TRIP: STOP with IMM on every port, every output pair dropped; it governs a power entry or wake
under way (R396). -/
def dieShutdownTripEffect (k : Fin 8) (d : Dev) : Dev :=
  if d.die.shutAt.isSome then { d with die := { d.die with coolAt := none } }
  else
    let d := { d with die := { d.die with shutAt := some d.now, sensor := k, coolAt := none } }
    let d := d.sendStopImm.strandsStop
    let d := (List.range 8).foldl (fun d q =>
      if d.pairOn q && (d.safPair q).tripAt.isNone then d.modPair q fun x => { x with tripAt := some d.now } else d) d
    d.pwrAbandon

/-- DIE_SHUTDOWN_TRIP (R178). -/
def execDieShutdownTrip (t : Nat) (k : Fin 8) (s : State) := onDev t (dieShutdownTripEffect k) s

/-- DIE_SHUTDOWN_DOMAINS_OFF (R178): 10 ms after the trip CORE and every domain below it go OFF. -/
def execDieShutdownDomainsOff (t : Nat) (s : State) : Host.Outcome State Fault Refusal :=
  let d := Dev.at t s.dev
  match d.die.shutAt with
  | some t0 =>
    if d.die.off || d.now < t0 + 10 * ticksPerMs then .next { s with dev := d }
    else
      let d := (Dom.all.reverse.filter fun x => 4 ≤ x.ix).foldl (fun d x => d.domLeave x 2) d
      let d := { d with die := { d.die with off := true }, edram := [] }
      .next { s with dev := d.pllRest d.domOn, mem := { s.mem with sram := [] } }
  | none => .next { s with dev := d }

/-- THERMAL_RESTART (R178): every comparator has stayed cool for REL_S; cast-on with cause THERMAL. -/
def execThermalRestart (t : Nat) (s : State) : Host.Outcome State Fault Refusal :=
  let d := Dev.at t s.dev
  match d.die.coolAt with
  | some c =>
    if d.die.off && c + d.rd 0 DTM_SD.REL_S * ticksPerS ≤ d.now then
      let k := d.die.sensor
      let s := s.cast d .thermal 6 allDoms
      .next { s with dev := s.dev.modSys fun x => { x with sensor := k } }
    else .next { s with dev := d }
  | none => .next { s with dev := d }

/-! ### The second's feed (R20) -/

/-- The RTC alarm: the first seconds field at or above it clears its enable and wakes what is mapped (R397). -/
def Dev.rtcAlarm (d : Dev) : Dev :=
  if d.on 0 RTC_ALMCTL.EN && d.rd 0 RTC_ALARM.SEC ≤ d.rd 0 RTC_SEC.SEC then
    let d := (d.wr 0 RTC_ALMCTL.EN 0).raise 0 Ev.RTC.ALARM
    if d.on 0 AON_WAKEEN.RTC && d.srcLow 2 [] then d.wake 2 0 [] else d
  else d

end Sys2Proof.Machine
end

