-- ==== Sys2Proof/Machine/Ply.lean ====
section
/-!
DEFINITION. Ply: two units as one (R329 to R348). Frames and links, pairing and the common timebase, Ply-join, mirroring,
comparison and self-check, takeover, return, and metering across the pair.
-/

namespace Sys2Proof.Machine

/-! ### Links and frames out (R330) -/

/-- The Ply engine runs: not SINGLE, its domain ON, the cast-on past the step that starts it (R331, R404). -/
def Dev.plyUp (d : Dev) : Bool :=
  d.rd 0 PLY_CFG.MODE ≠ 0 && d.domOn .ply && !d.sys.held && (d.sys.step = 0 || 8 ≤ d.sys.step)

/-- A link is UP after block lock has held for 1 ms and a HEARTBEAT has arrived on it. -/
def Dev.plyLinkUp (d : Dev) (l : Nat) : Bool :=
  match d.ply.lockAt.get (fun _ => none) l with
  | some t => t + ticksPerMs ≤ d.now && d.ply.hb.get (fun _ => false) l
  | none => false

/-- Whole seconds of the hold-off left (R345). -/
def Dev.holdLeft (d : Dev) : Nat :=
  match d.ply.holdAt with
  | some h => (h + d.rd 0 PLY_GUARD.HOLDOFF_S * ticksPerS - d.now + ticksPerS - 1) / ticksPerS
  | none => 0

/-- A downstream frame of the partner has been seen within 1 ms. -/
def Dev.ringSeen (d : Dev) : Bool := d.ply.ringAt.any fun t => d.now < t + ticksPerMs

/-- What the PLY pages show of the passage of time. -/
def Dev.plyShow (d : Dev) : Dev :=
  let d := (d.wrB 0 PLY_LINK.UP (d.plyLinkUp 0)).wrB 1 PLY_LINK.UP (d.plyLinkUp 1)
  (d.wrB 0 PLY_STAT.RINGSEEN d.ringSeen).wrU 0 PLY_HOLDLEFT.S d.holdLeft

/-- Block lock of a link changes. -/
def Dev.blockLock (d : Dev) (l : Nat) (on : Bool) : Dev :=
  if d.rd 0 PLY_CFG.MODE = 0 || !d.domOn .ply then d
  else
    (d.wrB l PLY_LINK.BLOCKLOCK on).modPly fun x =>
      { x with lockAt := x.lockAt.set (fun _ => none) l (if on then some d.now else none),
               hb := x.hb.set (fun _ => false) l false }

/-- BLOCK_LOCK_GAINED (R330). -/
def execBlockLockGained (t : Nat) (l : Fin 2) (s : State) := onDev t (fun d => d.blockLock l true) s

/-- BLOCK_LOCK_LOST (R330). -/
def execBlockLockLost (t : Nat) (l : Fin 2) (s : State) := onDev t (fun d => d.blockLock l false) s

/-- A frame sent at an interval is due. -/
def plyDue (last : Option Nat) (ticks now : Nat) : Bool :=
  match last with
  | some t => t + ticks ≤ now
  | none => true

/-- Effect of HEARTBEAT_SEND, every 100 µs. -/
def heartbeatSendEffect (d : Dev) : Dev :=
  if d.plyUp && plyDue d.ply.hbTx (100 * ticksPerUs) d.now then
    (d.modPly fun x => { x with hbTx := some d.now }).plySend (.heartbeat d.plySt (d.rd 0 ALC_ROWCNT.ROWS) d.ply.chkOwn)
  else d

/-- HEARTBEAT_SEND (R330). -/
def execHeartbeatSend (t : Nat) (s : State) := onDev t heartbeatSendEffect s

/-- The pages whose staged areas the pair shares (R339). -/
def plyPages : List (Tag × Nat) :=
  (Tag.all.filter fun t => !plyOwn t && hasStaged t 0).flatMap fun t => (List.range t.count).map fun n => (t, n)

/-- CFGCRC: the CRC-32C of the shared staged areas, page after page. -/
def Dev.plyCfgCrc (d : Dev) : Nat :=
  crc32c (plyPages.flatMap fun e => (d.stagedArea e.1 e.2).flatMap fun w => leBytes 4 w.2.toNat)

/-- Effect of HELLO_SEND: every 10 ms until paired, then every 1 s (Table PLY-1). -/
def helloSendEffect (d : Dev) : Dev :=
  if d.plyUp && plyDue d.ply.helloTx (if d.on 0 PLY_STAT.PAIRED then ticksPerS else 10 * ticksPerMs) d.now then
    (d.modPly fun x => { x with helloTx := some d.now }).plySend
      (.hello (d.rd 0 PLY_PAIRID.ID) (d.rd64 0 KEY_SERIAL_LO.SN KEY_SERIAL_HI.SN) (d.rd 0 PLY_CFG.MODE)
        (d.rd 0 PLY_CFG.ROLE) (d.rd 0 PLY_CFG.PREF) d.plyCfgCrc)
  else d

/-- HELLO_SEND (R331). -/
def execHelloSend (t : Nat) (s : State) := onDev t helloSendEffect s

/-- Effect of TIME_SEND, every 1 ms while paired (R332). -/
def timeSendEffect (d : Dev) : Dev :=
  if d.plyUp && d.on 0 PLY_STAT.PAIRED && plyDue d.ply.timeTx ticksPerMs d.now then
    (d.modPly fun x => { x with timeTx := some d.now }).plySend
      (.time d.now d.ply.tSent d.ply.tGot (d.rd 0 ALC_ROWCNT.ROWS) d.alc.rowAt)
  else d

/-- TIME_SEND (R332). -/
def execTimeSend (t : Nat) (s : State) := onDev t timeSendEffect s

/-! ### Pairing (R331, R343) -/

/-- The full load that the active unit sends at pairing (R339). -/
def Dev.plyLoad (d : Dev) : Dev :=
  if d.plyActive && d.plyPaired then
    (d.plySend (.mirror (.load (plyPages.map fun e => (pageIx e.1 e.2, d.stagedArea e.1 e.2))))).modPly fun x =>
      { x with jnlSent := 0 }
  else d

/-- At pairing, with the partner's state known: neither unit is active, so the preferred one becomes it (R343). -/
def Dev.plyChoose (d : Dev) : Dev :=
  if d.rd 0 PLY_CFG.MODE ≠ 2 || !d.on 0 PLY_STAT.PAIRED || d.ply.pstate = 0 then d
  else if d.plySt = 6 then (d.setPly 4).plyLoad
  else if d.plySt = 4 then d.plyLoad
  else if d.ply.pstate ≠ 4 && d.ply.pstate ≠ 6 && d.plyPref then (d.setPly 4).plyLoad
  else d

/-- A pair forms. -/
def Dev.plyPair (d : Dev) : Dev :=
  let d := (d.wr 0 PLY_STAT.PAIRED 1).modPly fun x => { x with stepped := false, passed := false, chkPeer := none }
  ((d.wr 0 PLY_STAT.ALIGNED 0).raise 0 Ev.PLY.PAIRED).plyChoose.plyFollow

/-- The pair does not stand. -/
def Dev.plyUnpair (d : Dev) : Dev :=
  let d := ((d.wr 0 PLY_STAT.PAIRED 0).wr 0 PLY_STAT.ALIGNED 0).wr 0 PLY_STAT.MIRROR_OK 0
  let d := d.modPly fun x => { x with stepped := false, chkAt := none, chkOwn := none, chkPeer := none, ret := none,
                                      yieldAt := none, waiting := false, mirSaf := [], safBad := 0, tSent := 0, tGot := 0 }
  d.plyFollow.plySplit

/-- A HELLO (R331); any intact one ends a Ply loss (R330). -/
def Dev.helloIn (d : Dev) (pairid serial mode role pref crc : Nat) : Dev :=
  let d := d.modPly fun x => { x with signAt := d.now, lost := false }
  if pairid = d.rd 0 PLY_PAIRID.ID && mode = d.rd 0 PLY_CFG.MODE && pref = d.rd 0 PLY_CFG.PREF
      && role + d.rd 0 PLY_CFG.ROLE = 1 then
    let d := (d.wr 0 PLY_PARTNER.SERIAL serial).modPly fun x => { x with pcrc := crc }
    if d.on 0 PLY_STAT.PAIRED then d else d.plyPair
  else d.plyUnpair.raise 0 Ev.PLY.PAIR_MISMATCH

/-- A HEARTBEAT on a link. -/
def Dev.heartbeatIn (d : Dev) (link state rowcnt : Nat) (check : Option Bool) : Dev :=
  let first := d.ply.pstate = 0
  let d := d.modPly fun x =>
    { x with pstate := state, prow := rowcnt, hb := x.hb.set (fun _ => false) link true,
             chkPeer := if check.isSome && x.chkAt.isSome then check else x.chkPeer }
  if first then d.plyChoose else d

/-! ### Common time (R332) -/

/-- Paired and aligned again: PLY-A names a row boundary at least 10 rows ahead (R336). -/
def Dev.plyRejoin (d : Dev) : Dev :=
  if d.rd 0 PLY_CFG.MODE = 1 && d.plyA && d.on 0 PLY_STAT.PAIRED && d.on 0 PLY_STAT.ALIGNED && !d.ply.joint
      && d.ply.rejoin.isNone then
    d.modPly fun x => { x with rejoin := some (d.rd 0 ALC_ROWCNT.ROWS + 11) }
  else d

/-- A TIME frame: latency and offset from the exchange as in R139; the follower steps its count once at pairing, and with
it its row; ALIGNED within ±10 ns, which is 25 ticks. -/
def Dev.timeIn (d : Dev) (sent echo echoAt row rowAt : Nat) : Dev :=
  let t4 : Int := d.now
  let d := d.modPly fun x => { x with tSent := sent, tGot := d.now }
  if echo = 0 then d
  else
    let there : Int := (echoAt : Int) - echo
    let back : Int := t4 - sent
    let off : Int := rdiv (there - back) 2
    let d := (d.wrU 0 PLY_LAT.LAT ((there + back) * 32)).wrU 1 PLY_LAT.LAT ((there + back) * 32)
    if !d.plyMaster && !d.ply.stepped then
      let d := d.modPly fun x => { x with stepped := true, tGot := ((x.tGot : Int) + off).toNat }
      let d := { d with now := (t4 + off).toNat }
      let d := if d.alc.started then
          { (d.wr 0 ALC_ROWCNT.ROWS row) with alc := { d.alc with rowAt := rowAt } }
        else d
      (d.wr 0 PLY_STAT.ALIGNED 1).plyRejoin.plyFollow
    else (d.wrB 0 PLY_STAT.ALIGNED (off.natAbs ≤ 25)).plyRejoin.plyFollow

/-! ### Ply-join: snapshots and allocations of the pair (R334, R335) -/

/-- A premise of PLY-B in the numbers of the site. -/
def Premise.shift : Premise → Premise
  | .sesEnd p => .sesEnd (p + 32)
  | .vehReq p v => .vehReq (p + 32) v
  | .strRet p s l => .strRet (p + 32) (s + 48) { l with num := l.num + 48 }
  | .shed p s l => .shed (p + 32) (s + 48) { l with num := l.num + 48 }

/-- The points of PLY-B with their strands in the numbers of the site. -/
def AlcSnap.shifted (x : AlcSnap) : List PtIn :=
  x.pts.map fun p => { p with strs := p.strs.map fun s => { s with num := s.num + 48 } }

/-- The 64 site points, and the candidate premises type by type. -/
def joinPts (a b : AlcSnap) : List PtIn := a.pts ++ b.shifted
def joinPrems (a b : AlcSnap) : List Premise :=
  [1, 2, 3, 4].flatMap fun k =>
    (a.prems.filter fun p => p.typ = k) ++ (b.prems.filter fun p => p.typ = k).map Premise.shift

/-- PLY-A computes the pair's row and sends ALLOC (R335 steps 2 to 4). Where the SNAP of the row is late, the last one
serves and no point of PLY-B rises. -/
def Dev.joinCompute (d : Dev) (late : Bool) : Dev :=
  let b : AlcSnap := match d.ply.snapIn with
    | some (_, x) => x
    | none => {}
  let b := if late then { b with pts := b.pts.map fun p => { p with noRise := true } } else b
  let a := d.alc.snap
  let d := d.modPly fun x => { x with waiting := false }
  let d := d.rowCompute 900 a.site (joinPts a b) (joinPrems a b)
  d.plySend (.alloc (d.rd 0 ALC_ROWCNT.ROWS + 1) (d.alc.next.getD {}) d.ply.rejoin)

/-- A SNAP arrives (R335 steps 1 and 2). -/
def Dev.snapIn (d : Dev) (row : Nat) (x : AlcSnap) : Dev :=
  if d.rd 0 PLY_CFG.MODE ≠ 1 then d
  else
    let d := d.modPly fun y => { y with snapIn := some (row, x) }
    if d.ply.waiting && row = d.rd 0 ALC_ROWCNT.ROWS then
      (d.modPly fun y => { y with lateN := 0 }).joinCompute false
    else d

/-- Effect of SNAP_LATE: 200 µs after the boundary (R335 step 2). -/
def snapLateEffect (d : Dev) : Dev :=
  if d.plyUp && d.ply.waiting && d.alc.rowAt + 200 * ticksPerUs ≤ d.now then
    ((d.modPly fun x => { x with lateN := x.lateN + 1 }).raise 0 Ev.PLY.SNAP_LATE).joinCompute true
  else d

/-- SNAP_LATE (R335). -/
def execSnapLate (t : Nat) (s : State) := onDev t snapLateEffect s

/-- PLY-B compares an ALLOC with its own computation from the same two snapshots (R335 step 5). -/
def Dev.shadowCheck (d : Dev) (row : Nat) (res : AlcRes) : Dev :=
  match d.ply.snapIn with
  | some (k, a) =>
    if d.ply.joint && k + 1 = row && d.alc.snap.row = k && allocate a.site (joinPts a d.alc.snap) ≠ res then
      (d.inc 0 PLY_SHADOWERR.COUNT).raise 0 Ev.PLY.SHADOW_MISMATCH
    else d
  | none => d

/-- An ALLOC arrives at PLY-B (R335 steps 4 and 5). -/
def Dev.allocIn (d : Dev) (row : Nat) (res : AlcRes) (rejoin : Option Nat) : Dev :=
  if d.rd 0 PLY_CFG.MODE ≠ 1 || d.plyA then d
  else
    (d.modPly fun x => { x with allocIn := some (row, res), rejoin := if x.joint then none else rejoin }).shadowCheck row res

/-- Effect of SPLIT: Ply loss, or 8 rows late in a row (R336). -/
def splitEffect (d : Dev) : Dev := if d.plyUp && (d.ply.lost || 8 ≤ d.ply.lateN) then d.plySplit else d

/-- SPLIT (R336). -/
def execSplit (t : Nat) (s : State) := onDev t splitEffect s

/-! ### What is mirrored (Table PLY-2) -/

/-- The BAR0 address of a field's register. -/
def fieldAddr (n : Nat) (f : Field) : Nat := pageIx f.tag n * 4096 + f.off

/-- The registers mirrored each row. -/
def mirrorAddrs : List Nat :=
  (List.range 64).flatMap (fun m => [fieldAddr 0 (SES_STAT.STATE m), fieldAddr 0 (CTM_STAT.STATE m)])
    ++ (List.range 32).flatMap (fun p =>
      [fieldAddr 0 (ALC_PTSET.MA p), fieldAddr 0 (ALC_PTINFO.LIMIT p), fieldAddr p OUT_RUNSTAT.STATE, fieldAddr p CBL_TC.T,
       fieldAddr p CBL_TP.T, fieldAddr p CBL_TW.T, fieldAddr p CBL_STAT.LEVEL, fieldAddr p CBL_ROR.RATE,
       fieldAddr p CBL_DERCAP.MA])
    ++ (List.range 12).map (fun i => fieldAddr 0 (ALC_STRASG.STATE (4 * i)))
    ++ (List.range 4).map (fun h => fieldAddr 0 (ALC_HANDSTAT.STATE h))
    ++ (List.range 48).flatMap (fun s =>
      [fieldAddr s STR_STAT.STATE, fieldAddr s STR_FAULT.CODE, fieldAddr s STR_MPSTAT.SHED])
    ++ (List.range 24).flatMap (fun n => [fieldAddr n LSW_STAT.STATE, fieldAddr n LSW_ACC.A])
    ++ [fieldAddr 0 ALC_STAT.SHORT, fieldAddr 0 ALC_DCBUDGET.W, fieldAddr 0 ALC_ALLOCATED.W, fieldAddr 0 ALC_LEVEL.W,
        fieldAddr 0 ALC_PRICE.PRICE, fieldAddr 0 ALC_SPEC_LAST.VALID, fieldAddr 0 ALC_SPEC_LASTROW.ROW]

/-- The safety registers mirrored at each evaluation. -/
def mirrorSafety : List Nat :=
  (List.range 32).map (fun n => fieldAddr 0 (SAF_INST.STATE n)) ++ (List.range 8).map (fun q => fieldAddr 0 (SAF_PAIRST.STATE q))
    ++ (List.range 64).map fun m => fieldAddr 0 (SFC_STAT.STATE m)

/-- A word by its BAR0 address. -/
def Dev.atAddr (d : Dev) (a : Nat) : Word := d.regs.get resetWord a

/-- What stands behind a session's window, as numbers, and back. -/
def Ses.nums (x : Ses) : List Nat :=
  [x.pimax, x.ppmax, x.pvpres, x.pvtgt, x.pclass, x.pseq, x.aimax, x.apmax, x.avpres, x.avtgt, x.aclass,
   if x.validated then 1 else 0, x.waitAt, (match x.refreshAt with | some t => t + 1 | none => 0), x.holdI.toNat, x.startAt,
   x.endAt, x.endMs, if x.charged then 1 else 0, if x.reserved then 1 else 0]
def sesOfNums (v : List Nat) : Ses :=
  let g (i : Nat) : Nat := v.getD i 0
  { pimax := g 0, ppmax := g 1, pvpres := g 2, pvtgt := g 3, pclass := g 4, pseq := g 5, aimax := g 6, apmax := g 7,
    avpres := g 8, avtgt := g 9, aclass := g 10, validated := decide (g 11 = 1), waitAt := g 12,
    refreshAt := if g 13 = 0 then none else some (g 13 - 1), holdI := (g 14 : Nat), startAt := g 15, endAt := g 16,
    endMs := g 17, charged := decide (g 18 = 1), reserved := decide (g 19 = 1) }

/-- A journal record from its 64 bytes (Table JNL-1). -/
def recOfBytes (b : List Byte) : JRec :=
  { kind := leAt b 0 1, cls := leAt b 1 1, opkind := leAt b 2 1, rclass := leAt b 3 1, slot := leAt b 4 2, tag := leAt b 6 2,
    seq := leAt b 8 8, ref := leAt b 16 8, time := leAt b 24 8, body := (b.drop 32).take 24, dlv := decide (leAt b 60 1 = 1) }

/-- The ring records, in order of SEQ. -/
def Dev.ringRecs (d : Dev) : List JRec :=
  sortBy JRec.seq (d.ope.jnl.filterMap fun e => if 64 ≤ e.1 then e.2 else none)

/-- The allocation active, as mirrored. -/
def Dev.activeAlloc (d : Dev) : AlcRes :=
  { dc := d.rd 0 ALC_DCBUDGET.W, total := d.rd 0 ALC_ALLOCATED.W, level := d.rd 0 ALC_LEVEL.W, short := d.on 0 ALC_STAT.SHORT,
    price := d.rd 0 ALC_PRICE.PRICE
    pts := (List.range 32).map fun p => { set := d.rdI 0 (ALC_PTSET.MA p), slope := (d.point p).slope } }

/-- The MIRROR of a row (Table PLY-2): the journal records written since the last one go with it. -/
def Dev.mirrorRow (d : Dev) : Dev :=
  let k := d.rd 0 ALC_ROWCNT.ROWS
  let live := (List.range 64).filter fun m => d.sesState m ≠ 0
  let recs := d.ringRecs.filter fun r => d.ply.jnlSent < r.seq
  let hot := (List.range 64).filter fun c => (d.thmRec c).trip ≠ 0
  let d := d.plySend (.mirror (.row k (mirrorAddrs.map fun a => (a, d.atAddr a)) (live.map fun m => (m, (d.sesRec m).nums))
    ((List.range 32).map fun i => let x := d.cblRec i; (i, x.tc, x.tp, x.tw)) (hot.map fun c => (c, (d.thmRec c).coolAt))
    d.alc.snap d.activeAlloc (recs.map JRec.bytes)))
  d.modPly fun x => { x with jnlSent := d.jnlSeq }

/-- The safety states of an evaluation, with the last SEQ sent by each connection. -/
def Dev.mirrorSafe (d : Dev) : Dev :=
  d.plySend (.mirror (.safety (mirrorSafety.map (fun a => (a, d.atAddr a))
    ++ (List.range 64).map fun m => (0x100000 + m, BitVec.ofNat 32 (((d.sfcCon m).txSeq + 65535) % 65536)))))

/-- PUBLISH: what became active at the row, the coil commands, the safety states (R341). -/
def Dev.publish (d : Dev) : Dev :=
  d.plySend (.publish (d.rd 0 ALC_ROWCNT.ROWS) ((List.range 32).map fun p => d.rdI 0 (ALC_PTSET.MA p))
    ((List.range 48).map fun s => d.asg s * 32 + d.asgPt s) ((List.range 64).map fun e => d.rd 0 (CTM_STAT.CMD e))
    ((List.range 32).map (fun n => d.rd 0 (SAF_INST.STATE n)) ++ (List.range 8).map fun q => d.rd 0 (SAF_PAIRST.STATE q)))

/-! ### What a standby does with it (R339 to R341) -/

/-- A mirrored staged area is committed (R339); a refusal clears MIRROR_OK. -/
def Dev.mirrorPage (d : Dev) (page : Nat) (ws : List (Nat × Word)) : Dev :=
  match pageOf page with
  | none => d
  | some (t, n) =>
    if plyOwn t || !hasStaged t n then d
    else
      let d := ws.foldl (fun d w => if (stagedOffsets t).contains w.1 then d.setWord t n (0x800 + w.1) w.2 else d) d
      let d := d.commit t n
      if d.rd n (STAGE_STAT.STATE t) = 3 then d.wr 0 PLY_STAT.MIRROR_OK 0 else d

/-- Every record of the journal ring is dead: the active unit's journal follows. -/
def Dev.jnlForget (d : Dev) : Dev :=
  let d := d.wr 0 JNL_TAIL.IDX (d.rd 0 JNL_HEAD.IDX)
  { d with ope := { d.ope with jnl := d.ope.jnl.filter fun e => e.1 < 64, used := 0, sesRec := [] } }

/-- A mirrored record enters the journal as it is. -/
def Dev.mirrorRec (d : Dev) (r : JRec) : Dev :=
  let i := d.rd 0 JNL_HEAD.IDX
  let full := 65472 ≤ d.ope.used
  let d := ((d.setJrec i (some r)).wr64 0 JNL_SEQ_LO.SEQ JNL_SEQ_HI.SEQ r.seq).wr 0 JNL_HEAD.IDX (ringNext i)
  let d := if full then d.wr 0 JNL_TAIL.IDX (ringNext (d.rd 0 JNL_TAIL.IDX)) else d
  { d with ope := { d.ope with used := if full then d.ope.used else d.ope.used + 1,
                               sesRec := if r.kind = 4 then d.ope.sesRec.set (fun _ => 0) (leAt r.body 0 1) (i + 1)
                                         else d.ope.sesRec } }

/-- The setpoint a standby derives for a point: R62 on the mirrored snapshot with the mirrored resolution of premises
(R77), held as R28 has it in an overrun, discarded with its session (R68). -/
def Dev.deriveSet (d : Dev) (x : AlcSnap) (held : Nat → Int) (r : AlcRes) (p : Nat) : Int :=
  let v := x.pts.getD p {}
  let gone := v.alloc && (match d.liveSes p with | some m => d.sesState m = 5 | none => true)
  if d.on 0 ALC_STAT.OVERRUN then min (held p) (d.rd p CBL_H10.MA : Int)
  else if gone then 0 else (r.pts.getD p {}).set

/-- The allocation derived for the row that begins, from the snapshot of the row before. -/
def Dev.deriveRow (d : Dev) (x : AlcSnap) (held : Nat → Int) : AlcRes :=
  let ps := x.prems.take (d.rd 0 ALC_ROWCFG.NSPEC)
  let pts := if d.on 0 ALC_SPEC_LAST.VALID then
      (match ps[d.rd 0 ALC_SPEC_LAST.SCN]? with | some p => p.apply x.pts | none => x.pts)
    else x.pts
  let r := allocate x.site pts
  { r with pts := (List.range 32).map fun p => { set := d.deriveSet x held r p } }

/-- A mirrored row arrives. -/
def Dev.mirrorRowIn (d : Dev) (k : Nat) (words : List (Nat × Word)) (ses : List (Nat × List Nat))
    (cbl : List (Nat × B64 × B64 × B64)) (rel : List (Nat × Option Nat)) (snap : AlcSnap) (act : AlcRes)
    (jnl : List (List Byte)) : Dev :=
  let was := d
  let d := words.foldl (fun d w => if mirrorAddrs.contains w.1 then { d with regs := d.regs.set resetWord w.1 w.2 } else d) d
  let d := (List.range 32).foldl (fun d p =>
    let d := if d.ptState p = was.ptState p then d else d.modPoint p fun x => { x with since := d.now }
    d.modPoint p fun x => { x with slope := (act.pts.getD p {}).slope }) d
  let d := (List.range 24).foldl Dev.lswGate d
  let d := { d with ses := ses.foldl (fun m e => if e.1 < 64 then m.set (fun _ => {}) e.1 (sesOfNums e.2) else m) [] }
  let d := cbl.foldl (fun d e => if e.1 < 32 then d.modCbl e.1 fun x => { x with tc := e.2.1, tp := e.2.2.1, tw := e.2.2.2 } else d) d
  let d := rel.foldl (fun d e => if (d.thmRec e.1).trip ≠ 0 then d.modThm e.1 fun x => { x with coolAt := e.2 } else d) d
  let d := (jnl.map recOfBytes).foldl Dev.mirrorRec d
  let held (p : Nat) : Int := was.rdI 0 (ALC_PTSET.MA p)
  let der : AlcRes := match d.ply.mirRow with
    | some (_, x, _) => d.deriveRow x held
    | none => act
  d.modPly fun x => { x with mirRow := some (k, snap, der) }

/-- The mirrored safety states of an evaluation: how many in a row have differed from the own ones. -/
def Dev.mirrorSafeIn (d : Dev) (words : List (Nat × Word)) : Dev :=
  let d := d.modPly fun x => { x with mirSaf := words }
  let bad := (List.range 32).any (fun n => (d.mirrored (SAF_INST.STATE n)).any fun v => v ≠ d.rd 0 (SAF_INST.STATE n))
    || (List.range 8).any fun q => (d.mirrored (SAF_PAIRST.STATE q)).any fun v => v ≠ d.rd 0 (SAF_PAIRST.STATE q)
  d.modPly fun x => { x with safBad := if bad then x.safBad + 1 else 0 }

/-- A MIRROR arrives at a standby (R339, R340). -/
def Dev.mirrorIn (d : Dev) (m : PlyMirror) : Dev :=
  if d.rd 0 PLY_CFG.MODE ≠ 2 || d.plySt ≠ 5 then d
  else
    match m with
    | .row k words ses cbl rel snap act jnl => d.mirrorRowIn k words ses cbl rel snap act jnl
    | .safety words => d.mirrorSafeIn words
    | .commit page words => (d.mirrorPage page words).plyFollow
    | .load pages =>
      let d := pages.foldl (fun d e => d.mirrorPage e.1 e.2) (d.wr 0 PLY_STAT.MIRROR_OK 1)
      (d.jnlForget.modPly fun x => { x with mirRow := none }).plyFollow

/-- Operations of class ACT in flight, as the journal records up to a SEQ show them. -/
def Dev.actFlight (d : Dev) (lim : Nat) : List Op :=
  let ring := d.ope.jnl.filterMap fun e => match e.2 with
    | some r => if 64 ≤ e.1 && r.seq ≤ lim then some (e.1, r) else none
    | none => none
  (flightOf ring).filter fun o => o.cls = 0

/-- The coil command of an entry by the journal: that of the newest operation that ended well; before one, as mirrored. -/
def Dev.deriveCoil (d : Dev) (e : Nat) : Nat :=
  let recs := d.ringRecs
  let ops := recs.filter fun r => r.kind = 1 && (r.opkind = OK.CONT_CLOSE || r.opkind = OK.CONT_OPEN) && leAt r.body 0 1 = e
    && recs.any fun x => x.kind = 2 && x.ref = r.ref && leAt x.body 0 2 = 0
  match ops.getLast? with
  | some r => if r.opkind = OK.CONT_CLOSE then 1 else 0
  | none => d.rd 0 (CTM_STAT.CMD e)

/-- Whether a PUBLISH differs from what the standby derives (R341). -/
def Dev.publishDiffers (d : Dev) (row : Nat) (sets : List Int) (asg coils : List Nat) : Bool :=
  let busy := (d.actFlight d.jnlSeq).map fun o => o.arg 8 1
  let alloc := match d.ply.mirRow with
    | some (k, _, r) => k = row && (r.pts.map fun p => p.set) = sets && ((List.range 48).map fun s => d.asg s * 32 + d.asgPt s) = asg
    | none => false
  !alloc || ((List.range 64).any fun e => !busy.contains e && coils.getD e 0 ≠ d.deriveCoil e) || 3 ≤ d.ply.safBad

/-- A PUBLISH arrives (R341). -/
def Dev.publishIn (d : Dev) (row : Nat) (sets : List Int) (asg coils : List Nat) : Dev :=
  if d.rd 0 PLY_CFG.MODE ≠ 2 || d.plySt ≠ 5 then d
  else
    let d := d.modPly fun x => { x with prow := row }
    if !d.plyElig then d.wr 0 PLY_MISROWS.RUN 0
    else if d.publishDiffers row sets asg coils then
      (((d.inc 0 PLY_MISROWS.TOTAL).incSat 0 PLY_MISROWS.RUN).holdRestart)
    else d.wr 0 PLY_MISROWS.RUN 0

/-- The standby sends a forwarded downstream frame from its end of the ring; SYNC and DLY_RESP take its residence, at most
1 µs, into CORR (R338). A safety-layer frame shows the last SEQ sent (R344). -/
def Dev.sknfwdIn (d : Dev) (k : Nat) (f : List Byte) : Dev :=
  if d.rd 0 PLY_CFG.MODE ≠ 2 || d.plySt ≠ 5 || d.rd k SKN_CFG.TOPO ≠ 2 then d
  else
    let typ := leAt f 0 1
    let off := if typ = 0x01 then 12 else if typ = 0x05 then 24 else 0
    let body := f.take (f.length - 4)
    let (x, d) := d.drawBelow (64 * ticksPerUs + 1)
    let body := if off = 0 then body else body.take off ++ leBytes 4 (leAt f off 4 + x) ++ body.drop (off + 4)
    let d := if typ ≠ 0x40 then d
      else (d.sfcSkein k (leAt f 1 1)).foldl (fun d m => d.modCon m fun c => { c with txSeq := (leAt f 4 2 + 1) % 65536 }) d
    d.sendRaw (.skein k d.now (if off = 0 then f else withCrc body))

/-! ### Takeover (R343, R344) -/

/-- What the new active unit makes of the mirrored state: the journal's operations in flight, sessions, strands, load
switches, safety layer (R344 steps 2 to 6). Without a complete mirror it goes on as after a restart (R343). -/
def Dev.plyResume (sram : AMap Byte) (d : Dev) : Dev :=
  let ok := d.on 0 PLY_STAT.MIRROR_OK
  if !ok && d.ply.mirRow.isNone then d
  else
    let bad := d.rd 0 JNL_CRCERR.COUNT
    let d := (d.jnlScan []).wr 0 JNL_CRCERR.COUNT bad
    let d := if ok then (d.replayOps sram).raise 0 Ev.OPE.REPLAY_DONE else d.replay sram
    let run := (List.range 48).filter d.strRunning
    let d := run.foldl (fun d s =>
      ((d.setStr s 1).modStrand s fun x => { x with stopped := true, armed := false }).restartBegin s) d
    let on := (List.range 24).filter d.lswOn
    let d := on.zipIdx.foldl (fun d e =>
      let st := d.lswState e.1
      (d.setLsw e.1 5).modLsw e.1 fun x => { x with prev := st, uvAt := some (d.now + e.2 * 10 * ticksPerMs) }) d
    let d := (List.range 64).foldl (fun d m =>
      match d.ply.mirSaf.find? fun e => e.1 = 0x100000 + m with
      | some e => if d.rd 0 (SFC_CON_A.TRANS m) = 0 then d else d.modCon m fun c => { c with txSeq := (e.2.toNat + 2) % 65536 }
      | none => d) d
    { d with alc := { d.alc with next := none, scns := [] } }

/-- The pair's working state as control changes hands: on Yarn line only the active unit coordinates, and the one that
takes over begins its beacons at the next zero-cross edge (R221, R344). -/
def Dev.plyTurn (d : Dev) : Dev :=
  let d := d.yarnStop 6
  let d := { d with yarn := { d.yarn with enAt := d.now } }
  (d.modPly fun x => { x with mirRow := none, mirSaf := [], safBad := 0, chkAt := none, chkOwn := none, ret := none,
                              yieldAt := none }).wr 0 PLY_MISROWS.RUN 0

/-- A takeover, cause 1 SILENT or 2 SELFCHK (R344). -/
def Dev.takeover (sram : AMap Byte) (cause : Nat) (d : Dev) : Dev :=
  let d := (d.raise 0 Ev.PLY.TAKEOVER).inc 0 PLY_SWITCHES.COUNT
  let d := ((d.wr 0 PLY_LASTSW.CAUSE cause).wr 0 PLY_LASTSW.US 0).modPly fun x => { x with swAt := some d.now }
  let d := (d.plySend (.take d.now cause)).setPly 4
  (d.plyResume sram).plyTurn.plyFollow.plyLoad

/-- An active unit becomes standby: it drives nothing, and what it had under way is the partner's to resolve. -/
def Dev.standDown (d : Dev) : Dev :=
  let d := { d with ope := { d.ope with safeQ := [], intQ := [], flight := [] }, skn := { d.skn with reqs := [] },
                    alc := { d.alc with next := none, scns := [] } }
  ((d.wr 0 PLY_STAT.MIRROR_OK 0).setPly 5).plyTurn.plyFollow

/-- Effect of SOLO (R343): for 2 s neither a HELLO nor a downstream frame of another unit. -/
def soloEffect (sram : AMap Byte) (d : Dev) : Dev :=
  if d.plyUp && d.rd 0 PLY_CFG.MODE = 2 && d.plySt = 5 && d.ply.signAt + 2 * ticksPerS ≤ d.now then
    ((d.setPly 6).plyResume sram).plyTurn.plyFollow
  else d

/-- SOLO (R343). -/
def execSolo (t : Nat) (s : State) := onDev t (soloEffect s.mem.sram) s

/-- No intact frame has come for 1 ms; a unit of Ply-guard loses only a partner it has heard. -/
def Dev.plySilentFor (d : Dev) : Bool :=
  match d.ply.rxAt with
  | some r => r + ticksPerMs ≤ d.now
  | none => d.rd 0 PLY_CFG.MODE = 1 && d.ply.signAt + ticksPerMs ≤ d.now

/-- Effect of PLY_LOSS (R330, R336, R343). -/
def plyLossEffect (sram : AMap Byte) (d : Dev) : Dev :=
  if !d.plyUp || d.ply.lost || !d.plySilentFor then d
  else
    let take := d.rd 0 PLY_CFG.MODE = 2 && d.plySt = 5 && !d.on 0 PLY_STAT.SELFCHK_FAIL && !d.ringSeen
    let d := (d.modPly fun x => { x with lost := true, last := [], pstate := 0 }).raise 0 Ev.PLY.PLY_LOST
    let d := if take then d.takeover sram 1 else d
    d.plyUnpair

/-- PLY_LOSS (R330). -/
def execPlyLoss (t : Nat) (s : State) := onDev t (plyLossEffect s.mem.sram) s

/-- Effect of RING_FRAME_RX: a downstream frame of another unit at a RING_PLY port (R343). -/
def ringFrameRxEffect (k : Fin 12) (d : Dev) : Dev :=
  if !d.plyUp || d.rd 0 PLY_CFG.MODE ≠ 2 || d.rd k SKN_CFG.TOPO ≠ 2 || !d.sknOn k then d
  else
    let d := d.modPly fun x => { x with ringAt := some d.now, signAt := d.now }
    if d.plyActive && !d.plyPref && !(d.on 0 PLY_STAT.PAIRED && d.ply.pstate = 5) then
      ((List.range 64).foldl (fun d m => if 1 ≤ d.sesState m && d.sesState m ≤ 5 then d.sesEnd m 0x08 else d) d).standDown
    else d

/-- RING_FRAME_RX (R343). -/
def execRingFrameRx (t : Nat) (k : Fin 12) (s : State) := onDev t (ringFrameRxEffect k) s

/-! ### Self-check (R342) -/

/-- A self-check begins. -/
def Dev.chkBegin (d : Dev) : Dev :=
  d.holdRestart.modPly fun x => { x with chkAt := some d.now, chkOwn := none, chkPeer := none }

/-- Effect of SELF_CHECK_START: 3 mismatched rows start it on both units; the preferred unit runs one of its own once the
pair has formed (R345). -/
def selfCheckStartEffect (d : Dev) : Dev :=
  if !d.plyUp || d.rd 0 PLY_CFG.MODE ≠ 2 || d.plySt ≠ 5 || !d.on 0 PLY_STAT.PAIRED || d.ply.chkAt.isSome then d
  else if 3 ≤ d.rd 0 PLY_MISROWS.RUN then d.chkBegin.plySend (.check none)
  else if d.plyPref && d.on 0 PLY_STAT.MIRROR_OK && !d.ply.passed then d.chkBegin
  else d

/-- SELF_CHECK_START (R341, R342). -/
def execSelfCheckStart (t : Nat) (s : State) := onDev t selfCheckStartEffect s

/-- The self-check is over on this unit. -/
def Dev.chkEnd (d : Dev) : Dev :=
  (d.modPly fun x => { x with passed := x.passed || x.chkOwn = some true, chkAt := none, chkOwn := none }).plyFollow

/-- The outcome of Table PLY-4, from the own result and the partner's (none: no result within 3 ms). -/
def Dev.chkOutcome (sram : AMap Byte) (d : Dev) (own : Bool) (peer : Option Bool) : Dev :=
  if d.plyActive then
    match own, peer with
    | true, some true => ((d.wr 0 PLY_STAT.MISMATCH 1).raise 0 Ev.PLY.MISMATCH).chkEnd
    | true, _ => ((d.modPly fun x => { x with chkPeer := some false }).raise 0 Ev.PLY.STANDBY_FAIL).chkEnd
    | false, _ => d.chkEnd
  else
    match own, peer with
    | true, some true => (((d.wr 0 PLY_STAT.MISMATCH 1).raise 0 Ev.PLY.MISMATCH).wr 0 PLY_MISROWS.RUN 0).chkEnd
    | true, _ => (d.modPly fun x => { x with passed := true }).takeover sram 2
    | false, _ => d.chkEnd

/-- Whether the check under way concerns both units. -/
def Dev.chkMutual (d : Dev) : Bool := d.plyActive || 3 ≤ d.rd 0 PLY_MISROWS.RUN

/-- Act on the results there are. -/
def Dev.chkSettle (sram : AMap Byte) (d : Dev) : Dev :=
  match d.ply.chkAt, d.ply.chkOwn with
  | some _, some own =>
    if !d.chkMutual then d.chkEnd
    else match d.ply.chkPeer with
      | some p => d.chkOutcome sram own (some p)
      | none => d
  | _, _ => d

/-- Effect of SELF_CHECK_DONE. -/
def selfCheckDoneEffect (pass : Bool) (sram : AMap Byte) (d : Dev) : Dev :=
  if d.ply.chkAt.isNone || d.ply.chkOwn.isSome then d
  else
    let d := (d.modPly fun x => { x with chkOwn := some pass }).raise 0 Ev.PLY.SELFCHK_DONE
    let d := if pass then d else d.wr 0 PLY_STAT.SELFCHK_FAIL 1
    (d.plySend (.check (some pass))).plyFollow.chkSettle sram

/-- SELF_CHECK_DONE (R342). -/
def execSelfCheckDone (t : Nat) (pass : Bool) (s : State) := onDev t (selfCheckDoneEffect pass s.mem.sram) s

/-- A CHECK arrives: a request, or the partner's result. -/
def Dev.checkIn (sram : AMap Byte) (d : Dev) (res : Option Bool) : Dev :=
  match res with
  | none => if d.plyActive && d.ply.chkAt.isNone then d.chkBegin else d
  | some r => (d.modPly fun x => { x with chkPeer := some r }).chkSettle sram

/-- Effect of SELF_CHECK_TIMEOUT: no result of the partner within 3 ms (Table PLY-4). -/
def selfCheckTimeoutEffect (sram : AMap Byte) (d : Dev) : Dev :=
  match d.ply.chkAt with
  | some t0 =>
    if t0 + 3 * ticksPerMs ≤ d.now && d.chkMutual && d.ply.chkPeer.isNone then
      match d.ply.chkOwn with
      | some own => d.chkOutcome sram own none
      | none => d.chkEnd
    else d
  | none => d

/-- SELF_CHECK_TIMEOUT (R342). -/
def execSelfCheckTimeout (t : Nat) (s : State) := onDev t (selfCheckTimeoutEffect s.mem.sram) s

/-! ### Return and switch (R345, R346) -/

/-- Effect of RETURN_START: the hold-off has passed; T is two boundaries on. -/
def returnStartEffect (d : Dev) : Dev :=
  match d.ply.holdAt with
  | some h =>
    if d.plyUp && d.plyElig && d.ply.ret.isNone && h + d.rd 0 PLY_GUARD.HOLDOFF_S * ticksPerS ≤ d.now then
      let t := d.rd 0 ALC_ROWCNT.ROWS + 2
      (d.modPly fun x => { x with ret := some (t, 0, 3) }).plySend (.take t 3)
    else d
  | none => d

/-- RETURN_START (R345). -/
def execReturnStart (t : Nat) (s : State) := onDev t returnStartEffect s

/-- A TAKE arrives: a takeover ends this unit's activity; a return or a switch names its boundary. -/
def Dev.takeIn (d : Dev) (at_ cause : Nat) : Dev :=
  if d.rd 0 PLY_CFG.MODE ≠ 2 then d
  else if cause = 1 || cause = 2 then (if d.plyActive then d.standDown else d)
  else
    let moves := match d.ply.ret with | some (_, m, _) => m | none => 0
    let d := d.modPly fun x => { x with ret := some (at_, moves, cause) }
    if d.plyActive then d.modPly fun x => { x with yieldAt := some at_ } else d

/-- A write of PLY_CMD (R346). -/
def Dev.plySwitch (d : Dev) (v : Nat) : Except Nat Dev :=
  let partner := d.on 0 PLY_STAT.PAIRED && d.on 0 PLY_STAT.ALIGNED && d.ply.pstate = 5 && d.ply.chkPeer ≠ some false
  if v % 16 ≠ 1 then .error RC.RANGE
  else if v < 2 ^ 31 then .ok d
  else if !d.plyActive || !partner || d.ply.ret.isSome then .error 0x82
  else
    let t := d.rd 0 ALC_ROWCNT.ROWS + 2
    .ok ((d.modPly fun x => { x with ret := some (t, 0, 4), yieldAt := some t }).plySend (.take t 4))

/-- The former active hands over at T. -/
def Dev.plyYield (d : Dev) : Dev :=
  let d := { d with alc := { d.alc with next := none, scns := [] } }
  (((d.wr 0 PLY_STAT.MIRROR_OK 0).setPly 5).plyTurn.raise 0 Ev.PLY.RETURN).plyFollow

/-- The allocation that a returning unit makes active at T: R62 on the mirrored snapshot of the row before (R345). -/
def Dev.returnAlloc (d : Dev) : Dev :=
  match d.ply.mirRow with
  | some (k, x, _) =>
    if k + 1 = d.rd 0 ALC_ROWCNT.ROWS then
      let live := (List.range 32).filterMap fun p =>
        if (x.pts.getD p {}).alloc then (d.liveSes p).map fun m => (p, m) else none
      { d with alc := { d.alc with next := some (allocate x.site x.pts), doneAt := 0, scns := [], live := live } }
    else d
  | none => d

/-- The returning unit takes control at T: the journal's head, tail and sessions follow the mirrored records. -/
def Dev.plyReturn (d : Dev) (cause : Nat) : Dev :=
  let d := d.returnAlloc
  let held := d.host.cqHeld
  let bad := d.rd 0 JNL_CRCERR.COUNT
  let d := (d.jnlScan []).wr 0 JNL_CRCERR.COUNT bad
  let d := { d with host := { d.host with cqHeld := held }, ope := { d.ope with flight := [] } }
  let d := ((d.jnlTail.inc 0 PLY_SWITCHES.COUNT).wr 0 PLY_LASTSW.CAUSE cause).wr 0 PLY_LASTSW.US 0
  ((d.setPly 4).plyTurn.raise 0 Ev.PLY.RETURN).plyFollow.plyLoad

/-- At a row boundary: a return under way takes place at T, or moves a row later while an ACT operation of the active unit
is in flight; after 10 moves it is given up (R345). -/
def Dev.plyRowTurn (d : Dev) : Dev :=
  match d.ply.ret with
  | none => d
  | some (t, moves, cause) =>
    let active := d.plyActive
    if d.rd 0 ALC_ROWCNT.ROWS < t then d
    else if !(d.actFlight (if active then d.ply.jnlSent else d.jnlSeq)).isEmpty then
      if 10 ≤ moves + 1 then
        let d := d.modPly fun x => { x with ret := none, yieldAt := none }
        if active then d else (d.raise 0 Ev.PLY.RETURN_ABORT).holdRestart
      else
        let d := d.modPly fun x => { x with ret := some (t + 1, moves + 1, cause), yieldAt := x.yieldAt.map (· + 1) }
        if active then d else d.plySend (.take (t + 1) cause)
    else if active then d.plyYield
    else d.plyReturn cause

/-- The switchover is complete at the first row boundary after it (R344). -/
def Dev.plySwDone (d : Dev) : Dev :=
  match d.ply.swAt with
  | some t0 => (d.wrU 0 PLY_LASTSW.US ((d.now - t0) / ticksPerUs : Nat)).modPly fun x => { x with swAt := none }
  | none => d

/-! ### Markers and metering across the pair (R347, R348) -/

/-- A session marker goes to the home island of its point: over the C–L link, or over Ply; Ply loss drops it. -/
def Dev.marker (d : Dev) (start : Bool) (loop gen point : Nat) : Dev :=
  if d.rd 0 PLY_CFG.MODE = 2 && d.par MP.HOME point = 1 then
    (if d.plyPaired then d.plySend (.mark start loop gen point) else d)
  else d.send (.marker start loop gen point)

/-- Effect of MARK_START on the operation in a slot. -/
def markStartEffect (slot : Fin 384) (d : Dev) : Dev :=
  d.act slot OK.MARK_START fun o d => (d.marker true (o.arg 8 1) (o.arg 9 1) (o.arg 10 1)).opFinish slot 0

/-- MARK_START (R211, R268, R347). -/
def execMarkStart (t : Nat) (slot : Fin 384) (s : State) := onDev t (markStartEffect slot) s

/-- Effect of MARK_END on the operation in a slot. -/
def markEndEffect (slot : Fin 384) (d : Dev) : Dev :=
  d.act slot OK.MARK_END fun o d => (d.marker false (o.arg 8 1) (o.arg 9 1) (o.arg 10 1)).opFinish slot 0

/-- MARK_END (R211, R268, R347). -/
def execMarkEnd (t : Nat) (slot : Fin 384) (s : State) := onDev t (markEndEffect slot) s

/-- The per-second power of a metering point, W. -/
def Dev.mtrP (d : Dev) (mp : Nat) : Int :=
  if mp < 32 then d.rdI 0 (MTR_DC_P.W mp) else d.rdI 0 (MTR_AC_P.W (mp - 32))

/-- Each second a unit of Ply-guard sends the power of its metering points. -/
def Dev.mtrSend (d : Dev) : Dev :=
  if d.plyUp && d.rd 0 PLY_CFG.MODE = 2 && d.on 0 PLY_STAT.PAIRED then
    d.plySend (.mtrsec ((List.range 36).map d.mtrP))
  else d

/-- Whether a metering point's bit stands in PLY_XCHK. -/
def Dev.xchkBit (d : Dev) (mp : Nat) : Bool :=
  if mp < 32 then d.bit 0 PLY_XCHK_LO.PTS mp else d.bit 0 PLY_XCHK_HI.INC (mp - 32)

/-- Set or clear it. -/
def Dev.setXchk (d : Dev) (mp : Nat) (b : Bool) : Dev :=
  if mp < 32 then d.wrBit 0 PLY_XCHK_LO.PTS mp b else d.wrBit 0 PLY_XCHK_HI.INC (mp - 32) b

/-- The home unit compares a second's power with the partner's. -/
def Dev.mtrsecIn (d : Dev) (ps : List Int) : Dev :=
  if d.rd 0 PLY_CFG.MODE ≠ 2 then d
  else
    (List.range 36).foldl (fun d mp =>
      if !d.mpUsed mp || d.par MP.HOME mp ≠ 0 then d
      else
        let a := d.mtrP mp
        let b := ps.getD mp 0
        let big := max (max a.natAbs b.natAbs) 1000
        if d.rd 0 PLY_GUARD.XCHK_PM * big < (a - b).natAbs * 1000 then
          d.modPly fun x => { x with bad := x.bad.set (fun _ => 0) mp (x.bad.get (fun _ => 0) mp + 1),
                                     good := x.good.set (fun _ => 0) mp 0 }
        else
          let n := d.ply.good.get (fun _ => 0) mp + 1
          let d := d.modPly fun x => { x with good := x.good.set (fun _ => 0) mp n, bad := x.bad.set (fun _ => 0) mp 0 }
          if 60 ≤ n then d.setXchk mp false else d) d

/-- Effect of XCHK_DIFF: 60 consecutive seconds beyond the limit (R348). -/
def xchkDiffEffect (mp : Fin 36) (d : Dev) : Dev :=
  if 60 ≤ d.ply.bad.get (fun _ => 0) mp.val && !d.xchkBit mp then (d.setXchk mp true).raise 0 Ev.PLY.XCHK_DIFF else d

/-- XCHK_DIFF (R348). -/
def execXchkDiff (t : Nat) (mp : Fin 36) (s : State) := onDev t (xchkDiffEffect mp) s

/-- A TRIG of the partner (R371, R372): 0 arms under its number, 1 disarms, 2 triggers where SRCEN admits PLY. -/
def Dev.trigIn (d : Dev) (kind time capid : Nat) : Dev :=
  if !d.domOn .frc then d
  else
    match kind with
    | 0 => d.frcArm capid
    | 1 => d.frcDisarm
    | _ => if d.bit 0 FRC_CFG.SRCEN 3 then d.frcTrigger 4 time else d

/-! ### Frames in (R330) -/

/-- What a frame does once it is accepted. All but HELLO and HEARTBEAT need the pair. -/
def Dev.plyAct (sram : AMap Byte) (link : Nat) (d : Dev) (f : PlyFrame) : Dev :=
  match f with
  | .hello pairid serial mode role pref crc => d.helloIn pairid serial mode role pref crc
  | .heartbeat state rowcnt check => d.heartbeatIn link state rowcnt check
  | _ =>
    if !d.on 0 PLY_STAT.PAIRED then d
    else
      match f with
      | .time sent echo echoAt row rowAt => d.timeIn sent echo echoAt row rowAt
      | .snap row x => d.snapIn row x
      | .alloc row res rejoin => d.allocIn row res rejoin
      | .mirror m => d.mirrorIn m
      | .publish row sets asg coils _ => d.publishIn row sets asg coils
      | .sknfwd k bytes => d.sknfwdIn k bytes
      | .check res => d.checkIn sram res
      | .take at_ cause => d.takeIn at_ cause
      | .mark start loop gen point => d.send (.marker start loop gen point)
      | .mtrsec ps => d.mtrsecIn ps
      | .trig kind _ time capid => d.trigIn kind time capid
      | _ => d

/-- Whether a SEQ is newer than the last accepted of its TYPE. -/
def plyNewer (last seq : Nat) : Bool := last = 0 || (let g := (seq + 1 + 2 ^ 32 - last) % 2 ^ 32; 1 ≤ g && g < 2 ^ 31)

/-- An intact frame on a link: the first copy is taken, the other ignored; in a Ply loss only HELLO counts. -/
def plyTake (sram : AMap Byte) (link seq : Nat) (f : PlyFrame) (d : Dev) : Dev :=
  if !d.plyUp then d
  else
    let hello := plyType f = 0x01
    let d := d.modPly fun x => { x with rxAt := some d.now }
    let d := if plyType f = 0x02 then d.modPly fun x => { x with hb := x.hb.set (fun _ => false) link true } else d
    if d.ply.lost && !hello then d
    else if !plyNewer (d.ply.last.get (fun _ => 0) (plyType f)) seq then d
    else
      let d := d.modPly fun x => { x with last := x.last.set (fun _ => 0) (plyType f) (seq % 2 ^ 32 + 1) }
      d.plyAct sram link f

/-- PLY_FRAME_RX (R330): a frame whose CRC fails only counts. -/
def execPlyFrameRx (t : Nat) (link : Fin 2) (ok : Bool) (seq : Nat) (f : PlyFrame) (s : State) :=
  onDev t (fun d => if ok then plyTake s.mem.sram link seq f d else if d.plyUp then d.inc link PLY_CRCERR.COUNT else d) s

/-- HELLO_RX (R331). -/
def execHelloRx (t : Nat) (link : Fin 2) (seq pairid serial mode role pref crc : Nat) (s : State) :=
  onDev t (plyTake s.mem.sram link seq (.hello pairid serial mode role pref crc)) s

/-- TIME_RX (R332). -/
def execTimeRx (t : Nat) (link : Fin 2) (seq sent echo echoAt row rowAt : Nat) (s : State) :=
  onDev t (plyTake s.mem.sram link seq (.time sent echo echoAt row rowAt)) s

/-- SNAP_RX (R335). -/
def execSnapRx (t : Nat) (link : Fin 2) (seq row : Nat) (x : AlcSnap) (s : State) :=
  onDev t (plyTake s.mem.sram link seq (.snap row x)) s

/-- ALLOC_RX (R335, R336). -/
def execAllocRx (t : Nat) (link : Fin 2) (seq row : Nat) (res : AlcRes) (rejoin : Option Nat) (s : State) :=
  onDev t (plyTake s.mem.sram link seq (.alloc row res rejoin)) s

/-- MIRROR_RX (R339, R340). -/
def execMirrorRx (t : Nat) (link : Fin 2) (seq : Nat) (m : PlyMirror) (s : State) :=
  onDev t (plyTake s.mem.sram link seq (.mirror m)) s

/-- SKNFWD_RX (R338). -/
def execSknfwdRx (t : Nat) (link : Fin 2) (seq : Nat) (k : Fin 12) (f : List Byte) (s : State) :=
  onDev t (plyTake s.mem.sram link seq (.sknfwd k f)) s

/-- PUBLISH_RX (R341). -/
def execPublishRx (t : Nat) (link : Fin 2) (seq row : Nat) (sets : List Int) (asg coils saf : List Nat) (s : State) :=
  onDev t (plyTake s.mem.sram link seq (.publish row sets asg coils saf)) s

/-- CHECK_RX (R342). -/
def execCheckRx (t : Nat) (link : Fin 2) (seq : Nat) (res : Option Bool) (s : State) :=
  onDev t (plyTake s.mem.sram link seq (.check res)) s

/-- TAKE_RX (R344, R345). -/
def execTakeRx (t : Nat) (link : Fin 2) (seq at_ cause : Nat) (s : State) :=
  onDev t (plyTake s.mem.sram link seq (.take at_ cause)) s

/-- MARK_RX (R347): the partner's marker goes to the own island. -/
def execMarkRx (t : Nat) (link : Fin 2) (seq : Nat) (start : Bool) (loop gen point : Nat) (s : State) :=
  onDev t (plyTake s.mem.sram link seq (.mark start loop gen point)) s

/-- MTRSEC_RX (R348). -/
def execMtrsecRx (t : Nat) (link : Fin 2) (seq : Nat) (ps : List Int) (s : State) :=
  onDev t (plyTake s.mem.sram link seq (.mtrsec ps)) s

/-- TRIG_RX (R372). -/
def execTrigRx (t : Nat) (link : Fin 2) (seq kind src time capid : Nat) (s : State) :=
  onDev t (plyTake s.mem.sram link seq (.trig kind src time capid)) s

/-! ### The second and the evaluation -/

/-- SAFE_EVALUATION (R295, R297, R302), with what rests on it: the end of a quiesce window (R325), the mirrored safety
states (R340). -/
def safeEvaluationActs (d : Dev) : Dev :=
  let was := d.saf.evalIx
  let d := (safeEvaluationEffect d).quiesceCheck
  if d.saf.evalIx ≠ was && d.plyActive && d.plyPaired && d.plyUp then d.mirrorSafe else d

/-- SAFE_EVALUATION (R295). -/
def execSafeEvaluation (t : Nat) (s : State) := onDev t safeEvaluationActs s

end Sys2Proof.Machine
end

