-- ==== Sys2Proof/Machine/Boundary.lean ====
section
/-!
DEFINITION. The boundaries at which blocks turn together: the row (R26 to R28, R54, R77, R335, R336), a strand's sample
(R27, R96, R101, R103) and the second of the L-die (R249).
-/

namespace Sys2Proof.Machine

/-! ### The row: what becomes active -/

/-- The row boundary that is due, if one is. -/
def Dev.rowDue (d : Dev) : Option Nat :=
  let b := if d.alc.started then d.rowEnd else d.alc.firstAt
  if d.pageUp .alc 0 && b ≤ d.now then some b else none

/-- PLY-B takes the ALLOC of the row that begins, or holds (R335 step 4). -/
def Dev.joinTake (d : Dev) : Dev :=
  match d.ply.allocIn with
  | some (row, r) =>
    if row = d.rd 0 ALC_ROWCNT.ROWS then (d.putAlloc r 32).modPly fun x => { x with lateN := 0 }
    else ((d.holdAlloc.raise 0 Ev.PLY.ALLOC_LATE).modPly fun x => { x with lateN := x.lateN + 1 })
  | none => ((d.holdAlloc.raise 0 Ev.PLY.ALLOC_LATE).modPly fun x => { x with lateN := x.lateN + 1 })

/-- Step 1: the allocation of the row before becomes active; nothing does at the first boundary, nor on a standby. -/
def Dev.rowActive (d : Dev) (b : Nat) : Dev :=
  if !d.alc.started || d.plySilent then d
  else
    let d := if d.rd 0 PLY_CFG.MODE = 1 && !d.plyA && d.alc.next.isNone then d.joinTake else d.rowSelect b
    d.wr 0 ALC_STAT.CALC_US d.alc.calcUs

/-- The row that begins: the commit of the ALC page, the new length (R54), the first boundary's instant (R56). -/
def Dev.rowBegin (d : Dev) (b : Nat) : Dev :=
  let d := d.commitAt .alc 0 b
  let a := d.alc
  { d with alc := { a with started := true, rowAt := b, rowLen := d.rd 0 ALC_ROWCFG.ROW_US * ticksPerUs,
                           firstAt := if a.started then a.firstAt else b,
                           gridAt := if a.started then a.gridAt else max a.gridAt b } }

/-- The boundary PLY-A has named: joint allocation resumes (R336). -/
def Dev.rowRejoin (d : Dev) : Dev :=
  match d.ply.rejoin with
  | some k =>
    if d.rd 0 PLY_CFG.MODE = 1 && d.rd 0 ALC_ROWCNT.ROWS = k then
      let was := d.plySt
      let d := (d.modPly fun x => { x with joint := true, rejoin := none, lateN := 0 }).setPly 2
      if was = 3 then d.raise 0 Ev.PLY.REJOIN else d
    else d
  | none => d

/-! ### The snapshot and the computation -/

/-- What the boundary settles before the snapshot is taken: the means of the row ended (R95), ramps and handovers, the
inputs' flags, strands for sessions (R70 to R73), and points that may begin (R116). -/
def Dev.rowSettle (d : Dev) : Dev :=
  let (peak, d) := d.drawBelow 101
  let d := (List.range 32).foldl Dev.rowMeans (d.wr 0 CLE_PEAK.PCT peak)
  let d := (d.rampTurn.hoOrphans.inputFlags).cabFollow
  let d := (d.hoSnapshot.hoAuto).pickAll
  ((List.range 32).foldl Dev.prebiasCheck d).shareCaps

/-- Step 2: the snapshot. -/
def Dev.rowSnap (d : Dev) : Dev :=
  let x : AlcSnap := { row := d.rd 0 ALC_ROWCNT.ROWS, site := d.siteIn d.plyShare, pts := (List.range 32).map d.ptIn,
                       prems := d.candidates d.alc.rowLen }
  let live := (List.range 32).filterMap fun p =>
    if d.allocatable p then (d.liveSes p).map fun m => (p, m) else none
  { d with alc := { d.alc with snap := x, live := live } }

/-- Step 4 in a joint row: each unit sends its snapshot; PLY-A computes once it has both, PLY-B waits for ALLOC. -/
def Dev.rowJoin (d : Dev) : Dev :=
  let x := d.alc.snap
  let d := d.plySend (.snap x.row x)
  if d.plyA then
    let d := { d with alc := { d.alc with next := some {}, doneAt := d.rowEnd + 1, scns := [] } }
    if d.ply.snapIn.any fun e => e.1 = x.row then (d.modPly fun y => { y with lateN := 0 }).joinCompute false
    else d.modPly fun y => { y with waiting := true }
  else { d with alc := { d.alc with next := none, scns := [] } }

/-- Steps 4 and 5: the committed allocation and the scenarios. -/
def Dev.rowWork (d : Dev) : Dev :=
  if d.plyJoint then d.rowJoin
  else
    let x := d.alc.snap
    let d := if d.rd 0 PLY_CFG.MODE = 1 && d.plyPaired then d.plySend (.snap x.row x) else d
    d.rowCompute 700 x.site x.pts x.prems

/-- A row begins at boundary b. A standby counts the row and leaves the work to the active unit (Table PLY-2). -/
def Dev.rowTurn (d : Dev) (b : Nat) : Dev :=
  let d := (d.inc 0 ALC_ROWCNT.ROWS).plyRowTurn
  let d := ((d.rowActive b).rowBegin b).rowRejoin
  let d :=
    if d.plySilent then d.thmRowTurn
    else
      let d := (d.rowSettle.rowSnap).cblUpdate (d.rd 0 ALC_ROWCFG.ROW_US)
      let d := d.rowWork
      if d.plyActive && d.plyPaired then d.mirrorRow.publish else d
  d.plySwDone

/-- Effect of ROW_BOUNDARY (R26). -/
def rowBoundaryEffect (d : Dev) : Dev :=
  match d.rowDue with
  | some b => d.rowTurn b
  | none => d

/-- What is written at or after a row boundary that has come enters the next snapshot, not the boundary's own (R26, R59):
the row turns before it. -/
def Dev.rowCatch (d : Dev) : Dev := rowBoundaryEffect d

/-- ROW_BOUNDARY (R26). -/
def execRowBoundary (t : Nat) (s : State) := onDev t rowBoundaryEffect s

/-! ### A strand's sample boundary -/

/-- At its first boundary at or after the row's, the lead of a point takes the allocation then active (R27). -/
def Dev.takeSet (d : Dev) (s b : Nat) : Dev :=
  let p := d.asgPt s
  if d.leadOf p = some s && d.alc.rowAt ≤ b then d.modPoint p fun x => { x with setUse := d.rdI 0 (ALC_PTSET.MA p) } else d

/-- A bank swap of the point's outer loop that its lead takes at this sample (R100, R101). -/
def Dev.outSwap (d : Dev) (s : Nat) : Bool :=
  let p := d.asgPt s
  d.leadOf p = some s && d.rd p OUT_LOOPSTAT.BANK ≠ d.rd p OUT_LOOPCFG.BANKSEL

/-- The sample at a boundary: a shed whose hold expires there is settled, the STR commit takes effect, and the CLE commit
at the first boundary of a running strand (R50, R83, R101); the strand that meets it takes the new TLM_DL and MISS_LIMIT
at its next sample start (DEDUCED, log entry 309). Whether a new allocation or a bank swap takes effect is noted (R27,
R84). -/
def Dev.sampleAt (d : Dev) (s b : Nat) : Dev :=
  let d := shedHoldExpiryAct s d
  let bank := d.rd s STR_STAT.BANK
  let d := d.modStrand s fun x => { x with started := true, boundary := b, sample := x.sample + 1 }
  let d := d.commitAt .str s b
  let row := d.alc.rowAt
  let new := ((d.strand s).rowSeen < row && row ≤ b) || bank ≠ d.rd s STR_STAT.BANK || d.outSwap s
  let d := d.modStrand s fun x =>
    { x with awaiting := true, awaitPeak := d.on s STR_CFG.CSAMP, dl := d.rd 0 CLE_CFG.TLM_DL,
             missLim := d.rd 0 CLE_CFG.MISS_LIMIT, newSet := new, rowSeen := if row ≤ b then row else x.rowSeen }
  let d := if d.strRunning s then d.commitAt .cle 0 b else d
  (d.takeSet s b).inc s STR_SAMPLES.COUNT

/-- Effect of SAMPLE_BOUNDARY (R96, R103): the strand's next boundary, at exactly PERIOD after the last; the first falls
when the device chooses, the command's instant, and no later than one PERIOD after the carrier's start. -/
def sampleBoundaryEffect (n : Fin 48) (d : Dev) : Dev :=
  let x := d.strand n
  let per := d.rd n STR_CARRIER.PERIOD
  if !d.strEn n || !d.domOn .cle then d
  else if !x.started then d.sampleAt n (min d.now (x.carrierAt + per))
  else if x.boundary + per ≤ d.now then d.sampleAt n (x.boundary + per)
  else d

/-- SAMPLE_BOUNDARY (R96). -/
def execSampleBoundary (t : Nat) (n : Fin 48) (s : State) := onDev t (sampleBoundaryEffect n) s

/-! ### The second boundary -/

/-- Effect of SECOND_BOUNDARY (R249); a TRF commit takes effect there (R50). A row boundary at the same instant still takes
the price from before (R26). -/
def secondBoundaryEffect (d : Dev) : Dev := if d.lglUp then d.rowCatch.secondTick.commitPending .trf 0 else d

/-- Effect of L_TO_C_SECOND_FEED: RTC page and price, the alarm, MTRSEC (R20, R348, R397). A row boundary at the same
instant is turned first, so its snapshot holds the price from before (R26). -/
def lToCSecondFeedEffect (d : Dev) : Dev := if d.lglUp then d.rowCatch.rtcFeed.rtcAlarm.mtrSend else d

/-- L_TO_C_SECOND_FEED (R20). -/
def execLToCSecondFeed (t : Nat) (s : State) := onDev t lToCSecondFeedEffect s

/-- SECOND_BOUNDARY (R249). -/
def execSecondBoundary (t : Nat) (s : State) := onDev t secondBoundaryEffect s

end Sys2Proof.Machine
end

