-- ==== Sys2Proof/Machine/HostAccess.lean ====
section
/-!
DEFINITION. Host accesses: what a write to BAR0 or BAR2 does (R12, R13, R36, R37, R46 to R53, R438), the writes with a
step of their own, the rings' host side (R38 to R41, R45), the management port (R42, R44) and the link (R35).
-/

namespace Sys2Proof.Machine

/-! ### Registers as a write sees them (R12, Table DOC-3) -/

/-- The bits of the fields of some access codes. -/
def RegFam.mask (r : RegFam) (p : Acc → Bool) : Nat :=
  r.fields.foldl (fun m f => if p f.acc then Nat.lor m (2 ^ (f.hi + 1) - 2 ^ f.lo) else m) 0

/-- Every field is RO or ROH. -/
def RegFam.readOnly (r : RegFam) : Bool := r.fields.all fun f => f.acc = .ro || f.acc = .roh

/-- The register holds an RW or RWS field: a lock covers it (R48). -/
def RegFam.lockable (r : RegFam) : Bool := r.fields.any fun f => f.acc = .rw || f.acc = .rws

/-- A bit of a value that lies outside a mask is set. -/
def bitsOutside (m : Nat) (v : Word) : Bool := v.toNat ≠ Nat.land v.toNat m

/-- A writable field is out of its own range. -/
def RegFam.rangeBad (r : RegFam) (v : Word) : Bool :=
  r.fields.any fun f => !(f.acc = .ro || f.acc = .roh) && !f.rng.ok (f.hi + 1 - f.lo) (fget f.hi f.lo v)

/-- Checks and an effect put together: the first reason in the order of R438, or the effect. -/
def checked (cs : List Nat) (go : Except Nat Dev) : Except Nat Dev :=
  match firstReason (cs ++ (match go with | .error c => [c] | .ok _ => [])), go with
  | some c, _ => .error c
  | none, r => r

/-! ### Points a block serves (R439, Table DOC-26) -/

/-- The points whose CBL page names an auxiliary loop for its coolant. -/
def Dev.auxServes (d : Dev) (a : Nat) : List Nat :=
  (List.range 32).filter fun p => d.on p CBL_CFG.COOL_EN && d.rd p CBL_CFG.COOL_AUX = a

/-- The points that instance n of a block serves. -/
def Dev.serves (d : Dev) (t : Tag) (n : Nat) : List Nat :=
  match t with
  | .out | .cbl => [n]
  | .str => if 1 ≤ d.asg n && d.asg n ≤ 4 then [d.asgPt n] else []
  | .aux => d.auxServes n
  | .lsw => (List.range 16).flatMap fun a =>
      if d.rd a AUX_OUT.TYPE = 0 && d.rd a AUX_OUT.LSW = n then d.auxServes a else []
  | .thm => (if d.on n THM_CFG.HWEN then [d.rd n THM_CFG.HWPT] else [])
      ++ (List.range 32).filter fun p => (d.cblChans p).contains n
  | .skn => d.sknServes n
  | .sys | .clk | .ctm | .cle | .alc | .ope | .jnl | .vcm | .ses | .plc | .ply => List.range 32
  | .hif | .evt | .dtm | .cry | .frc | .pwr | .rst | .aon | .rtc | .saf | .sfc | .key | .lgl | .mtr | .trf | .tmp => []

/-- Pages on which SRST is refused with ROLE (R419). -/
def noSrst (t : Tag) : Bool :=
  legalTag t || t = .aon || t = .pwr || t = .rst || t = .key || t = .saf || t = .sfc

/-! ### Header writes (R46 to R50) -/

/-- The hardware trip of a channel and its cool-down, which the safety island holds, outlive the reset of its page (R167). -/
def Dev.tripKept (d : Dev) (n : Nat) (x : Thm) : Dev :=
  if x.trip = 0 then d
  else
    let d := d.modThm n fun y => { y with trip := x.trip, tripPt := x.tripPt, coolAt := x.coolAt }
    d.wr n THM_STAT.HWTRIP 1

/-- The block soft reset (R48, R419): the page returns to reset, then SEQ counts. -/
def Dev.softReset (d : Dev) (t : Tag) (n : Nat) : Dev :=
  let x := d.thmRec n
  let d := (d.resetPage t n).seqInc t n
  let d := if t = .thm then d.tripKept n x else d
  if t = .str then d.showLoad else if t = .lsw then d.lswGate n else d

/-- A port that is disabled sends nothing and loses its link, so that enabling it brings the nodes up anew, with an ENUM
(R146; DEDUCED, log entry 320). -/
def Dev.sknDisable (d : Dev) (k : Nat) : Dev := if h : k < 12 then sknSyncLossEffect ⟨k, h⟩ d else d

/-- A write of PCTRL: with SRST the soft reset alone, else EN and LOCK (R48). -/
def Dev.pctrlWrite (d : Dev) (t : Tag) (n : Nat) (v : Word) : Except Nat Dev :=
  let en := v.getLsbD 0
  let srst := v.getLsbD 1
  let base := failIf (d.locked t n) RC.LOCKED ++ failIf (bitsOutside 7 v) RC.RSV_BIT
  if srst then
    checked (base ++ failIf (noSrst t) RC.ROLE ++ failIf ((d.serves t n).any d.energised) RC.ENERGISED)
      (.ok (d.softReset t n))
  else
    checked base (do
      let d ← if t = .str then d.strEnable n en else .ok (d.wrB n (PCTRL.EN t) en)
      let d := if t = .skn && !en then d.sknDisable n else d
      pure ((d.wrB n (PCTRL.LOCK t) (v.getLsbD 2)).seqInc t n))

/-- The bits of a word, ascending. -/
def bitsOf (v : Word) : List Nat := (List.range 32).filter v.getLsbD

/-- Clear pending events (W1C): an event that is pending no more has no entry to add to. -/
def Dev.pendClear (d : Dev) (t : Tag) (n : Nat) (v : Word) : Dev :=
  (bitsOf v).foldl (fun d b => (d.wrBit n (EVT_PEND.PEND t) b false).setEvIdx (evKey t n b) 0) d

/-- Set pending events as injected ones (R47). -/
def Dev.pendSet (d : Dev) (t : Tag) (n : Nat) (v : Word) : Dev := (bitsOf v).foldl (fun d b => d.pend t n b true) d

/-- A unit of a Ply-guard pair that is a standby refuses the commands of the active unit (R339). -/
def Dev.standby (d : Dev) : Bool := d.plySilent

/-- A write to a header register (Table DOC-13). -/
def Dev.headerWrite (d : Dev) (t : Tag) (n off : Nat) (v : Word) : Except Nat Dev :=
  let ev := evtBits t n
  if off = 0x008 then d.pctrlWrite t n v
  else if off = 0x014 then
    checked (failIf (d.locked t n) RC.LOCKED ++ failIf (bitsOutside ev v) RC.RSV_BIT)
      (.ok ((d.setWord t n 0x014 v).seqInc t n))
  else if off = 0x018 then checked (failIf (bitsOutside ev v) RC.RSV_BIT) (.ok (d.pendClear t n v))
  else if off = 0x01C then checked (failIf (bitsOutside ev v) RC.RSV_BIT) (.ok (d.pendSet t n v))
  else if off = 0x020 then
    checked (failIf (d.standby && !plyOwn t) RC.ROLE ++ failIf (d.locked t n) RC.LOCKED
      ++ failIf (bitsOutside 0xFFFF v) RC.RSV_BIT) (d.stageKey t n (v.toNat % 65536))
  else if off = 0x028 then .ok (d.setWord t n 0x028 0#32)
  else .error RC.RO_FIELD

/-! ### Block registers -/

/-- A forward move of a ring index over entries written and not consumed (R45). -/
def headMove (v head size used : Nat) : Option Nat :=
  let k := (v + size - head) % size
  if k ≤ used then some k else none

/-- A write of HIF_CQ_HEAD (R45). -/
def Dev.cqHead (d : Dev) (v : Nat) : Except Nat Dev :=
  match headMove v (d.rd 0 HIF_CQ_HEAD.IDX) 1024 d.host.cq.length with
  | none => .error RC.RANGE
  | some k => .ok { (d.wr 0 HIF_CQ_HEAD.IDX v) with host := { d.host with cq := d.host.cq.drop k } }

/-- A write of HIF_EQ_HEAD (R45). -/
def Dev.eqHead (d : Dev) (v : Nat) : Except Nat Dev :=
  match headMove v (d.rd 0 HIF_EQ_HEAD.IDX) 4096 d.host.eq.length with
  | none => .error RC.RANGE
  | some k => .ok { (d.wr 0 HIF_EQ_HEAD.IDX v) with host := { d.host with eq := d.host.eq.drop k } }

/-- What a write to a block register does beyond its access codes: none where the codes say it all. `w` is the word with
the RW fields written and the W1C bits cleared. -/
def Dev.regSpecial (d : Dev) (sram : AMap Byte) (p : Port) (t : Tag) (n off : Nat) (v w : Word) :
    Option (Except Nat Dev) :=
  let x := v.toNat
  match t with
  | .sys => if off = 0x50 then some (d.sysRelease x) else none
  | .rst => if off = 0x440 then some (d.rstReq (p = .mgmt) (x % 65536)) else none
  | .hif =>
    if off = 0x58 then some (d.cqHead (x % 1024))
    else if off = 0x60 then some (d.eqHead (x % 4096))
    else if off = 0x6C then
      some (.ok (let d := d.setWord .hif 0 0x6C w; d.wrB 0 AON_WAKEEN.MGMT (d.on 0 HIF_MGMT.WAKE_EN)))
    else if off = 0x74 then some (.ok ((d.setWord .hif 0 0x70 0#32).setWord .hif 0 0x74 0#32))
    else none
  | .ope => if off = 0x444 then some (d.sqTailWrite (x % 1024)) else none
  | .alc =>
    if off = 0x440 then some (d.rowCatch.gridWrite x) else if off = 0x460 then some (d.rowCatch.handoverWrite x) else none
  | .str => if off = 0x448 then some (d.strFaultClear n (x % 256)) else none
  | .out => if off = 0x724 then some (d.pointClear n (x % 16)) else none
  | .ply =>
    if off = 0x458 then some (.ok (d.setWord .ply 0 0x458 w).mgmtView)
    else if off = 0x45C then some (d.plySwitch x)
    else none
  | .cbl => if off = 0x47C then some (d.rorClear n (x % 2)) else none
  | .lsw =>
    if off = 0x440 then some (d.lswDuty n (x % 65536)) else if off = 0x454 then some (d.lswClear n (x % 16)) else none
  | .vcm => if off = 0x4CC then some (d.rxHeadWrite (x % 1024)) else none
  | .ses =>
    if off = 0x444 then some (d.rowCatch.sesCmd x)
    else if 0x480 ≤ off && off ≤ 0x490 then some (d.rowCatch.pendWrite off x)
    else none
  | .sfc => if off = 0x648 then some (d.sfcHinWrite sram x) else none
  | .key => if off = 0x44C then some (d.challengeWrite v) else none
  | .frc => if off = 0x440 then some (d.frcCtl x) else none
  | .lgl => if off = 0x44 || (0x400 ≤ off && off < 0x800) then some (d.mbWrite off v) else none
  | .pwr | .clk | .evt | .aon | .rtc | .dtm | .jnl | .cle | .aux | .ctm | .skn | .thm | .plc | .saf | .cry | .mtr | .trf
  | .tmp => none

/-- A write that only the active unit of a pair, or role BIL, may make (R339, R288): block registers. -/
def Dev.roleBad (d : Dev) (t : Tag) (off : Nat) : Bool :=
  d.standby && ((t = .ses && (off = 0x444 || (0x480 ≤ off && off ≤ 0x4B8))) || (t = .alc && (off = 0x440 || off = 0x460))
    || (t = .ope && (off = 0x440 || off = 0x444)))

/-- A write to a block register. -/
def Dev.blockWrite (d : Dev) (sram : AMap Byte) (p : Port) (t : Tag) (n off : Nat) (r : RegFam) (v : Word) :
    Except Nat Dev :=
  let old := d.word t n off
  let w := r.blend old v (· = .rw) &&& ~~~(v &&& BitVec.ofNat 32 (r.mask (· = .w1c)))
  let abortClear := t = .hif && off = 0x74
  let go := (d.regSpecial sram p t n off v w).getD (.ok (d.setWord t n off w))
  if abortClear then go
  else
    checked (failIf (d.roleBad t off) RC.ROLE ++ failIf (r.lockable && d.locked t n) RC.LOCKED
        ++ failIf r.stagedReg RC.STAGED_ONLY ++ failIf r.readOnly RC.RO_FIELD
        ++ failIf (bitsOutside (r.mask fun _ => true) v) RC.RSV_BIT ++ failIf (r.rangeBad v) RC.RANGE)
      (go.map fun d => if r.lockable then d.seqInc t n else d)

/-- A write to a staged copy (R49, R50, R52). The CBL page checks its ranges at the commit (Table CBL-2). -/
def Dev.stagedWrite (d : Dev) (t : Tag) (n off : Nat) (r : RegFam) (v : Word) : Except Nat Dev :=
  checked (failIf ((d.standby && !plyOwn t) || (t = .trf && d.rd 0 LGL_STAT.ROLE ≠ 2)) RC.ROLE
      ++ failIf (d.locked t n) RC.LOCKED ++ failIf (d.rd n (STAGE_STAT.STATE t) = 2) RC.STAGE_BUSY
      ++ failIf (bitsOutside (r.mask fun _ => true) v) RC.RSV_BIT ++ failIf (t ≠ .cbl && r.rangeBad v) RC.RANGE)
    (.ok (((d.setWord t n off v).wr n (STAGE_STAT.STATE t) 1).seqInc t n))

/-- A write that reaches a page: carried out, or rejected and recorded in ERRINFO (R13, R46). -/
def Dev.pageWrite (d : Dev) (sram : AMap Byte) (p : Port) (t : Tag) (n off : Nat) (v : Word) : Dev :=
  let r := match slotAt t n off with
    | .header => d.headerWrite t n off v
    | .reg r => d.blockWrite sram p t n off r v
    | .staged r => d.stagedWrite t n off r v
    | .spec => .error RC.SPEC
    | .rsv => if v = 0#32 then .ok d else .error RC.RSV_BIT
  match r with
  | .ok d => d
  | .error c => d.reject t n off c

/-! ### Accesses at the host interface (R36, R37, R42, R421) -/

/-- The pages the management port may write (R42): HIF_MGMT alone of the HIF page. -/
def mgmtMay (t : Tag) (off : Nat) : Bool :=
  t = .sys || t = .pwr || t = .aon || t = .rst || t = .evt || (t = .hif && off = 0x6C)

/-- Whether an address of BAR0 lies in the MSI-X table, or in the pending-bit array (R414). -/
def inMsix (a : Nat) : Bool := (0xFE000 ≤ a && a < 0xFE400) || (0xFF000 ≤ a && a < 0xFF008)

/-- The fault an access meets at the host interface (Table HIF-2), with its reason. -/
def Dev.accessFault (d : Dev) (p : Port) (write : Bool) (a : HostAddr) (size : Nat) : Option Nat :=
  match a with
  | .bar0 a =>
    if size ≠ 4 || a % 4 ≠ 0 then some RC.UNALIGNED
    else if inMsix a then (if p = .mgmt then some RC.NOPAGE else none)
    else
      match pageOf (a / 4096) with
      | none => some RC.NOPAGE
      | some (t, n) =>
        let off := a % 4096
        if p = .mgmt && write && !mgmtMay t off then some RC.ROLE
        else if d.pageUp t n || (t = .hif && off = 0x6C) || (!write && off ≤ 4) then none
        else some RC.DOMAIN
  | .bar2 a | .bar2Bytes a _ =>
    if p = .mgmt then some RC.NOPAGE
    else if a < 0x400000 then (if d.domOn .core then none else some RC.DOMAIN)
    else if 0x1000000 ≤ a && a < 0x2000000 then
      (if write then some RC.RO_FIELD else if d.domOn .frc then none else some RC.DOMAIN)
    else some RC.NOPAGE
  | .cfg _ => if p = .mgmt then some RC.NOPAGE else none
  | .jtag _ => none

/-- What HIF_ABORT_ADDR shows of an address: its offset in the BAR, the same number in BAR0 and BAR2 (DESIGN CHOICE, log
entry 311: R37 says only the address of the access). -/
def hostAddrNum : HostAddr → Nat
  | .bar0 a | .bar2 a | .bar2Bytes a _ => a
  | .cfg _ | .jtag _ => 0

/-- Unmask a vector: what its pending bit holds is signalled (R38). -/
def Dev.msixFlush (d : Dev) (v : Nat) : Dev :=
  if d.msixPend v && !d.msixMasked v then (d.setMsixPend v false).msixSend v else d

/-- A write to the MSI-X table; the pending-bit array is read-only (PCI Express; log entry 6). -/
def Dev.msixWrite (d : Dev) (a : Nat) (v : Word) : Dev :=
  if 0xFF000 ≤ a then d
  else
    let w := if a % 16 = 0 then v &&& ~~~3#32 else if a % 16 = 12 then v &&& 1#32 else v
    ({ d with regs := d.regs.set resetWord a w } : Dev).msixFlush ((a - 0xFE000) / 16)

/-- Vectors that are no longer masked signal what their pending bits hold (R38). -/
def Dev.msixFlushAll (d : Dev) : Dev := (List.range 64).foldl Dev.msixFlush d

/-- An access of BAR2 that the device accepts: naturally aligned of 1, 2, 4 or 8 bytes, or a burst of whole words up to
the max payload size (R36). Another has no effect (DESIGN CHOICE, log entry 312). -/
def Dev.bar2Takes (d : Dev) (a size : Nat) : Bool :=
  ((size = 1 || size = 2 || size = 4 || size = 8) && a % size = 0)
    || (8 < size && size ≤ 128 * 2 ^ d.host.payload && a % 4 = 0 && size % 4 = 0)

/-- A write to configuration space (R34, R35, R38): its registers and their fields are those of the PCI Express
specification (PRESUMED, log entry 313). -/
def Dev.cfgWrite (d : Dev) (r : CfgReg) (v : Word) : Dev :=
  match r with
  | .command => Dev.msixFlushAll { d with host := { d.host with busMaster := v.getLsbD 2 } }
  | .msixCtl => Dev.msixFlushAll { d with host := { d.host with fnMask := v.getLsbD 14, msixEn := v.getLsbD 15 } }
  | .devCtl => { d with host := { d.host with payload := min 1 (fget 7 5 v), readReq := min 2 (fget 14 12 v) } }
  | .linkCtl => { d with host := { d.host with aspmL1 := v.getLsbD 1 } }
  | .pmCtl =>
    if fget 1 0 v = 3 then (let d := d.hifReset true; { d with host := { d.host with d3 := true } })
    else { d with host := { d.host with d3 := false } }
  | .ids | .classRev | .subsys | .aerUnc | .aerCor => d

/-- A word of configuration space (R34). No rule brings an error of the link, so AER shows none. -/
def Dev.cfgRead (d : Dev) (r : CfgReg) : Nat :=
  let b (x : Bool) (k : Nat) : Nat := if x then 2 ^ k else 0
  match r with
  | .ids => 0x94201F3B
  | .classRev => 0x118000B1
  | .subsys => 0x00011F3B
  | .command => b d.host.busMaster 2
  | .msixCtl => 63 + b d.host.fnMask 14 + b d.host.msixEn 15
  | .devCtl => d.host.payload * 2 ^ 5 + d.host.readReq * 2 ^ 12
  | .linkCtl => b d.host.aspmL1 1
  | .pmCtl => if d.host.d3 then 3 else 0
  | .aerUnc | .aerCor => 0

/-- The debug gate of the JTAG port (R355): without debug enabled it accepts BYPASS, IDCODE and SAMPLE/PRELOAD alone. -/
def Dev.jtagTakes (d : Dev) (ir : JtagIr) : Bool :=
  !d.sys.held && (ir = .bypass || ir = .idcode || ir = .samplePreload || d.on 0 KEY_LC.DBGEN)

/-- The instruction in force at the JTAG port: once debug is no longer enabled, one that needs it acts as BYPASS (DESIGN
CHOICE, log entry 315). -/
def Dev.jtagNow (d : Dev) : JtagIr := if d.jtagTakes d.sys.jtag then d.sys.jtag else .bypass

/-- An instruction shifted into the JTAG port: accepted, or without effect (R355). -/
def Dev.jtagShift (d : Dev) (ir : JtagIr) : Dev :=
  if d.jtagTakes ir then { d with sys := { d.sys with jtag := ir } } else d

/-- Bytes written to the shared buffers. -/
def State.bar2Write (s : State) (a : Nat) (bs : List Byte) : State :=
  if s.dev.bar2Takes a bs.length && a + bs.length ≤ 0x400000 then
    { s with mem := { s.mem with sram := s.mem.sram.setBytes a bs } }
  else s

/-- A host write (R36, R37): it meets a fault, or reaches a page, the MSI-X table, the shared buffers or configuration
space. A write over the endpoint to a BAR shows that the function is back in D0. -/
def hostWrite (p : Port) (a : HostAddr) (v : Word) (s : State) : State :=
  let d := s.dev
  let d := if p = .pcie then { d with host := { d.host with d3 := false } } else d
  match d.accessFault p true a 4, a with
  | some c, _ => { s with dev := d.abort (hostAddrNum a) c }
  | none, .bar2 a => State.bar2Write { s with dev := d } a (leBytes 4 v.toNat)
  | none, .bar2Bytes a bs => State.bar2Write { s with dev := d } a bs
  | none, .cfg r => { s with dev := d.cfgWrite r v }
  | none, .jtag ir => { s with dev := s.dev.jtagShift ir }
  | none, .bar0 a =>
    if inMsix a then { s with dev := d.msixWrite a v }
    else
      match pageOf (a / 4096) with
      | some (t, n) => { s with dev := d.pageWrite s.mem.sram p t n (a % 4096) v }
      | none => { s with dev := d }

/-- A host write as a command. -/
def onHost (t : Nat) (p : Port) (a : HostAddr) (v : Word) (s : State) : Host.Outcome State Fault Refusal :=
  .next (hostWrite p a v { s with dev := Dev.at t s.dev })

/-- The address of a register. -/
def regAddr (t : Tag) (n off : Nat) : HostAddr := .bar0 (pageIx t n * 4096 + off)

/-- A host write to a header register of an instance; there is none beyond a block's count. -/
def onHeader (t : Nat) (p : Port) (b : Tag) (n off : Nat) (v : Word) (s : State) : Host.Outcome State Fault Refusal :=
  if n < b.count then onHost t p (regAddr b n off) v s else onDev t id s

/-! ### Writes with a step of their own -/

/-- REG_WRITE (R52). -/
def execRegWrite (t : Nat) (p : Port) (a : HostAddr) (v : Word) (s : State) := onHost t p a v s

/-- STAGE_COMMIT_REQUEST (R50). -/
def execStageCommitRequest (t : Nat) (p : Port) (b : Tag) (n : Nat) (v : Word) (s : State) := onHeader t p b n 0x020 v s

/-- ERRINFO_CLEAR (R46). -/
def execErrinfoClear (t : Nat) (p : Port) (b : Tag) (n : Nat) (v : Word) (s : State) := onHeader t p b n 0x028 v s

/-- ABORT_INFO_CLEAR (Table HIF-5). -/
def execAbortInfoClear (t : Nat) (p : Port) (v : Word) (s : State) := onHost t p (regAddr .hif 0 0x074) v s

/-- EVT_PEND_CLEAR (R47). -/
def execEvtPendClear (t : Nat) (p : Port) (b : Tag) (n : Nat) (v : Word) (s : State) := onHeader t p b n 0x018 v s

/-- EVT_SET_INJECT (R47). -/
def execEvtSetInject (t : Nat) (p : Port) (b : Tag) (n : Nat) (v : Word) (s : State) := onHeader t p b n 0x01C v s

/-- PAGE_LOCK (R48). -/
def execPageLock (t : Nat) (p : Port) (b : Tag) (n : Nat) (v : Word) (s : State) := onHeader t p b n 0x008 v s

/-- BLOCK_SOFT_RESET (R48, R419). -/
def execBlockSoftReset (t : Nat) (p : Port) (b : Tag) (n : Nat) (v : Word) (s : State) := onHeader t p b n 0x008 v s

/-- CQ_HEAD_WRITE (R45). -/
def execCqHeadWrite (t : Nat) (p : Port) (v : Word) (s : State) := onHost t p (regAddr .hif 0 0x058) v s

/-- EQ_HEAD_WRITE (R45). -/
def execEqHeadWrite (t : Nat) (p : Port) (v : Word) (s : State) := onHost t p (regAddr .hif 0 0x060) v s

/-- GRID_WRITE (R56). -/
def execGridWrite (t : Nat) (p : Port) (v : Word) (s : State) := onHost t p (regAddr .alc 0 0x440) v s

/-- HANDOVER_REQUEST (R72). -/
def execHandoverRequest (t : Nat) (p : Port) (v : Word) (s : State) := onHost t p (regAddr .alc 0 0x460) v s

/-- HANDOVER_ACK (Table ALC-9). -/
def execHandoverAck (t : Nat) (p : Port) (v : Word) (s : State) := onHost t p (regAddr .alc 0 0x460) v s

/-- STR_FAULT_CLEAR (R99). -/
def execStrFaultClear (t : Nat) (p : Port) (n : Fin 48) (v : Word) (s : State) := onHost t p (regAddr .str n 0x448) v s

/-- POINT_FAULT_CLEAR (R119). -/
def execPointFaultClear (t : Nat) (p : Port) (q : Fin 32) (v : Word) (s : State) := onHost t p (regAddr .out q 0x724) v s

/-- ROR_TRIP_CLEAR (R175). -/
def execRorTripClear (t : Nat) (p : Port) (q : Fin 32) (v : Word) (s : State) := onHost t p (regAddr .cbl q 0x47C) v s

/-- LSW_CLEAR (R190). -/
def execLswClear (t : Nat) (p : Port) (n : Fin 24) (v : Word) (s : State) := onHost t p (regAddr .lsw n 0x454) v s

/-- LSW_DUTY_WRITE (R192). -/
def execLswDutyWrite (t : Nat) (p : Port) (n : Fin 24) (v : Word) (s : State) := onHost t p (regAddr .lsw n 0x440) v s

/-- RX_HEAD_WRITE (R200). -/
def execRxHeadWrite (t : Nat) (p : Port) (v : Word) (s : State) := onHost t p (regAddr .vcm 0 0x4CC) v s

/-- PENDING_TARGET_WRITE (R204): `off` is the page offset of one of the five pending fields. -/
def execPendingTargetWrite (t : Nat) (p : Port) (off : Nat) (v : Word) (s : State) :=
  if 0x480 ≤ off && off ≤ 0x490 then onHost t p (regAddr .ses 0 off) v s else onDev t id s

/-- SES_VALIDATE (R205). -/
def execSesValidate (t : Nat) (p : Port) (v : Word) (s : State) := onHost t p (regAddr .ses 0 0x444) v s

/-- SES_REJECT (Table SES-3). -/
def execSesReject (t : Nat) (p : Port) (v : Word) (s : State) := onHost t p (regAddr .ses 0 0x444) v s

/-- SES_REFRESH (R208). -/
def execSesRefresh (t : Nat) (p : Port) (v : Word) (s : State) := onHost t p (regAddr .ses 0 0x444) v s

/-- SES_START (Table SES-3). -/
def execSesStart (t : Nat) (p : Port) (v : Word) (s : State) := onHost t p (regAddr .ses 0 0x444) v s

/-- SES_END_REQ (Table SES-3). -/
def execSesEndReq (t : Nat) (p : Port) (v : Word) (s : State) := onHost t p (regAddr .ses 0 0x444) v s

/-- SES_END_WITHDRAW (Table SES-3). -/
def execSesEndWithdraw (t : Nat) (p : Port) (v : Word) (s : State) := onHost t p (regAddr .ses 0 0x444) v s

/-- SES_STOP (Table SES-3). -/
def execSesStop (t : Nat) (p : Port) (v : Word) (s : State) := onHost t p (regAddr .ses 0 0x444) v s

/-- SES_VEHOPEN (R210). -/
def execSesVehopen (t : Nat) (p : Port) (v : Word) (s : State) := onHost t p (regAddr .ses 0 0x444) v s

/-- SES_RELEASE (Table SES-3). -/
def execSesRelease (t : Nat) (p : Port) (v : Word) (s : State) := onHost t p (regAddr .ses 0 0x444) v s

/-- SFC_HIN (R310). -/
def execSfcHin (t : Nat) (p : Port) (v : Word) (s : State) := onHost t p (regAddr .sfc 0 0x648) v s

/-- SQ_TAIL_WRITE (Table OPE-4). -/
def execSqTailWrite (t : Nat) (p : Port) (v : Word) (s : State) := onHost t p (regAddr .ope 0 0x444) v s

/-- KEY_CHALLENGE_NEW (R354). -/
def execKeyChallengeNew (t : Nat) (p : Port) (v : Word) (s : State) := onHost t p (regAddr .key 0 0x44C) v s

/-- SYS_RESET_REQUEST (R409). -/
def execSysResetRequest (t : Nat) (p : Port) (v : Word) (s : State) := onHost t p (regAddr .rst 0 0x440) v s

/-- SYS_RELEASE (R407). -/
def execSysRelease (t : Nat) (p : Port) (v : Word) (s : State) := onHost t p (regAddr .sys 0 0x050) v s

/-- PLY_SWITCH (R346). -/
def execPlySwitch (t : Nat) (p : Port) (v : Word) (s : State) := onHost t p (regAddr .ply 0 0x45C) v s

/-- FRC_ARM (R371). -/
def execFrcArm (t : Nat) (p : Port) (v : Word) (s : State) := onHost t p (regAddr .frc 0 0x440) v s

/-- FRC_DISARM (R371). -/
def execFrcDisarm (t : Nat) (p : Port) (v : Word) (s : State) := onHost t p (regAddr .frc 0 0x440) v s

/-- FRC_FIRE (R372). -/
def execFrcFire (t : Nat) (p : Port) (v : Word) (s : State) := onHost t p (regAddr .frc 0 0x440) v s

/-! ### Rings and messages (R38 to R41) -/

/-- EVENT_OVERFLOW_MARKER (R41). -/
def execEventOverflowMarker (t : Nat) (s : State) := onDev t Dev.eqMarker s

/-- Effect of COMPLETION_DELIVER (R40): the completion held longest is written; the journal's tail follows its DLV. -/
def completionDeliverEffect (d : Dev) : Dev :=
  match d.host.cqHeld with
  | [] => d
  | e :: es =>
    if d.cqReady then (({ d with host := { d.host with cqHeld := es } } : Dev).cqDeliver e).jnlTail else d

/-- COMPLETION_DELIVER (R40). -/
def execCompletionDeliver (t : Nat) (s : State) := onDev t completionDeliverEffect s

/-- Effect of CQ_VECTOR_PAUSE (R40): 10 µs without a further entry. -/
def cqVectorPauseEffect (d : Dev) : Dev :=
  if d.host.cqBatch ≠ 0 && d.host.cqLast + 10 * ticksPerUs ≤ d.now then
    ({ d with host := { d.host with cqBatch := 0 } } : Dev).signal 0
  else d

/-- CQ_VECTOR_PAUSE (R40). -/
def execCqVectorPause (t : Nat) (s : State) := onDev t cqVectorPauseEffect s

/-- Effect of MSIX_UNMASK (R38). -/
def msixUnmaskEffect (v : Fin 64) (d : Dev) : Dev := d.msixWrite (msixAddr v 3) 0#32

/-- MSIX_UNMASK (R38). -/
def execMsixUnmask (t : Nat) (vec : Fin 64) (s : State) := onDev t (msixUnmaskEffect vec) s

/-! ### The link (R35) and access faults (R37) -/

/-- Effect of HIF_LINK_RESET: FLR and D3hot leave the link up. -/
def hifLinkResetEffect (k : LinkReset) (d : Dev) : Dev :=
  let d := d.hifReset (k = .flr || k = .d3hot)
  { d with host := { d.host with d3 := k = .d3hot } }

/-- HIF_LINK_RESET (R35). -/
def execHifLinkReset (t : Nat) (k : LinkReset) (s : State) := onDev t (hifLinkResetEffect k) s

/-- Effect of PCIE_LINK_UP: the endpoint trains once cast-on has brought it up (R404 step 3), with a width and a speed of
R34. -/
def pcieLinkUpEffect (width speed : Nat) (d : Dev) : Dev :=
  let ok := (width = 1 || width = 2 || width = 4) && 1 ≤ speed && speed ≤ 3
  if ok && d.domOn .hif && (d.sys.step = 0 || 4 ≤ d.sys.step) then
    (((d.wr 0 HIF_LINK.UP 1).wr 0 HIF_LINK.WIDTH width).wr 0 HIF_LINK.SPEED speed).signal 2
  else d

/-- PCIE_LINK_UP (R35). -/
def execPcieLinkUp (t : Nat) (width speed : Nat) (s : State) := onDev t (pcieLinkUpEffect width speed) s

/-! ### Reading a register -/

/-- The window of the selected session (Table SES-5). -/
def Dev.sesWindow (d : Dev) (off : Nat) : Nat :=
  let m := d.rd 0 SES_WSEL.SES
  let x := d.sesRec m
  if off = 0x480 then x.pimax else if off = 0x484 then x.ppmax else if off = 0x488 then x.pvpres
  else if off = 0x48C then x.pvtgt else if off = 0x490 then x.pclass else if off = 0x494 then x.pseq
  else if off = 0x4A0 then x.aimax else if off = 0x4A4 then x.apmax else if off = 0x4A8 then x.avpres
  else if off = 0x4AC then x.avtgt else if off = 0x4B0 then x.aclass
  else if off = 0x4B4 then (match x.refreshAt with | some t => satU 32 (d.msSince t) | none => 0)
  else satU 16 x.endMs * 65536 + d.rd 0 (SES_STAT.CAUSE m)

/-- Operations in flight by slot, as a word of OPE_SLOTMAP. -/
def Dev.slotMap (d : Dev) (k : Nat) : Nat :=
  (d.ope.flight.filter fun o => o.slot / 32 = k).foldl (fun a o => Nat.lor a (2 ^ (o.slot % 32))) 0

/-- The word a register shows: the stored word, or what the block works out when it is read. -/
def Dev.view (d : Dev) (t : Tag) (n off : Nat) : Word :=
  let w := d.word t n off
  let num (v : Nat) : Word := BitVec.ofNat 32 v
  match t with
  | .sys => if off = 0x4C then num d.sysBlock else w
  | .alc => if off = 0x444 then num (satU 32 (d.msSince d.alc.gridAt)) else d.specSync.word t n off
  | .ope =>
    if off = 0x44C then
      num ((d.ope.flight.countP fun o => o.host) * 65536 + d.ope.flight.length)
    else if off = 0x450 then num d.cqCredits
    else if 0x480 ≤ off && off < 0x4B0 then num (d.slotMap ((off - 0x480) / 4))
    else w
  | .jnl =>
    if off = 0x450 then num d.jnlFree
    else if off = 0x454 then num (360 + 2 * d.generalBusy)
    else if off = 0x458 then num (d.ope.jnl.countP fun e => 64 ≤ e.1 && d.jnlLive e.1)
    else if 0x480 ≤ off && off < 0x4C0 then
      (match d.jrec (d.rd 0 JNL_RDIDX.IDX) with
      | some r => num (leAt r.bytes (off - 0x480) 4)
      | none => 0#32)
    else w
  | .thm => if off = 0x444 then fset 31 16 w (satU 16 (d.coolLeft n)) else w
  | .lsw => if off = 0x444 then fset 0 0 w (if d.gateOn n d.now then 1 else 0) else w
  | .ses => if 0x480 ≤ off && off ≤ 0x4B8 then num (d.sesWindow off) else w
  | .key =>
    if off = 0x450 then
      (match d.key.chalAt with
      | some t => num (satU 16 ((d.now - t) / ticksPerS))
      | none => 0xFFFF#32)
    else w
  | .lgl => d.lglSync.word t n off
  | .ply => d.plyShow.word t n off
  | _ => w

/-- A block fault is present (Table DOC-13): the fault its own page shows. -/
def Dev.blockFault (d : Dev) (t : Tag) (n : Nat) : Bool :=
  match t with
  | .str => d.rd n STR_FAULT.CODE ≠ 0
  | .out => d.rd n OUT_RUNSTAT.FAULT ≠ 0
  | .lsw => d.rd n LSW_STAT.FAULT ≠ 0
  | .saf => d.on 0 SAF_STAT.FAIL
  | _ => false

/-- A block runs (Table DOC-13): a strand that switches, a point that is energised, any other block that is enabled. -/
def Dev.blockActive (d : Dev) (t : Tag) (n : Nat) : Bool :=
  match t with
  | .str => d.strRunning n
  | .out => d.energised n
  | _ => d.en t n

/-- PSTAT (Table DOC-13): LOCKED copies LOCK, READY follows the configuration, FAULT and ACTIVE what the block's own page
shows (DEDUCED, log entry 55); no chapter gives BLK a meaning, and it keeps its reset value. -/
def Dev.pstat (d : Dev) (t : Tag) (n : Nat) : Word :=
  let b (x : Bool) (v : Nat) : Nat := if x then v else 0
  let ready := d.on 0 SYS_STAT.CONFIGURED && d.pageUp t n
  BitVec.ofNat 32 (b (d.locked t n) 8 + b (d.blockFault t n) 4 + b (ready && d.blockActive t n) 2 + b ready 1)

/-- A read of a register (R37, R42): a faulting read returns 0. Every role may read the pages of the legal window
directly (R252, Table LGL-2). -/
def Dev.readReg (d : Dev) (p : Port) (a : Nat) : Word × Dev :=
  match d.accessFault p false (.bar0 a) 4 with
  | some c => (0#32, d.abort a c)
  | none =>
    if inMsix a then (d.regs.get resetWord a, d)
    else
      match pageOf (a / 4096) with
      | none => (0#32, d)
      | some (t, n) => (if a % 4096 = 0xC then d.pstat t n else d.view t n (a % 4096), d)

/-- What an access of so many bytes over the endpoint reads where it meets no fault (R34, R36). -/
def State.readHost (s : State) (a : HostAddr) (size : Nat) : List Byte :=
  match a with
  | .bar0 x => leBytes 4 ((s.dev.readReg .pcie x).1).toNat
  | .bar2 x | .bar2Bytes x _ =>
    if x < 0x400000 then s.mem.sram.getBytes x size else AMap.getBytes s.dev.edram (x - 0x1000000) size
  | .cfg r => leBytes 4 (s.dev.cfgRead r)
  | .jtag _ => []

/-- Effect of HIF_ACCESS_FAULT (R37): an access of so many bytes. A fault is recorded, and a faulting read returns 0; a
read over the endpoint without one returns what stands there. -/
def hifAccessFaultEffect (p : Port) (w : Bool) (a : HostAddr) (size : Nat) (s : State) : Dev :=
  let d := s.dev
  let cpl (d : Dev) (bs : List Byte) : Dev := if w || p = .mgmt then d else d.send (.readCpl bs)
  match d.accessFault p w a size with
  | some c => (cpl d (List.replicate size 0#8)).abort (hostAddrNum a) c
  | none => cpl d (s.readHost a size)

/-- HIF_ACCESS_FAULT (R37). -/
def execHifAccessFault (t : Nat) (p : Port) (w : Bool) (a : HostAddr) (size : Nat) (s : State) :
    Host.Outcome State Fault Refusal :=
  let s := { s with dev := Dev.at t s.dev }
  .next { s with dev := hifAccessFaultEffect p w a size s }

/-! ### Management port (R42, R43) -/

/-- The port answers to its address, as HIF_MGMT.ADDR stands when the transaction begins, and only with a clock: while
CORE is not ON it has none, nor while power-on reset holds the die (R42, R43). -/
def Dev.mgmtUp (d : Dev) (dst : Nat) : Bool := d.domOn .core && !d.sys.held && dst = d.rd 0 HIF_MGMT.ADDR

/-- A transaction of the port that its PEC does not spoil. -/
def Dev.mgmtTakes (d : Dev) (dst : Nat) (pecOk : Bool) : Bool := d.mgmtUp dst && (pecOk || !d.on 0 HIF_MGMT.PEC_EN)

/-- Set the address pointer, modulo 2^32. -/
def Dev.setMgmtPtr (d : Dev) (a : Nat) : Dev := { d with host := { d.host with mgmtPtr := a % 2 ^ 32 } }

/-- MGMT_SET_POINTER (R42). -/
def execMgmtSetPointer (m : MgmtBus) (v : Word) (pecOk : Bool) (s : State) :=
  onDev m.t (fun d => if d.mgmtTakes m.dst pecOk then d.setMgmtPtr v.toNat else d) s

/-- Effect of MGMT_READ: the word goes out, with its PEC where PEC_EN is 1. -/
def mgmtReadEffect (dst : Nat) (d : Dev) : Dev :=
  if !d.mgmtUp dst then d
  else
    let a := d.host.mgmtPtr
    let (w, d) := d.readReg .mgmt a
    (d.setMgmtPtr (a + 4)).send (.mgmt w (d.on 0 HIF_MGMT.PEC_EN))

/-- MGMT_READ (R42). -/
def execMgmtRead (m : MgmtBus) (s : State) := onDev m.t (mgmtReadEffect m.dst) s

/-- MGMT_WRITE (R42). -/
def execMgmtWrite (m : MgmtBus) (v : Word) (pecOk : Bool) (s : State) : Host.Outcome State Fault Refusal :=
  let d := Dev.at m.t s.dev
  let s := { s with dev := d }
  if d.mgmtTakes m.dst pecOk then
    let a := d.host.mgmtPtr
    let s := hostWrite .mgmt (.bar0 a) v s
    .next { s with dev := s.dev.setMgmtPtr (a + 4) }
  else .next s

/-- MGMT_SCL_TIMEOUT (R42): a transaction abandoned has done nothing; the commands above are whole ones. -/
def execMgmtSclTimeout (t : Nat) (_lowUs : Nat) (s : State) := onDev t id s

end Sys2Proof.Machine
end

