-- ==== Sys2Proof/Machine/Dispatch.lean ====
section
/-!
DEFINITION. The meaning of every command: one arm per constructor, one direct call of its meaning.
-/

namespace Sys2Proof.Machine

/-- The effect of a command on everything but the queue, which `step` has already shortened. -/
def exec (i : Instr) (s : State) : Host.Outcome State Fault Refusal :=
  match i with
  | .regWrite t p a v => Sys2Proof.Machine.execRegWrite t p a v s
  | .stageCommitRequest t p b n v => Sys2Proof.Machine.execStageCommitRequest t p b n v s
  | .stageCommitApply t b n => Sys2Proof.Machine.execStageCommitApply t b n s
  | .errinfoClear t p b n v => Sys2Proof.Machine.execErrinfoClear t p b n v s
  | .abortInfoClear t p v => Sys2Proof.Machine.execAbortInfoClear t p v s
  | .evtPendClear t p b n v => Sys2Proof.Machine.execEvtPendClear t p b n v s
  | .evtSetInject t p b n v => Sys2Proof.Machine.execEvtSetInject t p b n v s
  | .pageLock t p b n v => Sys2Proof.Machine.execPageLock t p b n v s
  | .blockSoftReset t p b n v => Sys2Proof.Machine.execBlockSoftReset t p b n v s
  | .eventOverflowMarker t => Sys2Proof.Machine.execEventOverflowMarker t s
  | .completionDeliver t => Sys2Proof.Machine.execCompletionDeliver t s
  | .cqVectorPause t => Sys2Proof.Machine.execCqVectorPause t s
  | .cqHeadWrite t p v => Sys2Proof.Machine.execCqHeadWrite t p v s
  | .eqHeadWrite t p v => Sys2Proof.Machine.execEqHeadWrite t p v s
  | .msixUnmask t vec => Sys2Proof.Machine.execMsixUnmask t vec s
  | .hifLinkReset t k => Sys2Proof.Machine.execHifLinkReset t k s
  | .hifAccessFault t p w a size => Sys2Proof.Machine.execHifAccessFault t p w a size s
  | .mgmtSetPointer m v pecOk => Sys2Proof.Machine.execMgmtSetPointer m v pecOk s
  | .mgmtRead m => Sys2Proof.Machine.execMgmtRead m s
  | .mgmtWrite m v pecOk => Sys2Proof.Machine.execMgmtWrite m v pecOk s
  | .mgmtSclTimeout t lowUs => Sys2Proof.Machine.execMgmtSclTimeout t lowUs s
  | .mgmtWakeMatch t addr => Sys2Proof.Machine.execMgmtWakeMatch t addr s
  | .rowBoundary t => Sys2Proof.Machine.execRowBoundary t s
  | .alcStall t => Sys2Proof.Machine.execAlcStall t s
  | .gridWrite t p v => Sys2Proof.Machine.execGridWrite t p v s
  | .gridTmo t => Sys2Proof.Machine.execGridTmo t s
  | .priceStale t => Sys2Proof.Machine.execPriceStale t s
  | .cabStale t c => Sys2Proof.Machine.execCabStale t c s
  | .handoverRequest t p v => Sys2Proof.Machine.execHandoverRequest t p v s
  | .handoverAck t p v => Sys2Proof.Machine.execHandoverAck t p v s
  | .handoverRampOutEnd t h => Sys2Proof.Machine.execHandoverRampOutEnd t h s
  | .handoverPrebiasDone t h => Sys2Proof.Machine.execHandoverPrebiasDone t h s
  | .handoverRampInEnd t h => Sys2Proof.Machine.execHandoverRampInEnd t h s
  | .sampleBoundary t n => Sys2Proof.Machine.execSampleBoundary t n s
  | .tlmRx t k f => Sys2Proof.Machine.execTlmRx t k f s
  | .tlmDeadlineMiss t n => Sys2Proof.Machine.execTlmDeadlineMiss t n s
  | .tlmLoss t n => Sys2Proof.Machine.execTlmLoss t n s
  | .vbusLow t n => Sys2Proof.Machine.execVbusLow t n s
  | .strFaultClear t p n v => Sys2Proof.Machine.execStrFaultClear t p n v s
  | .auxSample t n => Sys2Proof.Machine.execAuxSample t n s
  | .auxSrcBad t n => Sys2Proof.Machine.execAuxSrcBad t n s
  | .fallbackExit t n => Sys2Proof.Machine.execFallbackExit t n s
  | .phInvalid t n ph => Sys2Proof.Machine.execPhInvalid t n ph s
  | .phImbal t n ph => Sys2Proof.Machine.execPhImbal t n ph s
  | .shedHoldExpiry t n => Sys2Proof.Machine.execShedHoldExpiry t n s
  | .stepLockoutEnd t n => Sys2Proof.Machine.execStepLockoutEnd t n s
  | .prebiasComplete t q => Sys2Proof.Machine.execPrebiasComplete t q s
  | .prebiasTimeout t q => Sys2Proof.Machine.execPrebiasTimeout t q s
  | .softstartDone t q => Sys2Proof.Machine.execSoftstartDone t q s
  | .shortSs t q => Sys2Proof.Machine.execShortSs t q s
  | .pointFaultClear t p q v => Sys2Proof.Machine.execPointFaultClear t p q v s
  | .restartCheckPass t n => Sys2Proof.Machine.execRestartCheckPass t n s
  | .restartCheckTimeout t n => Sys2Proof.Machine.execRestartCheckTimeout t n s
  | .rampdownTimeout t q => Sys2Proof.Machine.execRampdownTimeout t q s
  | .vehwaitTimeout t q => Sys2Proof.Machine.execVehwaitTimeout t q s
  | .dischargeTimeout t q => Sys2Proof.Machine.execDischargeTimeout t q s
  | .sknLinkUp t k => Sys2Proof.Machine.execSknLinkUp t k s
  | .sknSyncLoss t k => Sys2Proof.Machine.execSknSyncLoss t k s
  | .sknSyncSend t k => Sys2Proof.Machine.execSknSyncSend t k s
  | .dlyReqRx t k f => Sys2Proof.Machine.execDlyReqRx t k f s
  | .identRx t k f => Sys2Proof.Machine.execIdentRx t k f s
  | .enumIdentTimeout t k pos => Sys2Proof.Machine.execEnumIdentTimeout t k pos s
  | .statusRx t k f => Sys2Proof.Machine.execStatusRx t k f s
  | .nodeLost t k pos => Sys2Proof.Machine.execNodeLost t k pos s
  | .ioInRx t k f => Sys2Proof.Machine.execIoInRx t k f s
  | .inputStale t k pos ch => Sys2Proof.Machine.execInputStale t k pos ch s
  | .ioAckRx t k f => Sys2Proof.Machine.execIoAckRx t k f s
  | .ioAckTimeout t k pos => Sys2Proof.Machine.execIoAckTimeout t k pos s
  | .tunRx t k f => Sys2Proof.Machine.execTunRx t k f s
  | .sknWakeDetect t k pattern => Sys2Proof.Machine.execSknWakeDetect t k pattern s
  | .contactorConfirm t e => Sys2Proof.Machine.execContactorConfirm t e s
  | .contactorConfirmTimeout t e => Sys2Proof.Machine.execContactorConfirmTimeout t e s
  | .auxContactChange t e => Sys2Proof.Machine.execAuxContactChange t e s
  | .isoFault t q => Sys2Proof.Machine.execIsoFault t q s
  | .isoLost t q => Sys2Proof.Machine.execIsoLost t q s
  | .thmConversion t c raw vf => Sys2Proof.Machine.execThmConversion t c raw vf s
  | .thmBroken t c => Sys2Proof.Machine.execThmBroken t c s
  | .thmRecovered t c => Sys2Proof.Machine.execThmRecovered t c s
  | .hwComparatorTrip t c => Sys2Proof.Machine.execHwComparatorTrip t c s
  | .hwCoolRelease t c => Sys2Proof.Machine.execHwCoolRelease t c s
  | .rorEvaluation t q => Sys2Proof.Machine.execRorEvaluation t q s
  | .rorTripClear t p q v => Sys2Proof.Machine.execRorTripClear t p q v s
  | .dieSensorRead t ts => Sys2Proof.Machine.execDieSensorRead t ts s
  | .dieShutdownTrip t k => Sys2Proof.Machine.execDieShutdownTrip t k s
  | .dieShutdownDomainsOff t => Sys2Proof.Machine.execDieShutdownDomainsOff t s
  | .thermalRestart t => Sys2Proof.Machine.execThermalRestart t s
  | .lswStep t n uv => Sys2Proof.Machine.execLswStep t n uv s
  | .lswShortTrip t n => Sys2Proof.Machine.execLswShortTrip t n s
  | .lswUvOff t => Sys2Proof.Machine.execLswUvOff t s
  | .lswUvRecover t => Sys2Proof.Machine.execLswUvRecover t s
  | .lswUvStaggerOn t n => Sys2Proof.Machine.execLswUvStaggerOn t n s
  | .lswRetryRestart t n => Sys2Proof.Machine.execLswRetryRestart t n s
  | .lswCounterReset t n => Sys2Proof.Machine.execLswCounterReset t n s
  | .lswClear t p n v => Sys2Proof.Machine.execLswClear t p n v s
  | .lswDutyWrite t p n v => Sys2Proof.Machine.execLswDutyWrite t p n v s
  | .pilotDriveChange t q => Sys2Proof.Machine.execPilotDriveChange t q s
  | .pilotSample t q hi lo => Sys2Proof.Machine.execPilotSample t q hi lo s
  | .pilotStateAccept t q => Sys2Proof.Machine.execPilotStateAccept t q s
  | .pilotFault t q => Sys2Proof.Machine.execPilotFault t q s
  | .idStateAccept t q mv => Sys2Proof.Machine.execIdStateAccept t q mv s
  | .ceFault t q mv => Sys2Proof.Machine.execCeFault t q mv s
  | .vehFrameRx t q f fcsOk => Sys2Proof.Machine.execVehFrameRx t q f fcsOk s
  | .rxHeadWrite t p v => Sys2Proof.Machine.execRxHeadWrite t p v s
  | .vehLinkChange t q up => Sys2Proof.Machine.execVehLinkChange t q up s
  | .slacParmReq t g run mac => Sys2Proof.Machine.execSlacParmReq t g run mac s
  | .slacSounding t run heard => Sys2Proof.Machine.execSlacSounding t run heard s
  | .slacMatchReq t g run mac => Sys2Proof.Machine.execSlacMatchReq t g run mac s
  | .gpMgmtMsgRx t g msg => Sys2Proof.Machine.execGpMgmtMsgRx t g msg s
  | .pendingTargetWrite t p off v => Sys2Proof.Machine.execPendingTargetWrite t p off v s
  | .sesValidate t p v => Sys2Proof.Machine.execSesValidate t p v s
  | .sesReject t p v => Sys2Proof.Machine.execSesReject t p v s
  | .sesRefresh t p v => Sys2Proof.Machine.execSesRefresh t p v s
  | .sesStart t p v => Sys2Proof.Machine.execSesStart t p v s
  | .sesEndReq t p v => Sys2Proof.Machine.execSesEndReq t p v s
  | .sesEndWithdraw t p v => Sys2Proof.Machine.execSesEndWithdraw t p v s
  | .sesStop t p v => Sys2Proof.Machine.execSesStop t p v s
  | .sesVehopen t p v => Sys2Proof.Machine.execSesVehopen t p v s
  | .sesRelease t p v => Sys2Proof.Machine.execSesRelease t p v s
  | .linkwaitTimeout t m => Sys2Proof.Machine.execLinkwaitTimeout t m s
  | .authwaitTimeout t m => Sys2Proof.Machine.execAuthwaitTimeout t m s
  | .refreshHold t m => Sys2Proof.Machine.execRefreshHold t m s
  | .refreshTmo t m => Sys2Proof.Machine.execRefreshTmo t m s
  | .yarnBeaconPeriod t => Sys2Proof.Machine.execYarnBeaconPeriod t s
  | .zcEdge t widthUs => Sys2Proof.Machine.execZcEdge t widthUs s
  | .zcLost t => Sys2Proof.Machine.execZcLost t s
  | .zcOk t => Sys2Proof.Machine.execZcOk t s
  | .stationBeaconRx t ident src ok zcOfs costs => Sys2Proof.Machine.execStationBeaconRx t ident src ok zcOfs costs s
  | .yarnTxStart t => Sys2Proof.Machine.execYarnTxStart t s
  | .yarnFrameRx t ident fc dec auth guard est map data crc => Sys2Proof.Machine.execYarnFrameRx t ident fc dec auth guard est map data crc s
  | .yarnSackRx t src seq bits => Sys2Proof.Machine.execYarnSackRx t src seq bits s
  | .yarnSackTimeout t => Sys2Proof.Machine.execYarnSackTimeout t s
  | .yarnRetransmit q => Sys2Proof.Machine.execYarnRetransmit q s
  | .peerLost t m => Sys2Proof.Machine.execPeerLost t m s
  | .metrologySample t mp xs v90 => Sys2Proof.Machine.execMetrologySample t mp xs v90 s
  | .modChannelLost t c => Sys2Proof.Machine.execModChannelLost t c s
  | .modChannelRecover t c => Sys2Proof.Machine.execModChannelRecover t c s
  | .modrevDetect t mp => Sys2Proof.Machine.execModrevDetect t mp s
  | .secondBoundary t => Sys2Proof.Machine.execSecondBoundary t s
  | .lToCSecondFeed t => Sys2Proof.Machine.execLToCSecondFeed t s
  | .pfailWarning t => Sys2Proof.Machine.execPfailWarning t s
  | .pfailReturn t => Sys2Proof.Machine.execPfailReturn t s
  | .romCheck t ok => Sys2Proof.Machine.execRomCheck t ok s
  | .lglGet t => Sys2Proof.Machine.execLglGet t s
  | .lglSet t => Sys2Proof.Machine.execLglSet t s
  | .lglSeal t => Sys2Proof.Machine.execLglSeal t s
  | .lglDiscard t => Sys2Proof.Machine.execLglDiscard t s
  | .lglChallenge t => Sys2Proof.Machine.execLglChallenge t s
  | .lglAuth t => Sys2Proof.Machine.execLglAuth t s
  | .lglLogout t => Sys2Proof.Machine.execLglLogout t s
  | .lglAck t => Sys2Proof.Machine.execLglAck t s
  | .lglLskRenew t => Sys2Proof.Machine.execLglLskRenew t s
  | .lglChallengeExpiry t => Sys2Proof.Machine.execLglChallengeExpiry t s
  | .lglLockoutEnd t => Sys2Proof.Machine.execLglLockoutEnd t s
  | .lglRoleIdleTimeout t => Sys2Proof.Machine.execLglRoleIdleTimeout t s
  | .tamperMag t => Sys2Proof.Machine.execTamperMag t s
  | .tamperCover t => Sys2Proof.Machine.execTamperCover t s
  | .supplyLow t => Sys2Proof.Machine.execSupplyLow t s
  | .markerStartRx t loop gen point => Sys2Proof.Machine.execMarkerStartRx t loop gen point s
  | .markerEndRx t loop gen point => Sys2Proof.Machine.execMarkerEndRx t loop gen point s
  | .cLLinkReset t => Sys2Proof.Machine.execCLLinkReset t s
  | .oscStop t => Sys2Proof.Machine.execOscStop t s
  | .slewComplete t => Sys2Proof.Machine.execSlewComplete t s
  | .safeChannelAccept t c chB active => Sys2Proof.Machine.execSafeChannelAccept t c chB active s
  | .safeEvaluation t => Sys2Proof.Machine.execSafeEvaluation t s
  | .pairDropTimeout t q => Sys2Proof.Machine.execPairDropTimeout t q s
  | .discFault t n => Sys2Proof.Machine.execDiscFault t n s
  | .safeResetPulseEnd t pass => Sys2Proof.Machine.execSafeResetPulseEnd t pass s
  | .rstJam t => Sys2Proof.Machine.execRstJam t s
  | .rstJamRelease t => Sys2Proof.Machine.execRstJamRelease t s
  | .islandFail t => Sys2Proof.Machine.execIslandFail t s
  | .pairReadback t h l => Sys2Proof.Machine.execPairReadback t h l s
  | .pairFault t q => Sys2Proof.Machine.execPairFault t q s
  | .pairTest t q h l moved => Sys2Proof.Machine.execPairTest t q h l moved s
  | .sfcFrameRx t k f => Sys2Proof.Machine.execSfcFrameRx t k f s
  | .sfcWatchdog t m => Sys2Proof.Machine.execSfcWatchdog t m s
  | .sfcCrcRate t m => Sys2Proof.Machine.execSfcCrcRate t m s
  | .sfcReady t m => Sys2Proof.Machine.execSfcReady t m s
  | .sfcTx t m => Sys2Proof.Machine.execSfcTx t m s
  | .sfcHin t p v => Sys2Proof.Machine.execSfcHin t p v s
  | .sqTailWrite t p v => Sys2Proof.Machine.execSqTailWrite t p v s
  | .invalidDescriptor t => Sys2Proof.Machine.execInvalidDescriptor t s
  | .operationIssue t => Sys2Proof.Machine.execOperationIssue t s
  | .operationComplete t slot => Sys2Proof.Machine.execOperationComplete t slot s
  | .journalRelocate t => Sys2Proof.Machine.execJournalRelocate t s
  | .contClose t slot => Sys2Proof.Machine.execContClose t slot s
  | .contOpen t slot => Sys2Proof.Machine.execContOpen t slot s
  | .disClose t slot => Sys2Proof.Machine.execDisClose t slot s
  | .disOpen t slot => Sys2Proof.Machine.execDisOpen t slot s
  | .lswOff t slot => Sys2Proof.Machine.execLswOff t slot s
  | .lswOn t slot => Sys2Proof.Machine.execLswOn t slot s
  | .lswPwm t slot => Sys2Proof.Machine.execLswPwm t slot s
  | .ioOut t slot => Sys2Proof.Machine.execIoOut t slot s
  | .nvmWrite t slot => Sys2Proof.Machine.execNvmWrite t slot s
  | .nvmRead t slot => Sys2Proof.Machine.execNvmRead t slot s
  | .txVeh t slot => Sys2Proof.Machine.execTxVeh t slot s
  | .txYarn t slot => Sys2Proof.Machine.execTxYarn t slot s
  | .rxYarn t slot => Sys2Proof.Machine.execRxYarn t slot s
  | .nodeRd t slot => Sys2Proof.Machine.execNodeRd t slot s
  | .nodeWr t slot => Sys2Proof.Machine.execNodeWr t slot s
  | .nodeArm t slot => Sys2Proof.Machine.execNodeArm t slot s
  | .markStart t slot => Sys2Proof.Machine.execMarkStart t slot s
  | .markEnd t slot => Sys2Proof.Machine.execMarkEnd t slot s
  | .capRead t slot => Sys2Proof.Machine.execCapRead t slot s
  | .calRun t slot => Sys2Proof.Machine.execCalRun t slot s
  | .sign t slot => Sys2Proof.Machine.execSign t slot s
  | .verify t slot => Sys2Proof.Machine.execVerify t slot s
  | .ecdh t slot => Sys2Proof.Machine.execEcdh t slot s
  | .genkey t slot => Sys2Proof.Machine.execGenkey t slot s
  | .load t slot => Sys2Proof.Machine.execLoad t slot s
  | .unload t slot => Sys2Proof.Machine.execUnload t slot s
  | .import t slot => Sys2Proof.Machine.execImport t slot s
  | .mac t slot => Sys2Proof.Machine.execMac t slot s
  | .enc t slot => Sys2Proof.Machine.execEnc t slot s
  | .dec t slot => Sys2Proof.Machine.execDec t slot s
  | .digest t slot => Sys2Proof.Machine.execDigest t slot s
  | .random t slot => Sys2Proof.Machine.execRandom t slot s
  | .slotStore t slot => Sys2Proof.Machine.execSlotStore t slot s
  | .slotInvalidate t slot => Sys2Proof.Machine.execSlotInvalidate t slot s
  | .lcAdvance t slot => Sys2Proof.Machine.execLcAdvance t slot s
  | .genAdvance t slot => Sys2Proof.Machine.execGenAdvance t slot s
  | .debugArm t slot => Sys2Proof.Machine.execDebugArm t slot s
  | .imgWrite t slot => Sys2Proof.Machine.execImgWrite t slot s
  | .imgCommit t slot => Sys2Proof.Machine.execImgCommit t slot s
  | .imgConfirm t slot => Sys2Proof.Machine.execImgConfirm t slot s
  | .entropyFail t => Sys2Proof.Machine.execEntropyFail t s
  | .entropyRestart t => Sys2Proof.Machine.execEntropyRestart t s
  | .keyChallengeNew t p v => Sys2Proof.Machine.execKeyChallengeNew t p v s
  | .keyChallengeExpiry t => Sys2Proof.Machine.execKeyChallengeExpiry t s
  | .sysResetRequest t p v => Sys2Proof.Machine.execSysResetRequest t p v s
  | .rstnAssert t => Sys2Proof.Machine.execRstnAssert t s
  | .runtimeWatchdogExpiry t => Sys2Proof.Machine.execRuntimeWatchdogExpiry t s
  | .quiesceTimeout t => Sys2Proof.Machine.execQuiesceTimeout t s
  | .powerOnResetRelease t die => Sys2Proof.Machine.execPowerOnResetRelease t die s
  | .railInvalid t r => Sys2Proof.Machine.execRailInvalid t r s
  | .lDieCastOn t rtc retained romOk => Sys2Proof.Machine.execLDieCastOn t rtc retained romOk s
  | .castOnAdvance t rootFails bad => Sys2Proof.Machine.execCastOnAdvance t rootFails bad s
  | .bootWatchdog t => Sys2Proof.Machine.execBootWatchdog t s
  | .sysRelease t p v => Sys2Proof.Machine.execSysRelease t p v s
  | .refclkLost t => Sys2Proof.Machine.execRefclkLost t s
  | .refclkValid t => Sys2Proof.Machine.execRefclkValid t s
  | .pllLock t k => Sys2Proof.Machine.execPllLock t k s
  | .pllUnlock t k => Sys2Proof.Machine.execPllUnlock t k s
  | .clockOutputRestart t n => Sys2Proof.Machine.execClockOutputRestart t n s
  | .pwrEntryAdvance t => Sys2Proof.Machine.execPwrEntryAdvance t s
  | .pwrQtmo t => Sys2Proof.Machine.execPwrQtmo t s
  | .safePinWake t fn => Sys2Proof.Machine.execSafePinWake t fn s
  | .pcieWake t => Sys2Proof.Machine.execPcieWake t s
  | .domainWake t sramBad edramBad => Sys2Proof.Machine.execDomainWake t sramBad edramBad s
  | .edramRefresh t => Sys2Proof.Machine.execEdramRefresh t s
  | .plyFrameRx t link ok seq f => Sys2Proof.Machine.execPlyFrameRx t link ok seq f s
  | .helloRx t link seq pairid serial mode role pref crc => Sys2Proof.Machine.execHelloRx t link seq pairid serial mode role pref crc s
  | .timeRx t link seq sent echo echoAt row rowAt => Sys2Proof.Machine.execTimeRx t link seq sent echo echoAt row rowAt s
  | .snapRx t link seq row x => Sys2Proof.Machine.execSnapRx t link seq row x s
  | .snapLate t => Sys2Proof.Machine.execSnapLate t s
  | .allocRx t link seq row res rejoin => Sys2Proof.Machine.execAllocRx t link seq row res rejoin s
  | .split t => Sys2Proof.Machine.execSplit t s
  | .mirrorRx t link seq m => Sys2Proof.Machine.execMirrorRx t link seq m s
  | .sknfwdRx t link seq k f => Sys2Proof.Machine.execSknfwdRx t link seq k f s
  | .publishRx t link seq row sets asg coils saf => Sys2Proof.Machine.execPublishRx t link seq row sets asg coils saf s
  | .selfCheckStart t => Sys2Proof.Machine.execSelfCheckStart t s
  | .checkRx t link seq res => Sys2Proof.Machine.execCheckRx t link seq res s
  | .selfCheckTimeout t => Sys2Proof.Machine.execSelfCheckTimeout t s
  | .plyLoss t => Sys2Proof.Machine.execPlyLoss t s
  | .solo t => Sys2Proof.Machine.execSolo t s
  | .takeRx t link seq at_ cause => Sys2Proof.Machine.execTakeRx t link seq at_ cause s
  | .returnStart t => Sys2Proof.Machine.execReturnStart t s
  | .plySwitch t p v => Sys2Proof.Machine.execPlySwitch t p v s
  | .markRx t link seq start loop gen point => Sys2Proof.Machine.execMarkRx t link seq start loop gen point s
  | .mtrsecRx t link seq ps => Sys2Proof.Machine.execMtrsecRx t link seq ps s
  | .xchkDiff t mp => Sys2Proof.Machine.execXchkDiff t mp s
  | .frcArm t p v => Sys2Proof.Machine.execFrcArm t p v s
  | .frcDisarm t p v => Sys2Proof.Machine.execFrcDisarm t p v s
  | .frcFire t p v => Sys2Proof.Machine.execFrcFire t p v s
  | .trigRx t link seq kind src time capid => Sys2Proof.Machine.execTrigRx t link seq kind src time capid s
  | .sknSyncRegain t k => Sys2Proof.Machine.execSknSyncRegain t k s
  | .blockLockGained t link => Sys2Proof.Machine.execBlockLockGained t link s
  | .blockLockLost t link => Sys2Proof.Machine.execBlockLockLost t link s
  | .heartbeatSend t => Sys2Proof.Machine.execHeartbeatSend t s
  | .helloSend t => Sys2Proof.Machine.execHelloSend t s
  | .timeSend t => Sys2Proof.Machine.execTimeSend t s
  | .ringFrameRx t k => Sys2Proof.Machine.execRingFrameRx t k s
  | .selfCheckDone t pass => Sys2Proof.Machine.execSelfCheckDone t pass s
  | .pcieLinkUp t width speed => Sys2Proof.Machine.execPcieLinkUp t width speed s
  | .crystalReturn t => Sys2Proof.Machine.execCrystalReturn t s
  | .bandSearchComplete t k band => Sys2Proof.Machine.execBandSearchComplete t k band s
  | .rstnRelease t => Sys2Proof.Machine.execRstnRelease t s
  | .vaux24Measure t mv10 => Sys2Proof.Machine.execVaux24Measure t mv10 s

end Sys2Proof.Machine
end

