-- ==== Sys2Proof/WellFormed.lean ====
section
/-!
DEFINITION. Well-formed commands: operands inside the bounds the spec gives them, where their types do not say so
already. `exec` is total on the others too: they name no instance, or they are answered by the rule of the register.
-/

namespace Sys2Proof

/-- The timebase count at which a command comes (R440). -/
def Instr.time : Instr → Nat
  | .regWrite t _ _ _ => t
  | .stageCommitRequest t _ _ _ _ => t
  | .stageCommitApply t _ _ => t
  | .errinfoClear t _ _ _ _ => t
  | .abortInfoClear t _ _ => t
  | .evtPendClear t _ _ _ _ => t
  | .evtSetInject t _ _ _ _ => t
  | .pageLock t _ _ _ _ => t
  | .blockSoftReset t _ _ _ _ => t
  | .eventOverflowMarker t => t
  | .completionDeliver t => t
  | .cqVectorPause t => t
  | .cqHeadWrite t _ _ => t
  | .eqHeadWrite t _ _ => t
  | .msixUnmask t _ => t
  | .hifLinkReset t _ => t
  | .hifAccessFault t _ _ _ _ => t
  | .mgmtSetPointer m _ _ => m.t
  | .mgmtRead m => m.t
  | .mgmtWrite m _ _ => m.t
  | .mgmtSclTimeout t _ => t
  | .mgmtWakeMatch t _ => t
  | .rowBoundary t => t
  | .alcStall t => t
  | .gridWrite t _ _ => t
  | .gridTmo t => t
  | .priceStale t => t
  | .cabStale t _ => t
  | .handoverRequest t _ _ => t
  | .handoverAck t _ _ => t
  | .handoverRampOutEnd t _ => t
  | .handoverPrebiasDone t _ => t
  | .handoverRampInEnd t _ => t
  | .sampleBoundary t _ => t
  | .tlmRx t _ _ => t
  | .tlmDeadlineMiss t _ => t
  | .tlmLoss t _ => t
  | .vbusLow t _ => t
  | .strFaultClear t _ _ _ => t
  | .auxSample t _ => t
  | .auxSrcBad t _ => t
  | .fallbackExit t _ => t
  | .phInvalid t _ _ => t
  | .phImbal t _ _ => t
  | .shedHoldExpiry t _ => t
  | .stepLockoutEnd t _ => t
  | .prebiasComplete t _ => t
  | .prebiasTimeout t _ => t
  | .softstartDone t _ => t
  | .shortSs t _ => t
  | .pointFaultClear t _ _ _ => t
  | .restartCheckPass t _ => t
  | .restartCheckTimeout t _ => t
  | .rampdownTimeout t _ => t
  | .vehwaitTimeout t _ => t
  | .dischargeTimeout t _ => t
  | .sknLinkUp t _ => t
  | .sknSyncLoss t _ => t
  | .sknSyncSend t _ => t
  | .dlyReqRx t _ _ => t
  | .identRx t _ _ => t
  | .enumIdentTimeout t _ _ => t
  | .statusRx t _ _ => t
  | .nodeLost t _ _ => t
  | .ioInRx t _ _ => t
  | .inputStale t _ _ _ => t
  | .ioAckRx t _ _ => t
  | .ioAckTimeout t _ _ => t
  | .tunRx t _ _ => t
  | .sknWakeDetect t _ _ => t
  | .contactorConfirm t _ => t
  | .contactorConfirmTimeout t _ => t
  | .auxContactChange t _ => t
  | .isoFault t _ => t
  | .isoLost t _ => t
  | .thmConversion t _ _ _ => t
  | .thmBroken t _ => t
  | .thmRecovered t _ => t
  | .hwComparatorTrip t _ => t
  | .hwCoolRelease t _ => t
  | .rorEvaluation t _ => t
  | .rorTripClear t _ _ _ => t
  | .dieSensorRead t _ => t
  | .dieShutdownTrip t _ => t
  | .dieShutdownDomainsOff t => t
  | .thermalRestart t => t
  | .lswStep t _ _ => t
  | .lswShortTrip t _ => t
  | .lswUvOff t => t
  | .lswUvRecover t => t
  | .lswUvStaggerOn t _ => t
  | .lswRetryRestart t _ => t
  | .lswCounterReset t _ => t
  | .lswClear t _ _ _ => t
  | .lswDutyWrite t _ _ _ => t
  | .pilotDriveChange t _ => t
  | .pilotSample t _ _ _ => t
  | .pilotStateAccept t _ => t
  | .pilotFault t _ => t
  | .idStateAccept t _ _ => t
  | .ceFault t _ _ => t
  | .vehFrameRx t _ _ _ => t
  | .rxHeadWrite t _ _ => t
  | .vehLinkChange t _ _ => t
  | .slacParmReq t _ _ _ => t
  | .slacSounding t _ _ => t
  | .slacMatchReq t _ _ _ => t
  | .gpMgmtMsgRx t _ _ => t
  | .pendingTargetWrite t _ _ _ => t
  | .sesValidate t _ _ => t
  | .sesReject t _ _ => t
  | .sesRefresh t _ _ => t
  | .sesStart t _ _ => t
  | .sesEndReq t _ _ => t
  | .sesEndWithdraw t _ _ => t
  | .sesStop t _ _ => t
  | .sesVehopen t _ _ => t
  | .sesRelease t _ _ => t
  | .linkwaitTimeout t _ => t
  | .authwaitTimeout t _ => t
  | .refreshHold t _ => t
  | .refreshTmo t _ => t
  | .yarnBeaconPeriod t => t
  | .zcEdge t _ => t
  | .zcLost t => t
  | .zcOk t => t
  | .stationBeaconRx t _ _ _ _ _ => t
  | .yarnTxStart t => t
  | .yarnFrameRx t _ _ _ _ _ _ _ _ _ => t
  | .yarnSackRx t _ _ _ => t
  | .yarnSackTimeout t => t
  | .yarnRetransmit q => q.t
  | .peerLost t _ => t
  | .metrologySample t _ _ _ => t
  | .modChannelLost t _ => t
  | .modChannelRecover t _ => t
  | .modrevDetect t _ => t
  | .secondBoundary t => t
  | .lToCSecondFeed t => t
  | .pfailWarning t => t
  | .pfailReturn t => t
  | .romCheck t _ => t
  | .lglGet t => t
  | .lglSet t => t
  | .lglSeal t => t
  | .lglDiscard t => t
  | .lglChallenge t => t
  | .lglAuth t => t
  | .lglLogout t => t
  | .lglAck t => t
  | .lglLskRenew t => t
  | .lglChallengeExpiry t => t
  | .lglLockoutEnd t => t
  | .lglRoleIdleTimeout t => t
  | .tamperMag t => t
  | .tamperCover t => t
  | .supplyLow t => t
  | .markerStartRx t _ _ _ => t
  | .markerEndRx t _ _ _ => t
  | .cLLinkReset t => t
  | .oscStop t => t
  | .slewComplete t => t
  | .safeChannelAccept t _ _ _ => t
  | .safeEvaluation t => t
  | .pairDropTimeout t _ => t
  | .discFault t _ => t
  | .safeResetPulseEnd t _ => t
  | .rstJam t => t
  | .rstJamRelease t => t
  | .islandFail t => t
  | .pairReadback t _ _ => t
  | .pairFault t _ => t
  | .pairTest t _ _ _ _ => t
  | .sfcFrameRx t _ _ => t
  | .sfcWatchdog t _ => t
  | .sfcCrcRate t _ => t
  | .sfcReady t _ => t
  | .sfcTx t _ => t
  | .sfcHin t _ _ => t
  | .sqTailWrite t _ _ => t
  | .invalidDescriptor t => t
  | .operationIssue t => t
  | .operationComplete t _ => t
  | .journalRelocate t => t
  | .contClose t _ => t
  | .contOpen t _ => t
  | .disClose t _ => t
  | .disOpen t _ => t
  | .lswOff t _ => t
  | .lswOn t _ => t
  | .lswPwm t _ => t
  | .ioOut t _ => t
  | .nvmWrite t _ => t
  | .nvmRead t _ => t
  | .txVeh t _ => t
  | .txYarn t _ => t
  | .rxYarn t _ => t
  | .nodeRd t _ => t
  | .nodeWr t _ => t
  | .nodeArm t _ => t
  | .markStart t _ => t
  | .markEnd t _ => t
  | .capRead t _ => t
  | .calRun t _ => t
  | .sign t _ => t
  | .verify t _ => t
  | .ecdh t _ => t
  | .genkey t _ => t
  | .load t _ => t
  | .unload t _ => t
  | .import t _ => t
  | .mac t _ => t
  | .enc t _ => t
  | .dec t _ => t
  | .digest t _ => t
  | .random t _ => t
  | .slotStore t _ => t
  | .slotInvalidate t _ => t
  | .lcAdvance t _ => t
  | .genAdvance t _ => t
  | .debugArm t _ => t
  | .imgWrite t _ => t
  | .imgCommit t _ => t
  | .imgConfirm t _ => t
  | .entropyFail t => t
  | .entropyRestart t => t
  | .keyChallengeNew t _ _ => t
  | .keyChallengeExpiry t => t
  | .sysResetRequest t _ _ => t
  | .rstnAssert t => t
  | .runtimeWatchdogExpiry t => t
  | .quiesceTimeout t => t
  | .powerOnResetRelease t _ => t
  | .railInvalid t _ => t
  | .lDieCastOn t _ _ _ => t
  | .castOnAdvance t _ _ => t
  | .bootWatchdog t => t
  | .sysRelease t _ _ => t
  | .refclkLost t => t
  | .refclkValid t => t
  | .pllLock t _ => t
  | .pllUnlock t _ => t
  | .clockOutputRestart t _ => t
  | .pwrEntryAdvance t => t
  | .pwrQtmo t => t
  | .safePinWake t _ => t
  | .pcieWake t => t
  | .domainWake t _ _ => t
  | .edramRefresh t => t
  | .plyFrameRx t _ _ _ _ => t
  | .helloRx t _ _ _ _ _ _ _ _ => t
  | .timeRx t _ _ _ _ _ _ _ => t
  | .snapRx t _ _ _ _ => t
  | .snapLate t => t
  | .allocRx t _ _ _ _ _ => t
  | .split t => t
  | .mirrorRx t _ _ _ => t
  | .sknfwdRx t _ _ _ _ => t
  | .publishRx t _ _ _ _ _ _ _ => t
  | .selfCheckStart t => t
  | .checkRx t _ _ _ => t
  | .selfCheckTimeout t => t
  | .plyLoss t => t
  | .solo t => t
  | .takeRx t _ _ _ _ => t
  | .returnStart t => t
  | .plySwitch t _ _ => t
  | .markRx t _ _ _ _ _ _ => t
  | .mtrsecRx t _ _ _ => t
  | .xchkDiff t _ => t
  | .frcArm t _ _ => t
  | .frcDisarm t _ _ => t
  | .frcFire t _ _ => t
  | .trigRx t _ _ _ _ _ _ => t
  | .sknSyncRegain t _ => t
  | .blockLockGained t _ => t
  | .blockLockLost t _ => t
  | .heartbeatSend t => t
  | .helloSend t => t
  | .timeSend t => t
  | .ringFrameRx t _ => t
  | .selfCheckDone t _ => t
  | .pcieLinkUp t _ _ => t
  | .crystalReturn t => t
  | .bandSearchComplete t _ _ => t
  | .rstnRelease t => t
  | .vaux24Measure t _ => t

/-- An address inside its BAR of 64 MiB (R36). -/
def HostAddr.inBar : HostAddr → Bool
  | .bar0 a | .bar2 a => a < 0x4000000
  | .bar2Bytes a bs => 1 ≤ bs.length && a + bs.length ≤ 0x4000000
  | .cfg _ | .jtag _ => true

/-- The operands of a command lie inside the bounds of the spec, its time aside. -/
def Instr.operandsOk : Instr → Bool
  | .regWrite _ _ a _ => a.inBar
  | .stageCommitRequest _ _ b n _ => n < Machine.Tag.count b
  | .stageCommitApply _ b n => n < Machine.Tag.count b
  | .errinfoClear _ _ b n _ => n < Machine.Tag.count b
  | .abortInfoClear _ _ _ => true
  | .evtPendClear _ _ b n _ => n < Machine.Tag.count b
  | .evtSetInject _ _ b n _ => n < Machine.Tag.count b
  | .pageLock _ _ b n _ => n < Machine.Tag.count b
  | .blockSoftReset _ _ b n _ => n < Machine.Tag.count b
  | .eventOverflowMarker _ => true
  | .completionDeliver _ => true
  | .cqVectorPause _ => true
  | .cqHeadWrite _ _ _ => true
  | .eqHeadWrite _ _ _ => true
  | .msixUnmask _ _ => true
  | .hifLinkReset _ _ => true
  | .hifAccessFault _ _ _ a size => a.inBar && 1 ≤ size
  | .mgmtSetPointer _ _ _ => true
  | .mgmtRead _ => true
  | .mgmtWrite _ _ _ => true
  | .mgmtSclTimeout _ _ => true
  | .mgmtWakeMatch _ addr => addr < 128
  | .rowBoundary _ => true
  | .alcStall _ => true
  | .gridWrite _ _ _ => true
  | .gridTmo _ => true
  | .priceStale _ => true
  | .cabStale _ _ => true
  | .handoverRequest _ _ _ => true
  | .handoverAck _ _ _ => true
  | .handoverRampOutEnd _ _ => true
  | .handoverPrebiasDone _ _ => true
  | .handoverRampInEnd _ _ => true
  | .sampleBoundary _ _ => true
  | .tlmRx _ _ _ => true
  | .tlmDeadlineMiss _ _ => true
  | .tlmLoss _ _ => true
  | .vbusLow _ _ => true
  | .strFaultClear _ _ _ _ => true
  | .auxSample _ _ => true
  | .auxSrcBad _ _ => true
  | .fallbackExit _ _ => true
  | .phInvalid _ _ _ => true
  | .phImbal _ _ _ => true
  | .shedHoldExpiry _ _ => true
  | .stepLockoutEnd _ _ => true
  | .prebiasComplete _ _ => true
  | .prebiasTimeout _ _ => true
  | .softstartDone _ _ => true
  | .shortSs _ _ => true
  | .pointFaultClear _ _ _ _ => true
  | .restartCheckPass _ _ => true
  | .restartCheckTimeout _ _ => true
  | .rampdownTimeout _ _ => true
  | .vehwaitTimeout _ _ => true
  | .dischargeTimeout _ _ => true
  | .sknLinkUp _ _ => true
  | .sknSyncLoss _ _ => true
  | .sknSyncSend _ _ => true
  | .dlyReqRx _ _ _ => true
  | .identRx _ _ _ => true
  | .enumIdentTimeout _ _ _ => true
  | .statusRx _ _ _ => true
  | .nodeLost _ _ _ => true
  | .ioInRx _ _ _ => true
  | .inputStale _ _ _ _ => true
  | .ioAckRx _ _ _ => true
  | .ioAckTimeout _ _ _ => true
  | .tunRx _ _ _ => true
  | .sknWakeDetect _ _ _ => true
  | .contactorConfirm _ _ => true
  | .contactorConfirmTimeout _ _ => true
  | .auxContactChange _ _ => true
  | .isoFault _ _ => true
  | .isoLost _ _ => true
  | .thmConversion _ _ _ _ => true
  | .thmBroken _ _ => true
  | .thmRecovered _ _ => true
  | .hwComparatorTrip _ _ => true
  | .hwCoolRelease _ _ => true
  | .rorEvaluation _ _ => true
  | .rorTripClear _ _ _ _ => true
  | .dieSensorRead _ ts => ts.length = 8
  | .dieShutdownTrip _ _ => true
  | .dieShutdownDomainsOff _ => true
  | .thermalRestart _ => true
  | .lswStep _ _ _ => true
  | .lswShortTrip _ _ => true
  | .lswUvOff _ => true
  | .lswUvRecover _ => true
  | .lswUvStaggerOn _ _ => true
  | .lswRetryRestart _ _ => true
  | .lswCounterReset _ _ => true
  | .lswClear _ _ _ _ => true
  | .lswDutyWrite _ _ _ _ => true
  | .pilotDriveChange _ _ => true
  | .pilotSample _ _ _ _ => true
  | .pilotStateAccept _ _ => true
  | .pilotFault _ _ => true
  | .idStateAccept _ _ _ => true
  | .ceFault _ _ _ => true
  | .vehFrameRx _ _ _ _ => true
  | .rxHeadWrite _ _ _ => true
  | .vehLinkChange _ _ _ => true
  | .slacParmReq _ _ _ addr => addr < 2 ^ 48
  | .slacSounding _ _ _ => true
  | .slacMatchReq _ _ _ addr => addr < 2 ^ 48
  | .gpMgmtMsgRx _ _ _ => true
  | .pendingTargetWrite _ _ off _ => 0x480 ≤ off && off ≤ 0x490 && off % 4 = 0
  | .sesValidate _ _ _ => true
  | .sesReject _ _ _ => true
  | .sesRefresh _ _ _ => true
  | .sesStart _ _ _ => true
  | .sesEndReq _ _ _ => true
  | .sesEndWithdraw _ _ _ => true
  | .sesStop _ _ _ => true
  | .sesVehopen _ _ _ => true
  | .sesRelease _ _ _ => true
  | .linkwaitTimeout _ _ => true
  | .authwaitTimeout _ _ => true
  | .refreshHold _ _ => true
  | .refreshTmo _ _ => true
  | .yarnBeaconPeriod _ => true
  | .zcEdge _ _ => true
  | .zcLost _ => true
  | .zcOk _ => true
  | .stationBeaconRx _ _ _ _ _ _ => true
  | .yarnTxStart _ => true
  | .yarnFrameRx _ _ _ _ _ _ _ _ _ _ => true
  | .yarnSackRx _ _ _ _ => true
  | .yarnSackTimeout _ => true
  | .yarnRetransmit _ => true
  | .peerLost _ _ => true
  | .metrologySample _ _ _ _ => true
  | .modChannelLost _ _ => true
  | .modChannelRecover _ _ => true
  | .modrevDetect _ _ => true
  | .secondBoundary _ => true
  | .lToCSecondFeed _ => true
  | .pfailWarning _ => true
  | .pfailReturn _ => true
  | .romCheck _ _ => true
  | .lglGet _ => true
  | .lglSet _ => true
  | .lglSeal _ => true
  | .lglDiscard _ => true
  | .lglChallenge _ => true
  | .lglAuth _ => true
  | .lglLogout _ => true
  | .lglAck _ => true
  | .lglLskRenew _ => true
  | .lglChallengeExpiry _ => true
  | .lglLockoutEnd _ => true
  | .lglRoleIdleTimeout _ => true
  | .tamperMag _ => true
  | .tamperCover _ => true
  | .supplyLow _ => true
  | .markerStartRx _ _ _ _ => true
  | .markerEndRx _ _ _ _ => true
  | .cLLinkReset _ => true
  | .oscStop _ => true
  | .slewComplete _ => true
  | .safeChannelAccept _ _ _ _ => true
  | .safeEvaluation _ => true
  | .pairDropTimeout _ _ => true
  | .discFault _ _ => true
  | .safeResetPulseEnd _ _ => true
  | .rstJam _ => true
  | .rstJamRelease _ => true
  | .islandFail _ => true
  | .pairReadback _ _ _ => true
  | .pairFault _ _ => true
  | .pairTest _ _ _ _ _ => true
  | .sfcFrameRx _ _ _ => true
  | .sfcWatchdog _ _ => true
  | .sfcCrcRate _ _ => true
  | .sfcReady _ _ => true
  | .sfcTx _ _ => true
  | .sfcHin _ _ _ => true
  | .sqTailWrite _ _ _ => true
  | .invalidDescriptor _ => true
  | .operationIssue _ => true
  | .operationComplete _ _ => true
  | .journalRelocate _ => true
  | .contClose _ _ => true
  | .contOpen _ _ => true
  | .disClose _ _ => true
  | .disOpen _ _ => true
  | .lswOff _ _ => true
  | .lswOn _ _ => true
  | .lswPwm _ _ => true
  | .ioOut _ _ => true
  | .nvmWrite _ _ => true
  | .nvmRead _ _ => true
  | .txVeh _ _ => true
  | .txYarn _ _ => true
  | .rxYarn _ _ => true
  | .nodeRd _ _ => true
  | .nodeWr _ _ => true
  | .nodeArm _ _ => true
  | .markStart _ _ => true
  | .markEnd _ _ => true
  | .capRead _ _ => true
  | .calRun _ _ => true
  | .sign _ _ => true
  | .verify _ _ => true
  | .ecdh _ _ => true
  | .genkey _ _ => true
  | .load _ _ => true
  | .unload _ _ => true
  | .import _ _ => true
  | .mac _ _ => true
  | .enc _ _ => true
  | .dec _ _ => true
  | .digest _ _ => true
  | .random _ _ => true
  | .slotStore _ _ => true
  | .slotInvalidate _ _ => true
  | .lcAdvance _ _ => true
  | .genAdvance _ _ => true
  | .debugArm _ _ => true
  | .imgWrite _ _ => true
  | .imgCommit _ _ => true
  | .imgConfirm _ _ => true
  | .entropyFail _ => true
  | .entropyRestart _ => true
  | .keyChallengeNew _ _ _ => true
  | .keyChallengeExpiry _ => true
  | .sysResetRequest _ _ _ => true
  | .rstnAssert _ => true
  | .runtimeWatchdogExpiry _ => true
  | .quiesceTimeout _ => true
  | .powerOnResetRelease _ _ => true
  | .railInvalid _ _ => true
  | .lDieCastOn _ _ _ _ => true
  | .castOnAdvance _ _ _ => true
  | .bootWatchdog _ => true
  | .sysRelease _ _ _ => true
  | .refclkLost _ => true
  | .refclkValid _ => true
  | .pllLock _ _ => true
  | .pllUnlock _ _ => true
  | .clockOutputRestart _ _ => true
  | .pwrEntryAdvance _ => true
  | .pwrQtmo _ => true
  | .safePinWake _ _ => true
  | .pcieWake _ => true
  | .domainWake _ _ _ => true
  | .edramRefresh _ => true
  | .plyFrameRx _ _ _ _ _ => true
  | .helloRx _ _ _ _ _ _ _ _ _ => true
  | .timeRx _ _ _ _ _ _ _ _ => true
  | .snapRx _ _ _ _ _ => true
  | .snapLate _ => true
  | .allocRx _ _ _ _ _ _ => true
  | .split _ => true
  | .mirrorRx _ _ _ _ => true
  | .sknfwdRx _ _ _ _ _ => true
  | .publishRx _ _ _ _ _ _ _ _ => true
  | .selfCheckStart _ => true
  | .checkRx _ _ _ _ => true
  | .selfCheckTimeout _ => true
  | .plyLoss _ => true
  | .solo _ => true
  | .takeRx _ _ _ _ _ => true
  | .returnStart _ => true
  | .plySwitch _ _ _ => true
  | .markRx _ _ _ _ loop gen point => loop < 64 && gen < 256 && point < 32
  | .mtrsecRx _ _ _ _ => true
  | .xchkDiff _ _ => true
  | .frcArm _ _ _ => true
  | .frcDisarm _ _ _ => true
  | .frcFire _ _ _ => true
  | .trigRx _ _ _ _ _ _ _ => true
  | .sknSyncRegain _ _ => true
  | .blockLockGained _ _ => true
  | .blockLockLost _ _ => true
  | .heartbeatSend _ => true
  | .helloSend _ => true
  | .timeSend _ => true
  | .ringFrameRx _ _ => true
  | .selfCheckDone _ _ => true
  | .pcieLinkUp _ width speed => (width = 1 || width = 2 || width = 4) && 1 ≤ speed && speed ≤ 3
  | .crystalReturn _ => true
  | .bandSearchComplete _ _ band => band ≤ 64
  | .rstnRelease _ => true
  | .vaux24Measure _ _ => true

/-- A well-formed command: its time is a count of the 64-bit timebase (R440), its operands are inside their bounds. -/
def Instr.wellFormed (i : Instr) : Bool := i.time < 2 ^ 64 && i.operandsOk

end Sys2Proof
end

