-- ==== Sys2Proof/Safety.lean ====
section
/-!
DEFINITION. The terms the statements use: the canonical form of the memories, what an event or a message may touch, and
how a host write finds the block.
-/

namespace Sys2Proof.Machine

/-! ### The memories -/

/-- Both memories hold their canonical form: addresses strictly rising, no listed byte equal to 0, which is what an
unlisted byte reads as (R390). -/
def Mem.wf (m : Mem) : Bool := AMap.wf (fun _ => 0#8) m.sram && AMap.wf (fun _ => 0#8) m.mram

/-- One byte of the shared buffers (R36). -/
def State.sramByte (s : State) (a : Nat) : Byte := s.mem.sram.get (fun _ => 0#8) a

/-- One byte of the MRAM. -/
def State.mramByte (s : State) (a : Nat) : Byte := s.mem.mram.get (fun _ => 0#8) a

/-- The commands that may write the shared buffers: host writes over BAR2, what stores received frames, what returns
data to the host, and what resets or unpowers the C-die (R36, R422, Table RST-2). -/
def writesSram : Instr → Bool
  | .regWrite .. | .nvmRead .. | .capRead .. | .sfcTx .. | .vehFrameRx .. | .tunRx .. | .yarnFrameRx .. | .rxYarn ..
  | .sign .. | .verify .. | .ecdh .. | .genkey .. | .load .. | .unload .. | .import .. | .mac .. | .enc .. | .dec ..
  | .digest .. | .random .. | .slotStore .. | .slotInvalidate .. | .lcAdvance .. | .genAdvance .. | .debugArm ..
  | .imgWrite .. | .imgCommit .. | .imgConfirm ..
  | .pwrEntryAdvance .. | .domainWake .. | .dieShutdownDomainsOff .. | .thermalRestart .. | .railInvalid .. => true
  | _ => false

/-! ### What an event or a message touches (R38, R39, R41, R47, R372) -/

/-- The registers that messages and recorder triggers write: the HIF and FRC pages, the MSI-X pending bits. -/
def loudPage (a : Nat) : Bool := a / 4096 = 4 || a / 4096 = 0x900 || a / 4096 = 0xFF

/-- The registers that events write: those, and EVT_RAW and EVT_PEND of a page. -/
def loud (a : Nat) : Bool := a % 4096 = 0x10 || a % 4096 = 0x18 || loudPage a

/-- The second device differs from the first at most in what events and messages write: registers of L, the host's
rings, the recorder, the log of what left the part and the SEQ of Ply frames. Every other register and every other
component is the same. -/
structure Quiet (L : Nat → Bool) (d d' : Dev) : Prop where
  regs : ∀ a, L a = false → d'.regs.get resetWord a = d.regs.get resetWord a
  rest : d' = { d with regs := d'.regs, host := d'.host, sent := d'.sent, frc := d'.frc,
                       ply := { d.ply with txSeq := d'.ply.txSeq } }

/-- An event stands in EVT_PEND wherever its EVT_EN bit was set (R47). -/
def Dev.pended (d d' : Dev) (n : Nat) (e : Ev) : Prop :=
  d.bit n (EVT_EN.EN e.tag) e.bit = true → d'.bit n (EVT_PEND.PEND e.tag) e.bit = true

/-- A level event stands in EVT_RAW (R47, Table DOC-25). -/
def Dev.stands (d : Dev) (n : Nat) (e : Ev) : Prop := d.bit n (EVT_RAW.RAW e.tag) e.bit = true

/-- The registers outside L are unchanged. -/
def SameRegs (L : Nat → Bool) (d d' : Dev) : Prop := ∀ a, L a = false → d'.regs.get resetWord a = d.regs.get resetWord a

/-- Nothing but registers changed. -/
def RegsOnly (d d' : Dev) : Prop := d' = { d with regs := d'.regs }

/-! ### Host writes -/

/-- The block as a host write from a port finds it at t: a write over the endpoint shows that the function is in D0. -/
def Dev.arrive (t : Nat) (p : Port) (d : Dev) : Dev :=
  let d := Dev.at t d
  if p = .pcie then { d with host := { d.host with d3 := false } } else d

/-- A host write of a register reaches its page: no access fault (R37), and the management port may write it (R42). -/
def Dev.reached (d : Dev) (p : Port) (t : Tag) (n off : Nat) : Prop :=
  n < t.count ∧ d.accessFault p true (regAddr t n off) 4 = none

/-- A write of a block register passes the checks that every register has (R12, R13, R48, R49, R52, R339): the unit may
make it, the page is not locked against it, the register is neither staged nor read-only, no reserved bit is 1 and every
field is in its own range. -/
def Dev.passes (d : Dev) (t : Tag) (n off : Nat) (v : Word) : Bool :=
  match slotAt t n off with
  | .reg r =>
    !d.roleBad t off && !(r.lockable && d.locked t n) && !r.stagedReg && !r.readOnly
      && !bitsOutside (r.mask fun _ => true) v && !r.rangeBad v
  | _ => false

/-- A register of the field tables that holds an RW field, so that SEQ counts its writes (R48). -/
def counted (t : Tag) (n off : Nat) : Bool :=
  match slotAt t n off with
  | .reg r => r.lockable
  | _ => false

/-- The block after an accepted write of a block register: its effect, and SEQ counted where the register holds an RW
field (R48). -/
def Dev.took (d : Dev) (t : Tag) (n off : Nat) : Dev := if counted t n off then d.seqInc t n else d

/-- The page as a rejected write leaves it (R13, R46): ERRINFO alone changes. -/
def Dev.rejected (d d' : Dev) (t : Tag) (n off code : Nat) : Prop :=
  d'.rd n (ERRINFO.REASON t) = code ∧ d'.rd n (ERRINFO.OFFSET t) = off ∧
  d'.rd n (ERRINFO.COUNT t) = min (d.rd n (ERRINFO.COUNT t) + 1) 255 ∧
  SameRegs (fun a => a = pageIx t n * 4096 + 0x28) d d' ∧ RegsOnly d d'

/-! ### What a command ends in -/

/-- The command ends in a next state: the queue and both memories as they were, and a block e of which P holds. -/
def Ends (c : Instr) (s : State) (P : Dev → Prop) : Prop := ∃ e : Dev, exec c s = .next { s with dev := e } ∧ P e

/-- The command changes nothing but the time. -/
def Waits (c : Instr) (t : Nat) (s : State) : Prop := exec c s = .next { s with dev := Dev.at t s.dev }

/-- A host write is rejected: ERRINFO alone changes (R13). -/
def Refuses (c : Instr) (s : State) (d : Dev) (t : Tag) (n off code : Nat) : Prop := Ends c s fun e => d.rejected e t n off code

/-- A host write is taken: it has an effect of which P holds, and SEQ counts where the register holds an RW field. -/
def Takes (c : Instr) (s : State) (t : Tag) (n off : Nat) (P : Dev → Prop) : Prop :=
  Ends c s fun e => ∃ f : Dev, P f ∧ e = f.took t n off

/-- A strand has stopped on a fault (R92, R98, R120): its edges are STOP and its code stands, RESTART_FAIL where it was in
its restart check; its point is clamped; no other strand's record has changed, and of another point's at most that its
reverse discharge has ended with its last such strand (R122). -/
def Dev.faulted (d e : Dev) (n code : Nat) : Prop :=
  e.rd n STR_STAT.STATE = 5 ∧ e.rd n STR_FAULT.CODE = (if (d.strand n).restartAt.isSome then 0x11 else code) ∧
  (e.strand n).stopped = true ∧ (e.strand n).restartAt = none ∧ (e.point (d.asgPt n)).clampNow = true ∧
  (∀ m ≠ n, e.strand m = d.strand m) ∧
  (∀ q ≠ d.asgPt n, e.point q = d.point q ∨ e.point q = { d.point q with reverse := false }) ∧ e.ses = d.ses

/-- The operation in a slot has its result: finished, with a status. -/
def Dev.opEnds (e : Dev) (slot status : Nat) : Prop := ∃ o, e.opAt slot = some o ∧ o.phase = .finished ∧ o.status = status

/-- The live session of a point, if it holds one in a state up to CHARGING, is ENDING or ENDED with a cause (R209). -/
def Dev.sesStopped (d e : Dev) (p cause : Nat) : Prop :=
  ∀ m, d.liveSes p = some m → d.sesState m ≤ 4 →
    e.rd 0 (SES_STAT.CAUSE m) = cause ∧ (e.sesState m = 5 ∨ e.sesState m = 6)

/-- A point in PREBIAS to VEHWAIT has met a fault (R118, R158, R161): DISCHARGE, the fault recorded if none stood, the
edges of its strands STOP, its session ending with POINT_FAULT. -/
def Dev.pointFaulted (d e : Dev) (p code : Nat) : Prop :=
  e.ptState p = 7 ∧ (d.rd p OUT_RUNSTAT.FAULT = 0 → e.rd p OUT_RUNSTAT.FAULT = code) ∧
  (∀ s ∈ d.group p, (e.strand s).stopped = true) ∧ d.sesStopped e p 4

/-- The close of a contactor is on its way: queued, in flight, or waiting behind an open (R156). -/
def Dev.closeAsked (d : Dev) (x : Nat) : Prop :=
  d.ctmQueued OK.CONT_CLOSE x = true ∨ (d.ctmFlight OK.CONT_CLOSE x).isSome = true ∨ (d.entry x).closeWaits = true

/-- The open of a contactor is on its way, or it is OPEN with no close queued (R156, R159). -/
def Dev.openAsked (d : Dev) (x : Nat) : Prop :=
  d.ctmQueued OK.CONT_OPEN x = true ∨ (d.ctmFlight OK.CONT_OPEN x).isSome = true ∨ (d.entry x).openWaits = true ∨
  d.ctmState x = 0

/-- A Skein frame of a TYPE is taken: the port receives, the frame is intact and of that TYPE, and it is no copy of one
taken at the ring's other end (R128, R130). -/
def Dev.rxTakes (d : Dev) (k type : Nat) (f : List Byte) : Prop :=
  d.sknLive k = true ∧ frameOk f = true ∧ leAt f 0 1 = type ∧
  ∀ key, frameKey f = some key → d.rd (d.homePort k) SKN_CFG.TOPO ≠ 1 ∨
    (type, key) ∉ (d.node (d.homePort k) (framePos f)).last

/-- A vehicle frame stands in the receive ring at the slot the tail named (R200): its length and point first, its bytes
from byte 16 on; the tail has moved on by one slot. -/
def Dev.stored (d : Dev) (u : State) (p : Nat) (f : List Byte) : Prop :=
  let i := d.rd 0 VCM_RXTAIL.IDX
  let a := d.rd 0 VCM_RX.BASE * 4096 + i * 2048
  u.sramByte a = BitVec.ofNat 8 f.length ∧ u.sramByte (a + 1) = BitVec.ofNat 8 (f.length / 256) ∧
  u.sramByte (a + 2) = BitVec.ofNat 8 p ∧ (∀ j < f.length, u.sramByte (a + 16 + j) = f.getD j 0#8) ∧
  u.dev.rd 0 VCM_RXTAIL.IDX = (if d.rd 0 VCM_RX.NSLOT ≤ i + 1 then 0 else i + 1) ∧
  u.dev.vcm.rxUsed = d.vcm.rxUsed + 1

/-- A tamper code is recorded once more (R265): its count, which saturates, its times and detail, its bit in the running
interval, its event, and the count in the TMP page. -/
def Dev.noted (d e : Dev) (c detail : Nat) : Prop :=
  let x := d.tmp c
  let y := e.tmp c
  y.count = min (x.count + 1) 0xFFFFFFFF ∧ y.sat = decide (y.count = 0xFFFFFFFF) ∧ y.last = d.rtcNow ∧ y.detail = detail ∧
  y.first = (if x.count = 0 then d.rtcNow else x.first) ∧ e.lgl.tot.ivTamper = Nat.lor d.lgl.tot.ivTamper (2 ^ (c - 1)) ∧
  e.rd 0 (TMP_COUNT.COUNT c) = y.count ∧ d.pended e 0 (tmpEv c)

/-- The mailbox holds a request for an operation that the island executes (R254, R261): READY, BUSY, well formed, not
halted, no power-fail warning. -/
def Dev.asks (d : Dev) (op : Nat) : Prop :=
  d.lglUp = true ∧ d.rd 0 LGL_MBSTAT.STATE = 1 ∧ leAt d.mbReq 0 1 = op ∧ leAt d.mbReq 22 2 = 0 ∧ d.lgl.halted = false ∧
  d.lglPfail = false

/-- The request in the mailbox: REQLEN bytes, data from byte 24 on (Table LGL-3). -/
def Dev.request0 (d : Dev) : MbReq :=
  let bs := d.mbReq.take (d.rd 0 LGL_MBCMD.REQLEN)
  { bytes := bs, data := bs.drop 24 }

/-- The request is answered: DONE with a status, MB_DONE raised (R261). -/
def Dev.answered (d e : Dev) (status : Nat) : Prop :=
  e.rd 0 LGL_MBSTAT.STATE = 2 ∧ e.rd 0 LGL_MBSTAT.STATUS = status ∧ d.pended e 0 Ev.LGL.MB_DONE

/-- An output pair has gone to FAULT with a code: off, its points under trip (R294, R304, R306). -/
def Dev.pairFaulted (d e : Dev) (q code : Nat) : Prop :=
  e.rd 0 (SAF_PAIRST.STATE q) = 2 ∧ e.rd 0 (SAF_PAIRST.FCODE q) = code ∧ e.pairOn q = false ∧
  d.pended e 0 Ev.SAF.PAIR_FAULT ∧ (∀ p < 32, d.rd 0 (SAF_PTPAIR.PAIR p) = q → e.tripActs p = true)

/-- A safety-layer connection has gone to FAULT with a cause, its received bits all 0 (R309). -/
def Dev.conFaulted (d e : Dev) (m cause : Nat) : Prop :=
  e.rd 0 (SFC_STAT.STATE m) = 3 ∧ e.rd 0 (SFC_STAT.FCAUSE m) = cause ∧ e.rd 0 (SFC_STAT.READY m) = 0 ∧
  e.rd 0 (SFC_RX.BITS m) = 0 ∧ (e.sfcCon m).base = false ∧ d.pended e 0 Ev.SFC.CON_FAULT ∧
  (∀ k ≠ m, e.sfcCon k = d.sfcCon k)

/-- A connection in SYNC, RUN or FAULT has taken a safety-layer frame of its length (R308, R309): a bad CRC is counted, a
WDX mismatch is a fault, the first good frame sets the base, one outside the window is counted, one inside it is
accepted, in RUN with its bits in force, in SYNC the second after the base enters RUN. -/
def Dev.sfcGot (d e : Dev) (m : Nat) (g : List Byte) : Prop :=
  let st := d.rd 0 (SFC_STAT.STATE m)
  let x := d.sfcCon m
  let seq := leAt g 0 2
  let gap := (seq + 65536 - d.rd 0 (SFC_STAT.LASTSEQ m)) % 65536
  let good := d.sfcCrcOk m g = true ∧ leAt g 2 2 = d.rd 0 (SFC_CON_B.WDX_MS m)
  let took : Prop := e.rd 0 (SFC_STAT.LASTSEQ m) = seq ∧ (e.sfcCon m).base = true ∧ (e.sfcCon m).wdAt = d.now ∧
    (e.sfcCon m).bits = leAt g 6 4
  (d.sfcCrcOk m g = false → e.rd 0 SFC_CRCERR.COUNT = (d.rd 0 SFC_CRCERR.COUNT + 1) % 2 ^ 32 ∧
    d.pended e 0 Ev.SFC.CRC_ERR ∧ e.rd 0 (SFC_STAT.STATE m) = st ∧ (e.sfcCon m).crcAt = (d.now :: x.crcAt).take 3) ∧
  (d.sfcCrcOk m g = true → leAt g 2 2 ≠ d.rd 0 (SFC_CON_B.WDX_MS m) → st ≠ 3 → d.conFaulted e m 3) ∧
  (good → x.base = false → st ≤ 3 → took ∧ (e.sfcCon m).count = 0 ∧ e.rd 0 (SFC_STAT.STATE m) = st) ∧
  (good → x.base = true → gap = 0 ∨ 4 < gap → e.rd 0 SFC_SEQDISC.COUNT = (d.rd 0 SFC_SEQDISC.COUNT + 1) % 2 ^ 32 ∧
    e.rd 0 (SFC_STAT.STATE m) = st ∧ e.sfcCon m = x) ∧
  (good → x.base = true → 1 ≤ gap → gap ≤ 4 → took ∧ (e.sfcCon m).count = x.count + 1 ∧
    (st = 2 → e.rd 0 (SFC_STAT.STATE m) = 2 ∧ e.rd 0 (SFC_RX.BITS m) = leAt g 6 4) ∧
    (st = 1 → 1 ≤ x.count → e.rd 0 (SFC_STAT.STATE m) = 2 ∧ e.rd 0 (SFC_RX.BITS m) = leAt g 6 4 ∧
      d.pended e 0 Ev.SFC.CON_RUN) ∧
    (st = 1 → x.count = 0 → e.rd 0 (SFC_STAT.STATE m) = 1) ∧
    (st = 3 → e.rd 0 (SFC_STAT.STATE m) = 3 ∧ e.rd 0 (SFC_RX.BITS m) = d.rd 0 (SFC_RX.BITS m)))

/-- A crypto operation that may run now: in its slot, issued, of a function, nothing earlier holding it back (R362). -/
def Dev.cryReady (d : Dev) (sram : AMap Byte) (slot : Nat) (o : Op) (func : Nat) : Prop :=
  d.opAt slot = some o ∧ o.kind = OK.CRY_OP ∧ o.phase = .issued ∧ o.func = func ∧ d.cryWaits sram o = false

/-- The crypto functions of Table CRY-1 by their number, as commands. -/
def cryCmds (t : Nat) (slot : Fin 384) : List (Nat × Instr) :=
  [(1, .sign t slot), (2, .verify t slot), (3, .ecdh t slot), (4, .genkey t slot), (5, .load t slot), (6, .unload t slot),
   (7, Instr.import t slot), (8, .mac t slot), (9, .enc t slot), (10, .dec t slot), (11, .digest t slot), (12, .random t slot),
   (16, .slotStore t slot), (17, .slotInvalidate t slot), (18, .lcAdvance t slot), (19, .genAdvance t slot),
   (20, .debugArm t slot), (24, .imgWrite t slot), (25, .imgCommit t slot), (26, .imgConfirm t slot)]

/-- A crypto operation ends with a status and an output: its length, then its data, in the shared buffers at its output
offset (R363); nothing else of the memories changes. -/
def CryEnds (c : Instr) (s : State) (slot : Nat) (o : Op) (status : Nat) (out : Option (List Byte)) (P : Dev → Prop) : Prop :=
  ∃ u, exec c s = .next u ∧ u.pending = s.pending ∧ u.mem.mram = s.mem.mram ∧ u.dev.opEnds slot status ∧ P u.dev ∧
    (out = none → u.mem.sram = s.mem.sram) ∧
    (∀ bs, out = some bs → let all := leBytes 4 bs.length ++ bs; let a := o.arg 20 4
      (∀ j < all.length, u.sramByte (a + j) = all.getD j 0#8) ∧
      (∀ k, k < a ∨ a + all.length ≤ k → u.sramByte k = s.sramByte k))

/-- Cast-on has begun in a class, for a cause (R404, R408, Table RST-2): nothing is booted, every domain shows ON, and the
pages that the class covers are at reset, here those whose registers show nothing that hardware holds and that no
runtime returns later; no price stands (R57). -/
def Dev.castBegun (e : Dev) (c : RstClass) (cause : Nat) : Prop :=
  e.sys.step = 1 ∧ e.sys.cls = c ∧ e.sys.cause = cause ∧ e.sys.replayed = false ∧ e.sys.pend = none ∧
  e.word .sys 0 SYS_STAT.STOP.off = 0#32 ∧ e.rd 0 KEY_LC.DBGEN = 0 ∧ e.rd 0 PWR_ENTRY.PHASE = 0 ∧ e.ope.quiesce = none ∧
  (∀ x, e.domOn x = true) ∧ (c ≠ .wake → e.rd 0 ALC_STAT.PRICE_STALE = 1) ∧
  (∀ t n off, (t = .alc → off ≠ ALC_STAT.PRICE_STALE.off) → n < t.count → off < 4096 → legalTag t = false →
    ([.sys, .evt, .key, .hif, .clk, .frc, .pwr] : List Tag).contains t = false →
    (c = .por ∨ c = .cpor ∨ ((c = .sys ∨ c = .thermal ∨ c = .retfail) ∧ domOf t n ≠ .aon ∧ domOf t n ≠ .safe)) →
    e.word t n off = resetWord (pageIx t n * 4096 + off))

/-- The RESET record of a quiesce window (R325): written at the head, with the next SEQ, the cause, and whether the
window was cut short. -/
def Dev.resetNoted (d e : Dev) (cause : Nat) (forced : Bool) : Prop :=
  let body := [BitVec.ofNat 8 cause, if forced then 1#8 else 0#8]
  e.jrec (d.rd 0 JNL_HEAD.IDX) = some { kind := 6, seq := d.jnlSeq + 1, time := d.now, body := body } ∧
  e.sys.qforced = forced

/-- A SYS reset has been requested for a cause (R325, R409, R410): in power-on reset nothing; in a quiesce window, or behind
a request that waits, it is merged; behind a power entry or wake, or with CORE not ON, it waits; before release cast-on
starts again at once; after it the quiesce window opens, every strand stopping, and where no pair of an energised point
is closed it is over at once. -/
def Dev.resetAsked (d e : Dev) (cause : Nat) : Prop :=
  let idle := d.sys.held = false ∧ d.ope.quiesce = none ∧ d.sys.pend = none
  let runs := idle ∧ d.rd 0 PWR_ENTRY.PHASE = 0 ∧ d.domOn .core = true
  let closed (q : Nat) : Prop := (d.pairPts q).any d.energised = true ∧ d.pairOn q = true
  (d.sys.held = true → e = d) ∧
  (d.sys.held = false → d.ope.quiesce.isSome = true ∨ d.sys.pend.isSome = true → e.sys = { d.sys with merged := true } ∧
    e.ope.quiesce = d.ope.quiesce) ∧
  (idle → d.rd 0 PWR_ENTRY.PHASE ≠ 0 ∨ d.domOn .core = false → e.sys = { d.sys with pend := some cause } ∧
    e.ope.quiesce = none) ∧
  (idle → d.rd 0 PWR_ENTRY.PHASE = 0 → d.domOn .core = false → d.die.shutAt = none → e.rd 0 PWR_ENTRY.PHASE = 2) ∧
  (runs → d.on 0 SYS_STAT.RELEASED = false → e.castBegun .sys cause) ∧
  (runs → d.on 0 SYS_STAT.RELEASED = true → (∀ q < 8, ¬closed q) → e.castBegun .sys cause ∧ d.resetNoted e cause false) ∧
  (runs → d.on 0 SYS_STAT.RELEASED = true → (∃ q < 8, closed q) → e.ope.quiesce = some d.now ∧
    e.sys = { d.sys with cause := cause, merged := false } ∧ (∀ n < 48, (e.strand n).stopped = true) ∧
    d.pended e 0 Ev.OPE.QUIESCE)

/-- A wake source has acted (R395 to R397): recorded with its time; pending against an entry, joined to a wake under way,
or starting one of the domains it names or maps and those they require. In a die shutdown it is ignored (R178). -/
def Dev.woke (d e : Dev) (src ports : Nat) (doms : List Nat) : Prop :=
  let ds := (List.range 18).filter fun i => doms.contains i || d.bit 0 (PWR_WAKEMAP.DOMS src) i
  let low (l : List Nat) : List Nat := l.filter fun i => !d.domOn (domAt i)
  (d.die.shutAt.isSome = true → e = d) ∧
  (d.die.shutAt = none → e.bit 0 AON_WAKECAUSE.SRC src = true ∧
    e.rd 0 AON_WAKECAUSE.PORTS = Nat.lor (d.rd 0 AON_WAKECAUSE.PORTS) ports ∧
    e.rd64 0 AON_WAKETIME_LO.TICKS AON_WAKETIME_HI.TICKS = d.now % 2 ^ 64 ∧ d.pended e 0 Ev.AON.WAKE ∧
    (d.rd 0 PWR_ENTRY.PHASE = 1 → e.pwr = { d.pwr with pend := Nat.lor d.pwr.pend (2 ^ src), pendAt := d.now, up := d.pwr.up ++ ds } ∧
      e.rd 0 PWR_ENTRY.PHASE = 1) ∧
    (d.rd 0 PWR_ENTRY.PHASE = 2 → e.pwr = { d.pwr with up := low (withNeeds (d.pwr.up ++ ds)) }) ∧
    (d.rd 0 PWR_ENTRY.PHASE = 0 → low (withNeeds ds) ≠ [] → e.rd 0 PWR_ENTRY.PHASE = 2 ∧
      e.pwr = { d.pwr with up := low (withNeeds ds), lower := [], pend := 0 } ∧
      e.rd 0 PWR_WAKECNT.COUNT = (d.rd 0 PWR_WAKECNT.COUNT + 1) % 2 ^ 32))

/-- A command by which a Ply frame arrives intact. -/
def plyRx (t : Nat) (l : Fin 2) (q : Nat) (f : PlyFrame) (i : Instr) : Prop :=
  match f with
  | .hello a b c d e g => i = .helloRx t l q a b c d e g
  | .heartbeat .. => i = .plyFrameRx t l true q f
  | .time a b c d e => i = .timeRx t l q a b c d e
  | .snap a x => i = .snapRx t l q a x
  | .alloc a x r => i = .allocRx t l q a x r
  | .mirror m => i = .mirrorRx t l q m
  | .publish a b c d e => i = .publishRx t l q a b c d e
  | .sknfwd .. => i = .plyFrameRx t l true q f
  | .check r => i = .checkRx t l q r
  | .take a b => i = .takeRx t l q a b
  | .mark a b c d => i = .markRx t l q a b c d
  | .mtrsec ps => i = .mtrsecRx t l q ps
  | .trig a b c d => i = .trigRx t l q a b c d

/-- The block once it has noted an accepted Ply frame (R330): its arrival and its SEQ. -/
def Dev.plyGot (d : Dev) (type seq : Nat) : Dev :=
  { d with ply := { d.ply with rxAt := some d.now, last := d.ply.last.set (fun _ => 0) type (seq % 2 ^ 32 + 1) } }

/-- An intact Ply frame of a TYPE is the first copy, and no Ply loss stands (R330). -/
def Dev.plyFresh (d : Dev) (type seq : Nat) : Prop :=
  d.plyUp = true ∧ d.ply.lost = false ∧ plyNewer (d.ply.last.get (fun _ => 0) type) seq = true

/-- Such a frame, with the pair standing. -/
def Dev.plyHears (d : Dev) (type seq : Nat) : Prop := d.plyFresh type seq ∧ d.on 0 PLY_STAT.PAIRED = true

/-- A Ply frame, and nothing else, has been sent on both links with the next SEQ of its TYPE (R330). -/
def Dev.plySent (d e : Dev) (f : PlyFrame) : Prop :=
  let k := d.ply.txSeq.get (fun _ => 0) (plyType f)
  e.sent = .ply k f :: d.sent ∧ e.ply.txSeq.get (fun _ => 0) (plyType f) = (k + 1) % 2 ^ 32 ∧ e.regs = d.regs

/-- The unit has taken over, cause 1 SILENT or 2 SELFCHK (R344). -/
def Dev.tookOver (d e : Dev) (cause : Nat) : Prop :=
  e.plySt = 4 ∧ e.rd 0 PLY_LASTSW.CAUSE = cause ∧ e.rd 0 PLY_SWITCHES.COUNT = (d.rd 0 PLY_SWITCHES.COUNT + 1) % 2 ^ 32 ∧
  e.ply.swAt = some d.now ∧ e.ply.mirRow = none ∧ d.pended e 0 Ev.PLY.TAKEOVER ∧ .ply (d.ply.txSeq.get (fun _ => 0) 0x24) (.take d.now cause) ∈ e.sent

/-- A self-check that concerns both units is settled by the own result and the partner's, none standing for no result
within 3 ms (Table PLY-4). -/
def Dev.chkSettled (d e : Dev) (own : Bool) (peer : Option Bool) : Prop :=
  let agree := own = true ∧ peer = some true
  e.ply.chkAt = none ∧ e.ply.chkOwn = none ∧
  (agree → e.rd 0 PLY_STAT.MISMATCH = 1 ∧ e.plySt = d.plySt ∧ d.pended e 0 Ev.PLY.MISMATCH) ∧
  (own = true → ¬agree → d.plyActive = true → e.plySt = d.plySt ∧ e.ply.chkPeer = some false ∧ d.pended e 0 Ev.PLY.STANDBY_FAIL) ∧
  (own = true → ¬agree → d.plyActive = false → d.rd 0 PLY_CFG.MODE = 2 → d.domOn .ply = true → d.tookOver e 2) ∧
  (own = false → e.plySt = d.plySt ∧ e.rd 0 PLY_STAT.MISMATCH = d.rd 0 PLY_STAT.MISMATCH)

end Sys2Proof.Machine
end

