-- ==== Sys2Proof/Certificates/Slice0/Obligations.lean ====
section
/-!
DEFINITION. The statements for the provers, from the numbered rules of spec/. Each says what a command, a family of
commands or the block as a whole does. `d` is the block as the command finds it: time advanced to the command's count
(`Dev.at`), and for a host write the function in D0 (`Dev.arrive`).
-/

open Sys2Proof Sys2Proof.Machine

/-! ### The block as a whole -/

/-- One step takes the command at the front of the queue and is that command's effect with the rest of the queue; on an
empty queue the block idles (log entry 1, DESIGN CHOICE). -/
def Obligations.StepRunsTheFrontCommand : Prop :=
  (∀ (c : Instr) (rest : List Instr) (s : State),
    step { s with pending := c :: rest } = exec c { s with pending := rest }) ∧
  ∀ s : State, s.pending = [] → step s = .next s

/-- Every command completes in every state with every operand: no command ends in a fault or a refusal. None touches the
queue of waiting commands, and the MRAM changes by NVM_WRITE alone. -/
def Obligations.EveryCommandCompletes : Prop :=
  ∀ (c : Instr) (s : State), ∃ u : State, exec c s = .next u ∧ u.pending = s.pending ∧
    ((∀ t slot, c ≠ .nvmWrite t slot) → u.mem.mram = s.mem.mram)

/-- Every step from a state whose memories hold their canonical form ends in such a state. -/
def Obligations.EveryStepKeepsMemoriesCanonical : Prop :=
  ∀ s u : State, s.mem.wf = true → step s = .next u → u.mem.wf = true

/-- The frame over the shared buffers: a command outside `writesSram` leaves every byte of them unchanged. -/
def Obligations.SharedBuffersChangeOnlyByNamedCommands : Prop :=
  ∀ (c : Instr) (s u : State) (a : Nat), writesSram c = false → exec c s = .next u → u.sramByte a = s.sramByte a

/-- After reset nothing waits, both memories list nothing and hold their canonical form, every register reads its reset
word, the timebase stands at 0, cast-on is about to begin (BOOTED and CONFIGURED are 0), every domain shows ON, no point
is energised, and the journal is empty with its head and tail at index 64. Which reset words the spec gives is in the
field tables; the words it leaves open (OTP, HW: log entry 3) are DESIGN CHOICE and no clause rests on one. -/
def Obligations.ResetIsTheStateOfTheFieldTables : Prop :=
  State.reset.pending = [] ∧ State.reset.mem.wf = true ∧ (∀ a, State.reset.sramByte a = 0#8 ∧ State.reset.mramByte a = 0#8) ∧
  (∀ a, State.reset.dev.regs.get resetWord a = resetWord a) ∧ State.reset.dev.now = 0 ∧
  (∀ t n, n < t.count → State.reset.dev.rd n (PID.TAG t) = t.code ∧ State.reset.dev.rd n (PID.INST t) = n ∧
    State.reset.dev.rd n (SEQ.SEQ t) = 0 ∧ State.reset.dev.en t n = false ∧ State.reset.dev.locked t n = false) ∧
  State.reset.dev.rd 0 SYS_STAT.BOOTED = 0 ∧ State.reset.dev.rd 0 SYS_STAT.CONFIGURED = 0 ∧
  (∀ x : Dom, State.reset.dev.domOn x = true) ∧ (∀ q < 32, State.reset.dev.ptState q = 0) ∧
  State.reset.dev.rd 0 JNL_HEAD.IDX = 64 ∧ State.reset.dev.rd 0 JNL_TAIL.IDX = 64 ∧
  (∀ v < 64, State.reset.dev.msixMasked v = true)

/-! ### Host interface: pages, rings, messages, the management port, the link -/

/-- Ring indices move forward only (R45, R200): a write of HIF_CQ_HEAD, HIF_EQ_HEAD or VCM_RXHEAD that passes the checks
every register has moves the index forward in ring order, by no more than the entries written and not yet consumed (by
none at all included), and consumes the entries passed; any other is rejected with RANGE and consumes nothing.
The rings' device side (R35, R38, R40, R41): with a marker owed, space in the event ring, EQ_EN 1 and the host in reach
(link up, bus mastering on), one overflow marker is written (PAGE 0xFFFF, BIT 0, COUNT the entries lost, TIME of the
first) and nothing is owed any more; a held completion is written at HIF_CQ_TAIL when the host is in reach, the ring
enabled and a slot free, and stays held otherwise; vector 0 follows a pause of 10 µs after entries not yet signalled;
unmasking a vector clears its mask bit, and its pending bit when the function mask is off, MSI-X is on and the host is in
reach. -/
def Obligations.RingsMoveForwardAndSignal : Prop :=
  (∀ (t : Nat) (p : Port) (v : Word) (s : State), let d := Dev.arrive t p s.dev;
    (d.reached p .hif 0 0x58 → d.passes .hif 0 0x58 v = true →
      let k := (v.toNat + 1024 - d.rd 0 HIF_CQ_HEAD.IDX) % 1024;
      (k ≤ d.host.cq.length → exec (.cqHeadWrite t p v) s = .next { s with dev :=
        ({ (d.wr 0 HIF_CQ_HEAD.IDX v.toNat) with host := { d.host with cq := d.host.cq.drop k } } : Dev).took .hif 0 0x58 }) ∧
      (d.host.cq.length < k → ∃ e, exec (.cqHeadWrite t p v) s = .next { s with dev := e } ∧
        d.rejected e .hif 0 0x58 RC.RANGE)) ∧
    (d.reached p .hif 0 0x60 → d.passes .hif 0 0x60 v = true →
      let k := (v.toNat + 4096 - d.rd 0 HIF_EQ_HEAD.IDX) % 4096;
      (k ≤ d.host.eq.length → exec (.eqHeadWrite t p v) s = .next { s with dev :=
        ({ (d.wr 0 HIF_EQ_HEAD.IDX v.toNat) with host := { d.host with eq := d.host.eq.drop k } } : Dev).took .hif 0 0x60 }) ∧
      (d.host.eq.length < k → ∃ e, exec (.eqHeadWrite t p v) s = .next { s with dev := e } ∧
        d.rejected e .hif 0 0x60 RC.RANGE)) ∧
    (d.reached p .vcm 0 0x4CC → d.passes .vcm 0 0x4CC v = true →
      let n := d.rd 0 VCM_RX.NSLOT
      let k := (v.toNat + n - d.rd 0 VCM_RXHEAD.IDX) % n;
      (v.toNat < n → k ≤ d.vcm.rxUsed → exec (.rxHeadWrite t p v) s = .next { s with dev :=
        ({ (d.wr 0 VCM_RXHEAD.IDX v.toNat) with vcm := { d.vcm with rxUsed := d.vcm.rxUsed - k } } : Dev).took .vcm 0 0x4CC }) ∧
      (n ≤ v.toNat ∨ d.vcm.rxUsed < k → ∃ e, exec (.rxHeadWrite t p v) s = .next { s with dev := e } ∧
        d.rejected e .vcm 0 0x4CC RC.RANGE))) ∧
  (∀ (t : Nat) (vec : Fin 64) (s : State), let d := Dev.at t s.dev;
    (d.host.eqLost ≠ 0 → d.eqFull = false → d.eqOn = true →
      ∃ e, exec (.eventOverflowMarker t) s = .next { s with dev := e } ∧ e.host.eqLost = 0 ∧
        e.host.eq = d.host.eq ++ [(⟨d.rd 0 HIF_EQ_TAIL.IDX, 0xFFFF, 0, d.rd 0 HIF_EQ_TAIL.PHASE, true, false,
          min d.host.eqLost (2 ^ 32 - 1), d.host.eqLostAt⟩ : EvEntry)] ∧
        e.rd 0 HIF_EQ_TAIL.IDX = (d.rd 0 HIF_EQ_TAIL.IDX + 1) % 4096 ∧ Quiet loudPage d e) ∧
    (∀ c cs, d.host.cqHeld = c :: cs → d.cqReady = true → c.hasRec = false → d.ope.used = 0 →
      ∃ e, exec (.completionDeliver t) s = .next { s with dev := e } ∧ e.host.cqHeld = cs ∧
        e.host.cq = d.host.cq ++ [{ c with idx := d.rd 0 HIF_CQ_TAIL.IDX, phase := d.rd 0 HIF_CQ_TAIL.PHASE }] ∧
        e.rd 0 HIF_CQ_TAIL.IDX = (d.rd 0 HIF_CQ_TAIL.IDX + 1) % 1024 ∧ Quiet loudPage d e) ∧
    (d.cqReady = false ∨ d.host.cqHeld = [] → exec (.completionDeliver t) s = .next { s with dev := d }) ∧
    (d.host.cqBatch ≠ 0 → d.host.cqLast + 10 * ticksPerUs ≤ d.now →
      ∃ e, exec (.cqVectorPause t) s = .next { s with dev := e } ∧ e.host.cqBatch = 0 ∧ Quiet loudPage d e ∧
        (d.msixMasked 0 = true → e.msixPend 0 = true) ∧
        (d.msixMasked 0 = false → e.sent = .msix 0 (d.msixWord 0 0) (d.msixWord 0 1) (d.msixWord 0 2) :: d.sent)) ∧
    (d.host.fnMask = false → d.host.msixEn = true → d.hostUp = true →
      ∃ e, exec (.msixUnmask t vec) s = .next { s with dev := e } ∧ e.msixMasked vec = false ∧ e.msixPend vec = false ∧
        (d.msixPend vec = true → e.sent = .msix vec (d.msixWord vec 0) (d.msixWord vec 1) (d.msixWord vec 2) :: d.sent) ∧
        (d.msixPend vec = false → e.sent = d.sent)))

/-- The SPEC window is read-only (R53): every write to 0xC00 to 0xFFF of the ALC page or an STR page is rejected with
SPEC, and changes nothing but ERRINFO. -/
def Obligations.SpecWindowWritesAreRejected : Prop :=
  ∀ (t : Nat) (p : Port) (b : Tag) (n off : Nat) (v : Word) (s : State), let d := Dev.arrive t p s.dev;
    (b = .alc ∨ b = .str) → 0xC00 ≤ off → off < 0x1000 → d.reached p b n off →
    ∃ e, exec (.regWrite t p (regAddr b n off) v) s = .next { s with dev := e } ∧ d.rejected e b n off RC.SPEC

/-- Registers whose fields are all read-only (R12, R13): a write of such a register is rejected with RO_FIELD whatever
it holds, and changes nothing but ERRINFO, on every page that has no write of its own there (HIF_ABORT_INFO is cleared
by any write).
A write of a register with no step of its own (R12, R48, R52) that passes the checks every register has sets its RW
fields as written and clears the W1C bits written 1, leaves its other fields, and counts in SEQ where the register holds
an RW field. -/
def Obligations.RegisterWritesTakeTheirFieldsOrNothing : Prop :=
  (∀ (t : Nat) (p : Port) (b : Tag) (n off : Nat) (v : Word) (r : RegFam) (s : State), let d := Dev.arrive t p s.dev;
    off < 4096 → slotAt b n off = .reg r → r.readOnly = true → ¬(b = .hif ∧ off = 0x74) → d.roleBad b off = false →
    d.reached p b n off →
    ∃ e, exec (.regWrite t p (regAddr b n off) v) s = .next { s with dev := e } ∧ d.rejected e b n off RC.RO_FIELD) ∧
  (∀ (t : Nat) (p : Port) (b : Tag) (n off : Nat) (v : Word) (r : RegFam) (s : State), let d := Dev.arrive t p s.dev;
    off < 4096 → slotAt b n off = .reg r → (∀ w, d.regSpecial s.mem.sram p b n off v w = none) →
    ¬(b = .hif ∧ off = 0x74) → d.passes b n off v = true → d.reached p b n off →
    exec (.regWrite t p (regAddr b n off) v) s = .next { s with dev := (d.setWord b n off
      (r.blend (d.word b n off) v (· = .rw) &&& ~~~(v &&& BitVec.ofNat 32 (r.mask (· = .w1c))))).took b n off })

/-- Header writes that no lock refuses (R46, R47): any write of ERRINFO clears it; a write of EVT_PEND clears the bits
written 1 and no other; EVT_SET sets the bits written 1 in EVT_PEND and leaves EVT_RAW and every other register of a
block alone. A reserved event bit written 1 is rejected with RSV_BIT. -/
def Obligations.HeaderWritesNoLockRefuses : Prop :=
  ∀ (t : Nat) (p : Port) (b : Tag) (n : Nat) (v : Word) (s : State), let d := Dev.arrive t p s.dev;
    (d.reached p b n 0x028 →
      exec (.errinfoClear t p b n v) s = .next { s with dev := d.setWord b n 0x028 0#32 }) ∧
    (d.reached p b n 0x018 → bitsOutside (evtBits b n) v = false →
      ∃ e, exec (.evtPendClear t p b n v) s = .next { s with dev := e } ∧
        (∀ i < 32, e.bit n (EVT_PEND.PEND b) i = (d.bit n (EVT_PEND.PEND b) i && !v.getLsbD i)) ∧
        SameRegs (fun a => a = pageIx b n * 4096 + 0x18) d e ∧ e.sent = d.sent ∧ Quiet loud d e) ∧
    (d.reached p b n 0x01C → bitsOutside (evtBits b n) v = false →
      ∃ e, exec (.evtSetInject t p b n v) s = .next { s with dev := e } ∧
        (∀ i < 32, e.bit n (EVT_PEND.PEND b) i = (d.bit n (EVT_PEND.PEND b) i || v.getLsbD i)) ∧
        SameRegs (fun a => a = pageIx b n * 4096 + 0x18 || a / 4096 = 4 || a / 4096 = 0xFF) d e ∧ Quiet loud d e) ∧
    (bitsOutside (evtBits b n) v = true →
      (d.reached p b n 0x018 → ∃ e, exec (.evtPendClear t p b n v) s = .next { s with dev := e } ∧
        d.rejected e b n 0x018 RC.RSV_BIT) ∧
      (d.reached p b n 0x01C → ∃ e, exec (.evtSetInject t p b n v) s = .next { s with dev := e } ∧
        d.rejected e b n 0x01C RC.RSV_BIT))

/-- The page lock and the block soft reset (R48, R419). On an unlocked page a write of PCTRL with SRST 0 and no reserved
bit sets EN and LOCK as written and counts in SEQ (a strand whose EN it changes starts or stops besides: shown where EN
stays; a Skein port that is disabled loses its link, R146); with SRST 1 it is the soft reset alone, after which LOCK and EN read 0 and SEQ, returned to 0, has counted once;
every other word of the page is back at its reset value and no other page has changed (HIF and CLK show again what
hardware holds, STR shows the loads of other pages anew, LSW drives its gate, and a channel's hardware trip stands). It is refused with ROLE on the pages of
R419's list and with ENERGISED while a point the block serves is energised. A locked page refuses PCTRL, EVT_EN and STAGE
with LOCKED. -/
def Obligations.PageLockAndSoftReset : Prop :=
  ∀ (t : Nat) (p : Port) (b : Tag) (n : Nat) (v : Word) (s : State), let d := Dev.arrive t p s.dev;
    (d.reached p b n 0x008 → d.locked b n = false → bitsOutside 7 v = false →
      (v.getLsbD 1 = false → b = .skn → v.getLsbD 0 = false →
        ∃ e, exec (.pageLock t p b n v) s = .next { s with dev := e } ∧ e.en b n = false ∧ e.locked b n = v.getLsbD 2 ∧
          e.rd n (SEQ.SEQ b) = (d.rd n (SEQ.SEQ b) + 1) % 2 ^ 32 ∧ e.rd n SKN_LINK.UP = 0 ∧ e.rd n SKN_LINK.SYNCD = 0) ∧
      (v.getLsbD 1 = false → (b ≠ .str ∨ v.getLsbD 0 = d.en b n) → (b = .skn → v.getLsbD 0 = true) →
        ∃ e, exec (.pageLock t p b n v) s = .next { s with dev := e } ∧ e.en b n = v.getLsbD 0 ∧ e.locked b n = v.getLsbD 2 ∧
          e.rd n (SEQ.SEQ b) = (d.rd n (SEQ.SEQ b) + 1) % 2 ^ 32 ∧
          SameRegs (fun a => a = pageIx b n * 4096 + 8 || a = pageIx b n * 4096 + 0x2C) d e ∧ RegsOnly d e) ∧
      (v.getLsbD 1 = true → noSrst b = false → (d.serves b n).any d.energised = false →
        ∃ e, exec (.blockSoftReset t p b n v) s = .next { s with dev := e } ∧ e.en b n = false ∧ e.locked b n = false ∧
          e.rd n (SEQ.SEQ b) = 1 ∧
          (b ≠ .hif → b ≠ .clk → b ≠ .str → b ≠ .lsw → (b = .thm → (d.thmRec n).trip = 0) →
            (∀ off < 4096, off ≠ 0x2C → e.word b n off = resetWord (pageIx b n * 4096 + off)) ∧
            SameRegs (fun a => a / 4096 = pageIx b n) d e)) ∧
      (v.getLsbD 1 = true → noSrst b = true →
        ∃ e, exec (.blockSoftReset t p b n v) s = .next { s with dev := e } ∧ d.rejected e b n 0x008 RC.ROLE) ∧
      (v.getLsbD 1 = true → noSrst b = false → (d.serves b n).any d.energised = true →
        ∃ e, exec (.blockSoftReset t p b n v) s = .next { s with dev := e } ∧ d.rejected e b n 0x008 RC.ENERGISED)) ∧
    (d.locked b n = true → (d.reached p b n 0x008 → noSrst b = false →
        ∃ e, exec (.pageLock t p b n v) s = .next { s with dev := e } ∧ d.rejected e b n 0x008 RC.LOCKED) ∧
      (d.reached p b n 0x014 → ∃ e, exec (.regWrite t p (regAddr b n 0x014) v) s = .next { s with dev := e } ∧
        d.rejected e b n 0x014 RC.LOCKED) ∧
      (d.reached p b n 0x020 → (d.standby = true → plyOwn b = true) →
        ∃ e, exec (.stageCommitRequest t p b n v) s = .next { s with dev := e } ∧ d.rejected e b n 0x020 RC.LOCKED))

/-- Staged areas (R49, R50): a write to a staged copy that its checks admit sets the staged word, makes STATE 1 and
leaves the active register; the register itself refuses writes with STAGED_ONLY. A write of 0x5713 to STAGE makes STATE 2
(in STATE 0 nothing changes); another key is refused with BAD_KEY; while STATE is 2 the key and the staged copies are
refused with STAGE_BUSY.
A commit is all or nothing (R50, R438): at its boundary, if a check of the page fails, STATE becomes 3, REASON holds
the first of the failing codes in the order of R438, and nothing else changes; if none fails, STATE returns to 0, COMMITS
counts modulo 65,536 and every staged word of the page is active (shown for the pages whose commit starts nothing
further). Without a pending commit, before its boundary, or while the page's domain is not ON, nothing happens. -/
def Obligations.StagedAreasCommitAllOrNothing : Prop :=
  (∀ (t : Nat) (p : Port) (b : Tag) (n off : Nat) (v : Word) (r : RegFam) (s : State), let d := Dev.arrive t p s.dev;
    d.locked b n = false → (d.standby = true → plyOwn b = true) →
    (slotAt b n off = .staged r → off < 4096 → d.reached p b n off → (b = .trf → d.rd 0 LGL_STAT.ROLE = 2) →
      bitsOutside (r.mask fun _ => true) v = false → (b ≠ .cbl → r.rangeBad v = false) →
      (d.rd n (STAGE_STAT.STATE b) ≠ 2 →
        ∃ e, exec (.regWrite t p (regAddr b n off) v) s = .next { s with dev := e } ∧ e.word b n off = v ∧
          e.rd n (STAGE_STAT.STATE b) = 1 ∧ e.rd n (SEQ.SEQ b) = (d.rd n (SEQ.SEQ b) + 1) % 2 ^ 32 ∧
          (∀ x < 0x800, x ≠ 0x24 → x ≠ 0x2C → e.word b n x = d.word b n x) ∧ RegsOnly d e) ∧
      (d.rd n (STAGE_STAT.STATE b) = 2 →
        ∃ e, exec (.regWrite t p (regAddr b n off) v) s = .next { s with dev := e } ∧ d.rejected e b n off RC.STAGE_BUSY)) ∧
    (d.reached p b n 0x020 → bitsOutside 0xFFFF v = false →
      (v.toNat = 0x5713 → d.rd n (STAGE_STAT.STATE b) ≠ 2 →
        exec (.stageCommitRequest t p b n v) s =
          .next { s with dev := (if d.rd n (STAGE_STAT.STATE b) = 0 then d else
            { d.wr n (STAGE_STAT.STATE b) 2 with stageAt := d.stageAt.set (fun _ => 0) (pageIx b n) d.now }) }) ∧
      (v.toNat = 0x5713 → d.rd n (STAGE_STAT.STATE b) = 2 →
        ∃ e, exec (.stageCommitRequest t p b n v) s = .next { s with dev := e } ∧ d.rejected e b n 0x020 RC.STAGE_BUSY) ∧
      (v.toNat ≠ 0x5713 →
        ∃ e, exec (.stageCommitRequest t p b n v) s = .next { s with dev := e } ∧ d.rejected e b n 0x020 RC.BAD_KEY))) ∧
  (∀ (t : Nat) (b : Tag) (n : Nat) (s : State), let d := Dev.at t s.dev;
    (n < b.count → d.rd n (STAGE_STAT.STATE b) = 2 → d.pageUp b n = true → d.commitDue b n = true →
      (∀ c, firstReason (commitReasons b n d (d.stagedActive b n)) = some c → c < 256 →
        ∃ e, exec (.stageCommitApply t b n) s = .next { s with dev := e } ∧ e.rd n (STAGE_STAT.STATE b) = 3 ∧
          e.rd n (STAGE_STAT.REASON b) = c ∧ e.rd n (STAGE_STAT.COMMITS b) = d.rd n (STAGE_STAT.COMMITS b) ∧
          SameRegs (fun a => a = pageIx b n * 4096 + 0x24) d e ∧ RegsOnly d e) ∧
      (firstReason (commitReasons b n d (d.stagedActive b n)) = none → (b = .aux ∨ b = .vcm ∨ b = .ctm ∨ b = .lsw ∨ b = .ope ∨ b = .hif ∨ b = .dtm) →
        ∃ e, exec (.stageCommitApply t b n) s = .next { s with dev := e } ∧ e.rd n (STAGE_STAT.STATE b) = 0 ∧
          e.rd n (STAGE_STAT.COMMITS b) = (d.rd n (STAGE_STAT.COMMITS b) + 1) % 65536 ∧
          (∀ off ∈ stagedOffsets b, e.word b n off = d.word b n (0x800 + off)))) ∧
    (n < b.count → d.rd n (STAGE_STAT.STATE b) ≠ 2 ∨ d.pageUp b n = false ∨ d.commitDue b n = false →
      exec (.stageCommitApply t b n) s = .next { s with dev := d }))

/-- Access faults (R37, Table HIF-2): an access that is not an aligned 32-bit one of BAR0, an address with no page or a
reserved one of BAR2, a write to the capture window, or an access to a page whose domain is not ON (PID and PVER may be
read) records its address and reason in HIF_ABORT_ADDR and HIF_ABORT_INFO and signals vector 2; no block's register
changes. (What HIF_ABORT_ADDR shows of an address of BAR2 is the model's choice: log entry 311.) A fault-free access
changes nothing by this command, and a read over the endpoint returns what stands there (R36).
ABORT_INFO_CLEAR (Table HIF-5): any write of HIF_ABORT_INFO clears it and HIF_ABORT_ADDR. Only the endpoint may write
the HIF page: the management port is refused with ROLE, and that is itself recorded there (R42). -/
def Obligations.AccessFaultsAreRecordedAndCleared : Prop :=
  (∀ (t : Nat) (p : Port) (w : Bool) (a : HostAddr) (size : Nat) (s : State), let d := Dev.at t s.dev;
    (∀ c, d.accessFault p w a size = some c →
      ∃ e, exec (.hifAccessFault t p w a size) s = .next { s with dev := e } ∧
        e.rd 0 HIF_ABORT_ADDR.ADDR = hostAddrNum a % 2 ^ 32 ∧ e.rd 0 HIF_ABORT_INFO.REASON = c ∧
        e.rd 0 HIF_ABORT_INFO.COUNT = min (d.rd 0 HIF_ABORT_INFO.COUNT + 1) 255 ∧ Quiet loudPage d e) ∧
    (d.accessFault p w a size = none → w = true ∨ p = .mgmt →
      exec (.hifAccessFault t p w a size) s = .next { s with dev := d }) ∧
    (d.accessFault p w a size = none → w = false → p = .pcie → exec (.hifAccessFault t p w a size) s =
      .next { s with dev := { d with sent := .readCpl (({ s with dev := d } : State).readHost a size) :: d.sent } }) ∧
    (∀ x bs, d.accessFault p w (.bar2Bytes x bs) size = d.accessFault p w (.bar2 x) size) ∧
    (∀ x, d.accessFault p w (.bar0 x) size = some RC.UNALIGNED ↔ size ≠ 4 ∨ x % 4 ≠ 0) ∧
    (∀ x, x % 4 = 0 → inMsix x = false → pageOf (x / 4096) = none → d.accessFault p w (.bar0 x) 4 = some RC.NOPAGE) ∧
    (∀ x b n, x % 4 = 0 → inMsix x = false → pageOf (x / 4096) = some (b, n) → (p = .mgmt → w = true → mgmtMay b (x % 4096) = true) →
      ¬(b = .hif ∧ x % 4096 = 0x6C) →
      (d.accessFault p w (.bar0 x) 4 = some RC.DOMAIN ↔ d.pageUp b n = false ∧ ¬(w = false ∧ x % 4096 ≤ 4))) ∧
    (∀ x, 0x1000000 ≤ x → x < 0x2000000 → d.accessFault .pcie true (.bar2 x) size = some RC.RO_FIELD) ∧
    (∀ x, 0x400000 ≤ x → (x < 0x1000000 ∨ 0x2000000 ≤ x) → d.accessFault .pcie w (.bar2 x) size = some RC.NOPAGE)) ∧
  (∀ (t : Nat) (p : Port) (v : Word) (s : State), let d := Dev.arrive t p s.dev;
    (d.reached p .hif 0 0x74 → exec (.abortInfoClear t p v) s =
      .next { s with dev := (d.setWord .hif 0 0x70 0#32).setWord .hif 0 0x74 0#32 }) ∧
    (p = .mgmt → ∃ e, exec (.abortInfoClear t p v) s = .next { s with dev := e } ∧
      e.rd 0 HIF_ABORT_INFO.REASON = RC.ROLE ∧ e.rd 0 HIF_ABORT_ADDR.ADDR = 0x4074 ∧ Quiet loudPage d e))

/-- The management port (R42): to the address HIF_MGMT.ADDR holds, command 0x01 sets the address pointer; 0x02 answers
with the register at the pointer and adds 4; 0x03 writes the register at the pointer and adds 4, except that a write with
a bad PEC while PEC_EN is 1 is discarded. To another address, and without a clock (CORE not ON, or the die held in reset),
the port does nothing; a transaction abandoned on a low SCL has done nothing. -/
def Obligations.ManagementPortTransactions : Prop :=
  ∀ (t : Nat) (dst : Fin 128) (v : Word) (ok : Bool) (us : Nat) (s : State), let d := Dev.at t s.dev
    let ptr := d.host.mgmtPtr; let m : MgmtBus := ⟨t, dst⟩;
    (d.domOn .core = true → d.sys.held = false → (d.mgmtUp dst = true ↔ dst.val = d.rd 0 HIF_MGMT.ADDR)) ∧
    (d.mgmtUp dst = true → (ok = true ∨ d.rd 0 HIF_MGMT.PEC_EN = 0) →
      exec (.mgmtSetPointer m v ok) s = .next { s with dev := { d with host := { d.host with mgmtPtr := v.toNat } } } ∧
      ∃ u, exec (.mgmtWrite m v ok) s = .next u ∧ u.dev.host.mgmtPtr = (ptr + 4) % 2 ^ 32 ∧
        exec (.regWrite t .mgmt (.bar0 ptr) v) s =
          .next { u with dev := { u.dev with host := { u.dev.host with mgmtPtr :=
            (hostWrite .mgmt (.bar0 ptr) v { s with dev := d }).dev.host.mgmtPtr } } }) ∧
    (d.mgmtUp dst = true → ok = false → d.rd 0 HIF_MGMT.PEC_EN = 1 →
      exec (.mgmtSetPointer m v ok) s = .next { s with dev := d } ∧
      exec (.mgmtWrite m v ok) s = .next { s with dev := d }) ∧
    (d.mgmtUp dst = false → exec (.mgmtSetPointer m v ok) s = .next { s with dev := d } ∧
      exec (.mgmtWrite m v ok) s = .next { s with dev := d } ∧ exec (.mgmtRead m) s = .next { s with dev := d }) ∧
    (d.mgmtUp dst = true → d.accessFault .mgmt false (.bar0 ptr) 4 = none → inMsix ptr = false →
      ∀ b n, pageOf (ptr / 4096) = some (b, n) →
      exec (.mgmtRead m) s = .next { s with dev := { d with
        host := { d.host with mgmtPtr := (ptr + 4) % 2 ^ 32 },
        sent := .mgmt (if ptr % 4096 = 0xC then d.pstat b n else d.view b n (ptr % 4096)) (d.on 0 HIF_MGMT.PEC_EN)
          :: d.sent } }) ∧
    (d.mgmtUp dst = true → ∀ c, d.accessFault .mgmt false (.bar0 ptr) 4 = some c →
      ∃ e pec, exec (.mgmtRead m) s = .next { s with dev := e } ∧ e.sent.head? = some (.mgmt 0#32 pec) ∧
        e.rd 0 HIF_ABORT_INFO.REASON = c) ∧
    exec (.mgmtSclTimeout t us) s = .next { s with dev := d }

/-- The link (R35): link-down, hot reset, FLR and D3hot reset the HIF page and the MSI-X table, keep HIF_MGMT, leave every
register of every other block and every other component as they are, keep the completions held, and turn bus mastering
off, so that nothing is written to the host until it is enabled again; FLR and D3hot leave the link up. A write of the
Command register of configuration space sets bus mastering (its place: log entry 313). A trained link shows width and
speed and signals vector 2. -/
def Obligations.LinkResetsTouchTheHostInterfaceAlone : Prop :=
  ∀ (t : Nat) (k : LinkReset) (w sp : Nat) (s : State), let d := Dev.at t s.dev;
    (∃ e, exec (.hifLinkReset t k) s = .next { s with dev := e } ∧
      (∀ a, a / 4096 ≠ 4 → a / 4096 ≠ 0xFE → a / 4096 ≠ 0xFF → e.regs.get resetWord a = d.regs.get resetWord a) ∧
      e.word .hif 0 0x6C = d.word .hif 0 0x6C ∧ (∀ off < 4096, off ≠ 0x40 → off ≠ 0x6C → e.word .hif 0 off = resetWord (0x4000 + off)) ∧
      (∀ v < 64, ∀ i < 4, e.msixWord v i = resetWord (msixAddr v i)) ∧
      e.on 0 HIF_LINK.UP = ((k = .flr || k = .d3hot) && d.on 0 HIF_LINK.UP) ∧ e.host.cqHeld = d.host.cqHeld ∧
      e.host.busMaster = false ∧ e.cqReady = false ∧ e.eqOn = false ∧
      e = { d with regs := e.regs, host := e.host }) ∧
    ((w = 1 ∨ w = 2 ∨ w = 4) → 1 ≤ sp → sp ≤ 3 → d.domOn .hif = true → (d.sys.step = 0 ∨ 4 ≤ d.sys.step) →
      ∃ e, exec (.pcieLinkUp t w sp) s = .next { s with dev := e } ∧ e.rd 0 HIF_LINK.UP = 1 ∧ e.rd 0 HIF_LINK.WIDTH = w ∧
        e.rd 0 HIF_LINK.SPEED = sp ∧ Quiet loudPage d e) ∧
    (∀ v : Word, ∃ e, exec (.regWrite t .pcie (.cfg .command) v) s = .next { s with dev := e } ∧
      e.host.busMaster = v.getLsbD 2 ∧ Quiet loudPage d e)


/-! ### Strands -/

/-- STR_IMAX against the number of phases (R91): a commit that would make STR_IMAX exceed NPH × 300,000 mA is refused; with
the strand at rest the reason is RANGE, which no other check of the commit then precedes (R438). Nothing becomes active. -/
def Obligations.StrandCurrentLimitFollowsItsPhases : Prop :=
  ∀ (t : Nat) (n : Fin 48) (s : State), let d := Dev.at t s.dev; let d' := d.stagedActive .str n;
    d.rd n (STAGE_STAT.STATE .str) = 2 → d.pageUp .str n = true → d.commitDue .str n = true →
    d'.rd n STR_CFG.NPH * 300000 < d'.rd n STR_IMAX.MA →
    Ends (.stageCommitApply t .str n) s fun e => e.rd n (STAGE_STAT.STATE .str) = 3 ∧
      (d.strRunning n = false → e.rd n (STAGE_STAT.REASON .str) = RC.RANGE) ∧
      SameRegs (fun a => a = pageIx .str n * 4096 + 0x24) d e ∧ RegsOnly d e

/-- What stops a strand on a fault: as many samples missed in a row as its MISS_LIMIT, which it took at its last sample start
(R97, R101), an input below STR_VBUSMIN at two samples in
a row (R93), a phase invalid at INV_LIMIT samples in a row (R110), and a restart check that has not passed in TMO_MS
(R120). Each stops it with its own code; short of its condition nothing happens. A write of STR_FAULTCLR with the code of
a stopped strand clears it and its loop states, and starts its restart check where its point is RUNNING; any other is
refused with 0x81 (R99, R120). -/
def Obligations.StrandFaultsStopTheStrand : Prop :=
  ∀ (t : Nat) (n : Fin 48) (ph : Fin 8) (p : Port) (v : Word) (s : State), let d := Dev.at t s.dev; let x := d.strand n;
    (let w := Dev.arrive t p s.dev; let bad := v.toNat % 256 ≠ w.rd n STR_FAULT.CODE ∨ w.strRunning n = true
      let st := w.rd n STR_STAT.STATE;
      w.reached p .str n 0x448 → w.passes .str n 0x448 v = true →
      (bad → Refuses (.strFaultClear t p n v) s w .str n 0x448 0x81) ∧
      (¬bad → Takes (.strFaultClear t p n v) s .str n 0x448 fun e => e.rd n STR_FAULT.CODE = 0 ∧
        e.rd n STR_STAT.STATE = (if st = 5 then 1 else st) ∧ e.rd n STR_STAT.NACT = w.rd n STR_CFG.NPH ∧
        e.rd n STR_MPSTAT.ROT = 0 ∧ (e.strand n).sh = {} ∧ (e.strand n).ph = [] ∧ e.point = w.point ∧
        (w.asg n = 1 → w.ptState (w.asgPt n) = 4 → st = 5 → (e.strand n).restartAt = some w.now) ∧
        (w.asg n ≠ 5 → e.asg n = w.asg n) ∧ (∀ m ≠ n.val, e.strand m = w.strand m))) ∧
    (d.rd n STR_STAT.STATE ≠ 5 → let run := d.strRunning n;
    (0 < x.miss → x.missLim ≤ x.miss → (run = true ∨ x.restartAt ≠ none) →
      Ends (.tlmLoss t n) s fun e => d.faulted e n 0x01) ∧
    (x.miss < x.missLim ∨ x.miss = 0 ∨ (run = false ∧ x.restartAt = none) → Waits (.tlmLoss t n) t s) ∧
    (2 ≤ x.low → run = true → Ends (.vbusLow t n) s fun e => d.faulted e n 0x02) ∧
    (x.low < 2 ∨ run = false → Waits (.vbusLow t n) t s) ∧
    (d.rd n STR_BALCFG.INV_LIMIT ≤ x.inv.get (fun _ => 0) ph → run = true →
      Ends (.phInvalid t n ph) s fun e => d.faulted e n 0x10) ∧
    (x.inv.get (fun _ => 0) ph < d.rd n STR_BALCFG.INV_LIMIT ∨ run = false → Waits (.phInvalid t n ph) t s) ∧
    (∀ a, x.restartAt = some a →
      (a + d.rd n STR_RESTART.TMO_MS * ticksPerMs ≤ d.now →
        Ends (.restartCheckTimeout t n) s fun e => d.faulted e n 0x11) ∧
      (d.now < a + d.rd n STR_RESTART.TMO_MS * ticksPerMs → Waits (.restartCheckTimeout t n) t s)))

/-- Phase balance and restart (R109, R111, R115, R120): fallback ends after FBK_EXIT good samples, with ROT 0; PH_IMBAL
is raised when a phase's trim has stood at its limit for 1,000 samples, once for them; the step lockout ends at its time; a strand that
has passed N good samples of its restart check at a RUNNING point runs again, its share rising from 0, its first update without the loops.
Events and the registers named apart, nothing changes. -/
def Obligations.StrandStateFollowsItsCounts : Prop :=
  ∀ (t : Nat) (n : Fin 48) (ph : Fin 8) (s : State), let d := Dev.at t s.dev; let x := d.strand n
    let mpstat (a : Nat) : Bool := loud a || a = pageIx .str n * 4096 + STR_MPSTAT.FBK.off;
    (d.on n STR_MPSTAT.FBK = true → d.rd n STR_BALCFG.FBK_EXIT ≤ x.good → Ends (.fallbackExit t n) s fun e =>
      e.rd n STR_MPSTAT.FBK = 0 ∧ e.rd n STR_MPSTAT.ROT = 0 ∧ e.rd n STR_MPSTAT.SHED = d.rd n STR_MPSTAT.SHED ∧
      (e.strand n).good = 0 ∧ d.pended e n Ev.STR.ROT_EXIT ∧ Quiet mpstat { d with str := e.str } e) ∧
    (d.on n STR_MPSTAT.FBK = false ∨ x.good < d.rd n STR_BALCFG.FBK_EXIT → Waits (.fallbackExit t n) t s) ∧
    (x.imb.get (fun _ => 0) ph = 1000 → Ends (.phImbal t n ph) s fun e =>
      d.pended e n Ev.STR.PH_IMBAL ∧ (e.strand n).imb.get (fun _ => 0) ph = 1001 ∧
      Quiet loud { d with str := e.str } e ∧ (∀ m ≠ n.val, e.strand m = d.strand m)) ∧
    (x.imb.get (fun _ => 0) ph ≠ 1000 → Waits (.phImbal t n ph) t s) ∧
    (d.on n STR_MPSTAT.LOCKOUT = true → x.lockEnd ≤ d.now →
      Ends (.stepLockoutEnd t n) s fun e => e = d.wr n STR_MPSTAT.LOCKOUT 0) ∧
    (d.on n STR_MPSTAT.LOCKOUT = false ∨ d.now < x.lockEnd → Waits (.stepLockoutEnd t n) t s) ∧
    (x.restartAt ≠ none → d.rd n STR_RESTART.N ≤ x.restartN → d.asg n = 1 → d.ptState (d.asgPt n) = 4 → Ends (.restartCheckPass t n) s fun e =>
      e.rd n STR_STAT.STATE = 3 ∧ (e.strand n).restartAt = none ∧ (e.strand n).stopped = false ∧
      (e.strand n).ffOnly = true ∧ (e.strand n).ramp = 2 ∧ (e.strand n).rampAt = d.now ∧
      (d.rd 0 ALC_HANDCFG.RAMP_MS ≠ 0 → (e.rampOf n d.now).1 = 0) ∧ (∀ m ≠ n.val, e.strand m = d.strand m) ∧ e.pt = d.pt) ∧
    (x.restartAt = none ∨ x.restartN < d.rd n STR_RESTART.N ∨ d.asg n ≠ 1 ∨ d.ptState (d.asgPt n) ≠ 4 →
      Waits (.restartCheckPass t n) t s)

/-- A prepared shed at the end of its hold (R83, R113): it commits, and the highest active phase is shed with its trim at
0, NACT counts one less and HIT, SHEDCNT one more; or, with a reason against it, it is discarded with that reason and no
phase changes. Where it was discarded before, its edges alone still waited and no slot changes; without one nothing
happens. -/
def Obligations.PreparedShedsCommitOrAreDiscarded : Prop :=
  ∀ (t : Nat) (n : Fin 48) (s : State), let d := Dev.at t s.dev; let x := d.strand n;
    (∀ pl, x.expiring = some 0 → x.plan = some pl → 0 < d.rd n STR_STAT.NACT → Ends (.shedHoldExpiry t n) s fun e =>
      (∀ ph < 8, e.bit n STR_MPSTAT.SHED ph = (decide (ph = d.topPhase n) || d.bit n STR_MPSTAT.SHED ph)) ∧
      e.rd n STR_STAT.NACT = d.rd n STR_STAT.NACT - 1 ∧ e.rd n (STR_TRIM.TRIM (d.topPhase n)) = 0 ∧
      e.rd n STR_SPEC_TAG.STATE = 5 ∧ e.rd n STR_SPEC_HIT.COUNT = (d.rd n STR_SPEC_HIT.COUNT + 1) % 2 ^ 32 ∧
      e.rd n STR_SHEDCNT.COUNT = (d.rd n STR_SHEDCNT.COUNT + 1) % 2 ^ 32 ∧ (e.strand n).expiring = none ∧
      (e.strand n).plan = none) ∧
    (∀ r pl, x.expiring = some r → 0 < r → r < 8 → x.plan = some pl → Ends (.shedHoldExpiry t n) s fun e =>
      e.rd n STR_MPSTAT.SHED = d.rd n STR_MPSTAT.SHED ∧ e.rd n STR_STAT.NACT = d.rd n STR_STAT.NACT ∧
      e.rd n STR_SPEC_TAG.STATE = 6 ∧ e.rd n STR_SPEC_TAG.DREASON = r ∧
      e.rd n STR_SPEC_DISC.COUNT = (d.rd n STR_SPEC_DISC.COUNT + 1) % 2 ^ 32 ∧ (e.strand n).expiring = none ∧
      (e.strand n).plan = none) ∧
    (∀ r, x.expiring = some r → x.plan = none → Ends (.shedHoldExpiry t n) s fun e =>
      e.rd n STR_MPSTAT.SHED = d.rd n STR_MPSTAT.SHED ∧ e.rd n STR_STAT.NACT = d.rd n STR_STAT.NACT ∧
      e.rd n STR_SPEC_TAG.STATE = d.rd n STR_SPEC_TAG.STATE ∧ (e.strand n).expiring = none ∧ (e.strand n).plan = none) ∧
    (x.expiring = none → Waits (.shedHoldExpiry t n) t s)

/-! ### Output points and contactors -/

/-- Starting a point (R116, R117, R118): tolerance held for 1 ms in PREBIAS makes it CLOSING with V_pre the vehicle's
voltage and the close of every OUTPUT contactor asked for; the soft-start ramp over, it and its strands are RUNNING;
PREBIAS for longer than TMO_MS makes it HELD with fault 2 and ends its session with POINT_FAULT; condition C of R118 for
SHORT_MS is SHORT_SS. Short of that nothing happens. -/
def Obligations.PointStartSequence : Prop :=
  ∀ (t : Nat) (q : Fin 32) (s : State), let d := Dev.at t s.dev; let x := d.point q;
    (∀ a, x.okAt = some a → d.ptState q = 1 → a + ticksPerMs ≤ d.outerAt q → Ends (.prebiasComplete t q) s fun e =>
      e.ptState q = 2 ∧ (e.point q).vPre = d.vVeh q ∧ (∀ c ∈ d.outEntries q, e.closeAsked c) ∧ e.str = d.str ∧
      e.ses = d.ses ∧ (∀ r ≠ q.val, e.point r = d.point r)) ∧
    (x.okAt = none ∨ d.ptState q ≠ 1 → Waits (.prebiasComplete t q) t s) ∧
    (d.ptState q = 1 → d.ptDue q (d.rd q OUT_PBCFG.TMO_MS) = true → Ends (.prebiasTimeout t q) s fun e =>
      e.ptState q = 9 ∧ (d.rd q OUT_RUNSTAT.FAULT = 0 → e.rd q OUT_RUNSTAT.FAULT = 2) ∧
      (∀ n ∈ d.group q, (e.strand n).stopped = true) ∧ d.sesStopped e q 4) ∧
    (d.ptState q ≠ 1 ∨ d.ptDue q (d.rd q OUT_PBCFG.TMO_MS) = false → Waits (.prebiasTimeout t q) t s) ∧
    (d.ptState q = 3 → x.ssAt + d.rd q OUT_SSCFG.RAMP_MS * ticksPerMs ≤ d.outerAt q → Ends (.softstartDone t q) s fun e =>
      e.ptState q = 4 ∧ (∀ n ∈ d.group q, e.rd n STR_STAT.STATE = 3) ∧ d.pended e q Ev.OUT.SS_DONE ∧
      (∀ n ∈ d.strandsOf q, d.asg n = 1 → d.rd n STR_STAT.STATE = 1 → (e.strand n).restartAt = some d.now) ∧ e.ses = d.ses) ∧
    (d.ptState q ≠ 3 → Waits (.softstartDone t q) t s) ∧
    (∀ a, x.shortAt = some a → d.sampledSoft q = true → a + d.rd q OUT_SSCFG.SHORT_MS * ticksPerMs ≤ d.outerAt q →
      Ends (.shortSs t q) s fun e => d.pointFaulted e q 1) ∧
    (x.shortAt = none ∨ d.sampledSoft q = false → Waits (.shortSs t q) t s)

/-- Stopping a point (R121, R122, R123, R210): RAMPDOWN for longer than TMO_MS is forced on to VEHWAIT, passed at once
with a vehicle-open indication present; VEHWAIT ends in DISCHARGE after VEHWAIT_MS, with DIS_TIME reset; DISCHARGE not
verified in 1,000 ms records fault 4 and ends the session, verified or not the point opens its contactors. Short of the
time nothing happens. A HELD point returns to IDLE only when its fault's code is written to OUT_RUNCLR with its contactors
open (R119). -/
def Obligations.PointStopSequence : Prop :=
  ∀ (t : Nat) (q : Fin 32) (p : Port) (v : Word) (s : State), let d := Dev.at t s.dev; let x := d.point q;
    (let w := Dev.arrive t p s.dev; let held := w.ptState q = 9; let live := w.outputsLive q
      let same := v.toNat % 16 = w.rd q OUT_RUNSTAT.FAULT;
      w.reached p .out q 0x724 → w.passes .out q 0x724 v = true →
      (held → live = true → Refuses (.pointFaultClear t p q v) s w .out q 0x724 RC.ENERGISED) ∧
      (¬held ∨ (¬same ∧ live = false) → Refuses (.pointFaultClear t p q v) s w .out q 0x724 RC.RANGE) ∧
      (held → live = false → same → Takes (.pointFaultClear t p q v) s .out q 0x724 fun e => e.ptState q = 0 ∧
        e.rd q OUT_RUNSTAT.FAULT = 0 ∧ e.str = w.str ∧ e.ses = w.ses ∧ (∀ r ≠ q.val, e.point r = w.point r))) ∧
    (d.ptState q = 5 → d.ptDue q (d.rd q OUT_BOCFG.TMO_MS) = true → Ends (.rampdownTimeout t q) s fun e =>
      e.ptState q = (if d.vehOpen q then 7 else 6) ∧ d.pended e q Ev.OUT.BO_FORCED ∧ e.ses = d.ses ∧
      (∀ r ≠ q.val, e.point r = d.point r)) ∧
    (d.ptState q ≠ 5 ∨ d.ptDue q (d.rd q OUT_BOCFG.TMO_MS) = false → Waits (.rampdownTimeout t q) t s) ∧
    (d.ptState q = 6 → d.ptDue q (d.rd q OUT_BOEND.VEHWAIT_MS) = true → Ends (.vehwaitTimeout t q) s fun e =>
      e.ptState q = 7 ∧ e.rd q OUT_DISTIME.MS = 0xFFFF ∧ (e.point q).disAt = d.now ∧ (e.point q).verified = false ∧
      e.ses = d.ses ∧ (∀ r ≠ q.val, e.point r = d.point r)) ∧
    (d.ptState q ≠ 6 ∨ d.ptDue q (d.rd q OUT_BOEND.VEHWAIT_MS) = false → Waits (.vehwaitTimeout t q) t s) ∧
    (d.ptState q = 7 → x.disAt + 1000 * ticksPerMs ≤ d.now → Ends (.dischargeTimeout t q) s fun e =>
      (e.ptState q = 8 ∨ e.ptState q = 0 ∨ e.ptState q = 9) ∧
      (x.verified = false → d.pended e q Ev.OUT.DIS_FAIL ∧ (d.rd q OUT_RUNSTAT.FAULT = 0 → e.rd q OUT_RUNSTAT.FAULT = 4) ∧ d.sesStopped e q 4)) ∧
    (d.ptState q ≠ 7 ∨ d.now < x.disAt + 1000 * ticksPerMs → Waits (.dischargeTimeout t q) t s)

/-- Contactors confirmed, lost and failed (R157, R158): a coil command acknowledged and read back in time makes the entry
CLOSED or OPEN, counts it, and ends its operation with status 0; not read back in time it is FAIL_CLOSE or FAIL_OPEN and
the operation ends with status 5; a CLOSED contact that reads open is LOST, or SAFE_OPEN where its pair has dropped.
Insulation below the fault threshold, or not measured, for OUT_ISOTIME faults the point with code 9 or 10 (R161). -/
def Obligations.ContactorsConfirmOrFail : Prop :=
  ∀ (t : Nat) (c : Fin 64) (q : Fin 32) (s : State), let d := Dev.at t s.dev;
    (∀ o a, d.acked c = some (o, a) → let close := decide (o.kind = OK.CONT_CLOSE);
      (d.auxConfirms c close = true → d.now ≤ a + d.confirmLimit c close → Ends (.contactorConfirm t c) s fun e =>
        e.ctmState c = (if close then 2 else 0) ∧ e.rd 0 (CTM_STAT.AUX c) = (if close then 1 else 0) ∧
        (close = true → e.rd 0 CTM_CLOSES.COUNT = (d.rd 0 CTM_CLOSES.COUNT + 1) % 2 ^ 32) ∧
        (close = false → e.rd 0 CTM_OPENS.COUNT = (d.rd 0 CTM_OPENS.COUNT + 1) % 2 ^ 32) ∧
        (d.rd 0 (CTM_CONT_A.ROLE c) = 0 → e.opEnds o.slot 0) ∧
        (∀ x ≠ c.val, x < 64 → e.ctmState x = d.ctmState x)) ∧
      (a + d.confirmLimit c close ≤ d.now → Ends (.contactorConfirmTimeout t c) s fun e =>
        e.ctmState c = (if close then 4 else 5) ∧ e.opEnds o.slot 5 ∧
        (∀ x ≠ c.val, x < 64 → e.ctmState x = d.ctmState x)) ∧
      (d.now < a + d.confirmLimit c close → Waits (.contactorConfirmTimeout t c) t s)) ∧
    (d.acked c = none → Waits (.contactorConfirmTimeout t c) t s) ∧
    (d.ctmState c = 2 → (d.entry c).raw = false → d.rd 0 CTM_CFG.AUXDEB ≤ (d.entry c).run →
      d.on 0 (CTM_STAT.STALE c) = false → (d.entry c).ackAt = none → Ends (.auxContactChange t c) s fun e =>
        let dropped := match d.pairOf (d.rd 0 (CTM_CONT_A.POINT c)) with | some p => !d.pairOn p | none => false;
        e.ctmState c = (if dropped then 7 else 6) ∧ e.rd 0 (CTM_STAT.AUX c) = 0 ∧
        (dropped = false → d.rd 0 (CTM_CONT_A.ROLE c) = 0 → let p := d.rd 0 (CTM_CONT_A.POINT c);
          1 ≤ d.ptState p → d.ptState p ≤ 6 → d.pointFaulted e p 8)) ∧
    (d.ctmState c ≠ 2 ∨ (d.entry c).raw = true → Waits (.auxContactChange t c) t s) ∧
    (let w := d.isoWatch q;
      (w.isoDue q (w.point q).isoAt = true → 1 ≤ d.ptState q → d.ptState q ≤ 6 →
        Ends (.isoFault t q) s fun e => d.pointFaulted e q 9) ∧
      (w.isoDue q (w.point q).isoAt = false → Ends (.isoFault t q) s fun e => e = w) ∧
      (w.isoDue q (w.point q).isoLostAt = true → 1 ≤ d.ptState q → d.ptState q ≤ 6 →
        Ends (.isoLost t q) s fun e => d.pointFaulted e q 10) ∧
      (w.isoDue q (w.point q).isoLostAt = false → Ends (.isoLost t q) s fun e => e = w))

/-- The switch operations (R122, R154, R155, R157), on one issued into a slot: an entry not enabled ends with status 1; a
close whose interlocks do not hold ends with status 3 and leaves the entry as it was; else the entry is CLOSING or OPENING
(one in SAFE_OPEN stays) and the coil command goes to its node as a request of that slot, or, where the link cannot carry
it, the operation ends at once with status 6 or 8. DIS_CLOSE and DIS_OPEN send the command of the discharge output. -/
def Obligations.SwitchOperations : Prop :=
  ∀ (t : Nat) (slot : Fin 384) (o : Op) (s : State), let d := Dev.at t s.dev;
    d.opAt slot = some o → let x := o.arg 8 1
    let asks (e : Dev) (k pos ch : Nat) (v : Int) : Prop :=
      if d.nodeUp k pos then ∃ r, e.skn.reqs = d.skn.reqs ++ [r] ∧ r.owner = .op slot ∧ r.port = k ∧ r.pos = pos ∧
        r.op = 0 ∧ r.index = ch ∧ r.value = v
      else e.opEnds slot (if d.sknOn k then 6 else 8)
    (o.phase = .issued → x < 64 → let k := d.rd 0 (CTM_CONT_A.PORT x); let pos := d.rd 0 (CTM_CONT_A.NODE x);
      (o.kind = OK.CONT_CLOSE →
        (d.on 0 (CTM_CONT_A.EN x) = false → Ends (.contClose t slot) s fun e => e.opEnds slot 1 ∧ e.regs = d.regs) ∧
        (d.on 0 (CTM_CONT_A.EN x) = true → d.mayClose x = false →
          Ends (.contClose t slot) s fun e => e.opEnds slot 3 ∧ e.ctmState x = d.ctmState x) ∧
        (d.on 0 (CTM_CONT_A.EN x) = true → d.mayClose x = true → Ends (.contClose t slot) s fun e =>
          e.ctmState x = (if d.nodeUp k pos then 1 else 4) ∧ asks e k pos (d.rd 0 (CTM_CONT_B.COIL x)) 1)) ∧
      (o.kind = OK.CONT_OPEN →
        (d.on 0 (CTM_CONT_A.EN x) = false → Ends (.contOpen t slot) s fun e => e.opEnds slot 1 ∧ e.regs = d.regs) ∧
        (d.on 0 (CTM_CONT_A.EN x) = true → Ends (.contOpen t slot) s fun e =>
          e.ctmState x = (if d.nodeUp k pos then (if d.ctmState x = 7 then 7 else 3) else 5) ∧
          asks e k pos (d.rd 0 (CTM_CONT_B.COIL x)) 0))) ∧
    (o.phase = .issued → x < 32 → let k := d.rd x OUT_DISSW.PORT; let pos := d.rd x OUT_DISSW.NODE;
      (o.kind = OK.DIS_CLOSE → Ends (.disClose t slot) s fun e => asks e k pos (d.rd x OUT_DISSW.CH) 1) ∧
      (o.kind = OK.DIS_OPEN → Ends (.disOpen t slot) s fun e => asks e k pos (d.rd x OUT_DISSW.CH) 0)) ∧
    (o.phase ≠ .issued → Waits (.contClose t slot) t s ∧ Waits (.contOpen t slot) t s ∧ Waits (.disClose t slot) t s ∧
      Waits (.disOpen t slot) t s)

/-! ### Tension -/

/-- The committed allocation of R62 keeps every limit it is computed under: a point gets no more than its vehicle's, its
own and its strands' currents and powers, none without an allocatable session gets anything, and the site's total is at
most the budget where a guarantee was cut, and above it by less than the sum of the weights where none was (what the
truncation of R62's last step may add). -/
def Obligations.AllocationsKeepTheirLimits : Prop :=
  ∀ (g : SiteIn) (pts : List PtIn), let r := allocate g pts;
    r.pts.length = pts.length ∧ r.dc ≤ (g.grid - g.reserve) * g.eff / 10000 ∧
    (∀ (p : Nat) (x : PtIn) (y : PtRes), pts[p]? = some x → r.pts[p]? = some y →
      (x.alloc = false → y.w = 0 ∧ y.set = 0) ∧
      (x.alloc = true → y.w ≤ x.veh.pmax ∧ y.w ≤ x.pmax ∧ 0 ≤ y.set ∧ y.set ≤ (x.veh.imax : Int) ∧ y.set ≤ (x.imax : Int) ∧
        y.set ≤ (x.cap : Int) ∧ (y.set : Int) ≤ (if x.veh.cls ≤ 1 then x.h10 else x.h60 : Nat))) ∧
    ((∀ x ∈ pts, x.veh.cls ≤ 3) → (r.short = true → r.total ≤ r.dc) ∧
      r.total ≤ r.dc + ((pts.filter fun x => x.alloc).map fun x => (g.par x.veh.cls).weight - 1).sum)

/-- A row boundary that is due, on a unit on its own (R26, R28, R77): the row is counted and begins there. Where the
committed allocation was late, every setpoint is held, reduced to the point's 10 s headroom, and OVERRUN is shown;
where it was in time and no scenario was both complete and confirmed, it becomes active for every point whose session
still runs. Before it is due nothing happens. -/
def Obligations.RowBoundaryTurnsTheAllocation : Prop :=
  ∀ (t : Nat) (s : State), let d := Dev.at t s.dev; let a := d.alc;
    (∀ b, d.rowDue = some b → d.rd 0 PLY_CFG.MODE = 0 → d.ply.ret = none → d.ply.rejoin = none →
      d.rd 0 (STAGE_STAT.STATE .alc) ≠ 2 → Ends (.rowBoundary t) s fun e =>
        e.rd 0 ALC_ROWCNT.ROWS = (d.rd 0 ALC_ROWCNT.ROWS + 1) % 2 ^ 32 ∧ e.alc.started = true ∧ e.alc.rowAt = b ∧
        e.alc.rowLen = d.rd 0 ALC_ROWCFG.ROW_US * ticksPerUs ∧
        (a.started = true → ∀ r, a.next = some r →
          (b < a.doneAt → e.rd 0 ALC_STAT.OVERRUN = 1 ∧ e.alc.overruns = a.overruns + 1 ∧
            ∀ p < 32, e.rdI 0 (ALC_PTSET.MA p) = min (d.rdI 0 (ALC_PTSET.MA p)) (d.rd p CBL_H10.MA : Int)) ∧
          (a.doneAt ≤ b → e.rd 0 ALC_STAT.OVERRUN = 0 ∧ e.alc.overruns = 0 ∧
            ((∀ x ∈ a.scns, b < x.doneAt ∨ x.verdict ≠ 1) → ∀ p m y, p < 32 → (p, m) ∈ a.live → (∀ k, (p, k) ∈ a.live → k = m) →
              d.liveSes p = some m → d.sesState m ≠ 5 → r.pts[p]? = some y → 0 ≤ y.set → y.set < 2 ^ 31 →
              e.rdI 0 (ALC_PTSET.MA p) = y.set)))) ∧
    (d.rowDue = none → Waits (.rowBoundary t) t s)

/-- A strand's sample boundary (R27, R96, R103), with no commit pending: at the first one after its carrier starts, and
no later than one PERIOD after that, from then on exactly one PERIOD after the last, the sample is counted and its telemetry
awaited, with the CLE page's deadline and MISS_LIMIT as they then stand; the lead of a point takes the setpoint of the active
allocation. Before it is due nothing happens. -/
def Obligations.SampleBoundariesFollowTheCarrier : Prop :=
  ∀ (t : Nat) (n : Fin 48) (s : State), let d := Dev.at t s.dev; let x := d.strand n
    let per := d.rd n STR_CARRIER.PERIOD; let b := if x.started then x.boundary + per else min d.now (x.carrierAt + per);
    (d.strEn n = true → d.domOn .cle = true → b ≤ d.now → x.expiring = none → d.rd n (STAGE_STAT.STATE .str) ≠ 2 →
      d.rd 0 (STAGE_STAT.STATE .cle) ≠ 2 → Ends (.sampleBoundary t n) s fun e =>
        let y := e.strand n;
        y.started = true ∧ y.boundary = b ∧ y.sample = x.sample + 1 ∧ y.awaiting = true ∧ y.edges = x.edges ∧
        y.awaitPeak = d.on n STR_CFG.CSAMP ∧ y.dl = d.rd 0 CLE_CFG.TLM_DL ∧ y.missLim = d.rd 0 CLE_CFG.MISS_LIMIT ∧
        e.rd n STR_SAMPLES.COUNT = (d.rd n STR_SAMPLES.COUNT + 1) % 2 ^ 32 ∧
        (d.leadOf (d.asgPt n) = some n.val → d.alc.rowAt ≤ b → (e.point (d.asgPt n)).setUse = d.rdI 0 (ALC_PTSET.MA (d.asgPt n))) ∧
        (∀ m ≠ n.val, e.strand m = d.strand m) ∧ SameRegs (fun a => a = pageIx .str n * 4096 + STR_SAMPLES.COUNT.off) d e) ∧
    (d.strEn n = false ∨ d.domOn .cle = false ∨ d.now < b → Waits (.sampleBoundary t n) t s)

/-- The site's inputs (R56, R57, R58, R59, R28): an accepted write of ALC_GRID sets the limit, ends the fallback and restarts
its time, and a row boundary that has come turns before it; one above the site's bound is refused. Without a write for ALC_GRID_TMO the fallback stands, without a price for
3 s the price is stale, a stale cabinet raises CAB_STALE and derates its strands to STALE_PCT; after 8 overruns in a row
every energised point ramps down from where it is, and no session ends. -/
def Obligations.TensionInputsAndStall : Prop :=
  ∀ (t : Nat) (p : Port) (v : Word) (c : Fin 16) (s : State), let d := Dev.at t s.dev;
    (let w := Dev.arrive t p s.dev; let r := w.rowCatch;
      w.reached p .alc 0 0x440 → w.passes .alc 0 0x440 v = true → (w.rowDue = none → r = w) ∧
      (v.toNat ≤ r.siteMax → Takes (.gridWrite t p v) s .alc 0 0x440 fun e => e.rd 0 ALC_GRID.W = v.toNat ∧
        e.alc = { r.alc with gridAt := r.now, gridFb := false } ∧
        SameRegs (fun a => a = pageIx .alc 0 * 4096 + 0x440) r e) ∧
      (r.siteMax < v.toNat → Refuses (.gridWrite t p v) s w .alc 0 0x440 RC.RANGE)) ∧
    (let ms := d.rd 0 ALC_GRID_TMO.MS;
      (ms ≠ 0 → d.alc.started = true → d.alc.gridFb = false → d.alc.gridAt + ms * ticksPerMs ≤ d.now →
        Ends (.gridTmo t) s fun e => e.rd 0 ALC_STAT.GRID_FB = 1 ∧ e.alc = { d.alc with gridFb := true } ∧
          d.pended e 0 Ev.ALC.GRID_TMO ∧ Quiet (fun a => loud a || a = pageIx .alc 0 * 4096 + ALC_STAT.GRID_FB.off) { d with alc := e.alc } e) ∧
      (ms = 0 ∨ d.alc.started = false ∨ d.alc.gridFb = true ∨ d.now < d.alc.gridAt + ms * ticksPerMs → Waits (.gridTmo t) t s)) ∧
    (d.alc.started = true → d.alc.priceRaised = false →
      (max d.alc.firstAt d.alc.priceAt + 3 * ticksPerS ≤ d.now → Ends (.priceStale t) s fun e =>
        e.rd 0 ALC_STAT.PRICE_STALE = 1 ∧ d.pended e 0 Ev.ALC.PRICE_STALE ∧
        Quiet (fun a => loud a || a = pageIx .alc 0 * 4096 + ALC_STAT.GRID_FB.off) { d with alc := e.alc } e) ∧
      (d.now < max d.alc.firstAt d.alc.priceAt + 3 * ticksPerS → Waits (.priceStale t) t s)) ∧
    (d.on 0 (ALC_CABSRC.EN c) = true → d.cabStale c = true → Ends (.cabStale t c) s fun e =>
      e.stands 0 Ev.ALC.CAB_STALE ∧ Quiet loud d e ∧ ∀ n, d.rd 0 (ALC_STRCAB.CAB n) = c → e.strDerate n = 10 * d.rd 0 (ALC_CABSRC.STALE_PCT c)) ∧
    (d.on 0 (ALC_CABSRC.EN c) = false ∨ d.cabStale c = false → Waits (.cabStale t c) t s) ∧
    (8 ≤ d.alc.overruns → d.on 0 ALC_STAT.STALL = false → Ends (.alcStall t) s fun e =>
      e.rd 0 ALC_STAT.STALL = 1 ∧ e.stands 0 Ev.ALC.ALC_STALL ∧ e.alc = { d.alc with stallAt := d.now } ∧ e.ses = d.ses ∧
      (∀ q < 32, e.point q = if d.energised q then
        { d.point q with r0 := if d.ptState q = 5 then (d.point q).r0 else (d.point q).r, stalled := true } else d.point q) ∧
      Quiet (fun a => loud a || a = pageIx .alc 0 * 4096 + ALC_STAT.STALL.off) { d with alc := e.alc, pt := e.pt } e) ∧
    (d.alc.overruns < 8 ∨ d.on 0 ALC_STAT.STALL = true → Waits (.alcStall t) t s)

/-- Handovers (R72, R73, R74, Table ALC-9): a request that meets Table ALC-4 takes the lowest idle slot and waits for the
snapshot; another is refused with the lowest code that fails (R438), HO_BUSY with no slot idle, and changes nothing. A row
boundary that has come turns before the write (R59). Acknowledging frees the slots in state 6
or 7 and no other. The states follow each other: the share gone, the strand's edges stop and its donor contactors open;
pre-biased, the receiver's contactors are asked to close; the share risen, the strand is ASSIGNED to the receiver. -/
def Obligations.HandoversRunThroughTheirStates : Prop :=
  ∀ (t : Nat) (p : Port) (v : Word) (h : Fin 4) (s : State), let d := Dev.at t s.dev
    let n := d.rd 0 (ALC_HANDSTAT.STRAND h); let q := d.rd 0 (ALC_HANDSTAT.TO h);
    (let w := Dev.arrive t p s.dev; let r := w.rowCatch; let n := v.toNat / 256 % 64; let q := v.toNat % 32;
      w.reached p .alc 0 0x460 → w.passes .alc 0 0x460 v = true →
      (v.toNat / 2 ^ 20 % 16 = 0 → 2 ^ 31 ≤ v.toNat →
        (48 ≤ n → Refuses (.handoverRequest t p v) s w .alc 0 0x460 RC.RANGE) ∧
        (n < 48 → ∀ c, firstReason (r.hoChecks n q ++ failIf r.hoIdle.isNone 0x81) = some c →
          Refuses (.handoverRequest t p v) s w .alc 0 0x460 c) ∧
        (n < 48 → r.hoReason n q = none → ∀ k, r.hoIdle = some k → Takes (.handoverRequest t p v) s .alc 0 0x460 fun e =>
          e.rd 0 (ALC_HANDSTAT.FROM k) = r.asgPt n ∧ e.rd 0 (ALC_HANDSTAT.STRAND k) = n ∧ e.rd 0 (ALC_HANDSTAT.TO k) = q ∧
          e.alc = { r.alc with hoWait := r.alc.hoWait ++ [k] } ∧ SameRegs (fun a => a = pageIx .alc 0 * 4096 + 0x464 + 4 * k) r e)) ∧
      (v.toNat < 2 ^ 31 → Takes (.handoverAck t p v) s .alc 0 0x460 fun e => ∀ k < 4, e.word .alc 0 (0x464 + 4 * k) =
        if (v.toNat / 2 ^ 20 % 16).testBit k ∧ (r.rd 0 (ALC_HANDSTAT.STATE k) = 6 ∨ r.rd 0 (ALC_HANDSTAT.STATE k) = 7)
        then 0#32 else r.word .alc 0 (0x464 + 4 * k))) ∧
    (d.rd 0 (ALC_HANDSTAT.STATE h) = 1 → d.rampOver n 1 = true → Ends (.handoverRampOutEnd t h) s fun e =>
      e.rd 0 (ALC_HANDSTAT.STATE h) = 2 ∧ (e.strand n).stopped = true ∧ e.rd n STR_STAT.STATE = 1 ∧
      ((∀ o ∈ d.ope.flight, o.kind ≠ OK.CONT_CLOSE) → ∀ c ∈ d.linkTo n (d.rd 0 (ALC_HANDSTAT.FROM h)),
        d.ctmQueued OK.CONT_CLOSE c = false → e.openAsked c) ∧ (∀ m ≠ n, e.strand m = d.strand m)) ∧
    (d.rd 0 (ALC_HANDSTAT.STATE h) = 3 → (d.strand n).preOk ≠ none → Ends (.handoverPrebiasDone t h) s fun e =>
      e.rd 0 (ALC_HANDSTAT.STATE h) = 4 ∧ (∀ c ∈ d.linkTo n q, e.closeAsked c) ∧ e.str = d.str ∧
      SameRegs (fun a => a = pageIx .alc 0 * 4096 + 0x464 + 4 * h) d e) ∧
    (d.rd 0 (ALC_HANDSTAT.STATE h) = 5 → d.asg n = 3 → d.rampOver n 2 = true → Ends (.handoverRampInEnd t h) s fun e =>
      e.rd 0 (ALC_HANDSTAT.STATE h) = 6 ∧ e.asg n = 1 ∧ e.asgPt n = q ∧ (e.strand n).ramp = 0 ∧
      d.pended e 0 Ev.ALC.HANDOVER_DONE) ∧
    (d.rd 0 (ALC_HANDSTAT.STATE h) ≠ 1 → Waits (.handoverRampOutEnd t h) t s) ∧
    (d.rd 0 (ALC_HANDSTAT.STATE h) ≠ 3 → Waits (.handoverPrebiasDone t h) t s) ∧
    (d.rd 0 (ALC_HANDSTAT.STATE h) ≠ 5 → Waits (.handoverRampInEnd t h) t s)

/-! ### Skein -/

/-- A frame received at a port (R128, R130): nothing happens while the port does not receive, at a frame of another TYPE,
and at a copy from the ring's other end; a frame whose length or CRC is wrong is discarded and counted in SKN_CRCERR. -/
def Obligations.SkeinDiscardsWhatItCannotTake : Prop :=
  ∀ (t : Nat) (k : Fin 12) (f : List Byte) (s : State), let d := Dev.at t s.dev;
    ∀ c ∈ [(0x20, Instr.tlmRx t k f), (0x04, .dlyReqRx t k f), (0x03, .identRx t k f), (0x21, .statusRx t k f),
        (0x30, .ioInRx t k f), (0x32, .ioAckRx t k f)],
      (d.sknLive k = false → Waits c.2 t s) ∧
      (d.sknLive k = true → frameOk f = false → Ends c.2 s fun e =>
        e.rd k SKN_CRCERR.COUNT = (d.rd k SKN_CRCERR.COUNT + 1) % 2 ^ 32 ∧ RegsOnly d e ∧
        SameRegs (fun a => a = pageIx .skn k * 4096 + SKN_CRCERR.COUNT.off) d e) ∧
      (d.sknLive k = true → frameOk f = true → leAt f 0 1 ≠ c.1 → Waits c.2 t s) ∧
      (∀ key, d.sknLive k = true → frameOk f = true → leAt f 0 1 = c.1 → frameKey f = some key →
        d.rd (d.homePort k) SKN_CFG.TOPO = 1 →
        (c.1, key) ∈ (d.node (d.homePort k) (framePos f)).last → Waits c.2 t s)

/-- A port's bring-up and its loss (R126, R128, R138, R139, R146): a link that comes up is shown, forgets the positions it
had and, on the end that carries the nodes, sends ENUM with HOP 0; a link lost shows UP and SYNCD 0, and a ring broken; the
SYNC frame leaves when its period is over, in RING from both ends that are UP under one SEQ, with the present time; a delay
request is answered with its arrival and a
departure no earlier. -/
def Obligations.SkeinLinkAndTime : Prop :=
  ∀ (t : Nat) (k : Fin 12) (f : List Byte) (s : State), let d := Dev.at t s.dev
    let on := d.sknOn k && d.en .skn k; let h := d.homePort k; let x := d.sport h;
    let due := x.syncAt + d.rd h SKN_SYNC.PERIOD_US * ticksPerUs;
    (on = true → d.on k SKN_LINK.UP = false → Ends (.sknLinkUp t k) s fun e =>
      e.rd k SKN_LINK.UP = 1 ∧ e.rd k SKN_LINK.SYNCD = 1 ∧ d.pended e k Ev.SKN.LINK_UP ∧
      (d.homePort k = k → (∀ pos < 8, e.nodeClass k pos = 0) ∧ e.rd k SKN_LINK.NNODES = 0 ∧
        (d.plySilent = false → .skein k d.now (withCrc [0x02#8, 0x80#8, 0#8, 0#8]) ∈ e.sent)) ∧ e.str = d.str ∧ e.ope = d.ope) ∧
    (on = false ∨ d.on k SKN_LINK.UP = true → Waits (.sknLinkUp t k) t s) ∧
    (d.on k SKN_LINK.UP = true ∨ d.on k SKN_LINK.SYNCD = true → Ends (.sknSyncLoss t k) s fun e =>
      e.rd k SKN_LINK.UP = 0 ∧ e.rd k SKN_LINK.SYNCD = 0 ∧
      (d.on k SKN_LINK.UP = true → d.pended e k Ev.SKN.LINK_DOWN) ∧
      (d.rd k SKN_CFG.TOPO = 1 ∨ d.rd k SKN_CFG.TOPO = 2 → d.pended e k Ev.SKN.RING_BREAK) ∧
      Quiet (fun a => loud a || a % 4096 = SKN_LINK.UP.off) d e) ∧
    (d.on k SKN_LINK.UP = false → d.on k SKN_LINK.SYNCD = false → Waits (.sknSyncLoss t k) t s) ∧
    Ends (.sknSyncRegain t k) s (fun e => e = if on then d.wr k SKN_LINK.SYNCD 1 else d) ∧
    (d.sknLive k = true → due ≤ d.now →
      Ends (.sknSyncSend t k) s fun e => e.sport h = { x with syncSeq := (x.syncSeq + 1) % 256, syncAt := d.now } ∧
        e.regs = d.regs ∧ (d.plySilent = false → ∀ q ∈ d.ringEnds h, d.sknLive q = true →
          .skein q d.now (withCrc (syncBody x.syncSeq (if q = h then 0 else 1) d.now)) ∈ e.sent)) ∧
    (d.sknLive k = false ∨ d.now < due → Waits (.sknSyncSend t k) t s) ∧
    (d.rxTakes k 0x04 f → Ends (.dlyReqRx t k f) s fun e => e.regs = d.regs ∧ (d.plySilent = false → ∃ x,
      .skein (d.homePort k) d.now (withCrc ([0x05#8, BitVec.ofNat 8 (framePos f), BitVec.ofNat 8 (leAt f 2 1), 0#8] ++
        leBytes 8 (d.now * 64) ++ leBytes 8 (d.now * 64 + x) ++ leBytes 4 (leAt f 4 4) ++ leBytes 4 0)) ∈ e.sent))

/-- The nodes of a port (R142, R146): IDENT records the class and marks a node that differs from SKN_EXPECT as a mismatch,
as does an expected position silent for 1 ms after ENUM, and one so marked stays so until the next ENUM; STATUS shows the node's state and that it is not lost; 5 status
periods without one make it LOST, and stop the running strands it carries with code 0x41. -/
def Obligations.SkeinNodesAreIdentifiedAndLost : Prop :=
  ∀ (t : Nat) (k : Fin 12) (i : Fin 8) (f : List Byte) (s : State), let d := Dev.at t s.dev
    let home := d.homePort k; let pos := framePos f;
    (d.rxTakes k 0x03 f → leAt f 2 1 < 16 → Ends (.identRx t k f) s fun e =>
      e.nodeClass home pos = leAt f 2 1 ∧ (e.node home pos).ident = (f.drop 2).take 10 ∧
      (e.node home pos).mismatch = ((d.node home pos).mismatch || decide (leAt f 2 1 ≠ d.rd home (SKN_EXPECT.POS pos))) ∧ (e.node home pos).statusAt = d.now ∧
      e.str = d.str ∧ e.pt = d.pt ∧ e.ope = d.ope) ∧
    (d.sknLive k = true → d.on k (SKN_EXPECT.POS i) = true → d.nodeClass k i = 0 → (d.node k i).mismatch = false →
      (d.sport k).enumAt + ticksPerMs ≤ d.now → Ends (.enumIdentTimeout t k i) s fun e =>
        (e.node k i).mismatch = true ∧ d.pended e k Ev.SKN.NODE_MISMATCH ∧ Quiet loud { d with skn := e.skn } e) ∧
    (d.on k (SKN_EXPECT.POS i) = false ∨ d.nodeClass k i ≠ 0 ∨ d.now < (d.sport k).enumAt + ticksPerMs →
      Waits (.enumIdentTimeout t k i) t s) ∧
    (d.rxTakes k 0x21 f → Ends (.statusRx t k f) s fun e =>
      e.rd home (SKN_NSTAT.LOST pos) = 0 ∧ e.rd home (SKN_NSTAT.STATE pos) = leAt f 3 1 % 16 ∧
      (e.node home pos).statusAt = d.now ∧ SameRegs (fun a => a = pageIx .skn home * 4096 + 0x480 + 4 * pos) d e) ∧
    (d.nodeClass k i ≠ 0 → d.on k (SKN_NSTAT.LOST i) = false →
      (d.node k i).statusAt + 5 * d.rd k SKN_STATCFG.PERIOD_MS * ticksPerMs ≤ d.now → Ends (.nodeLost t k i) s fun e =>
        e.rd k (SKN_NSTAT.LOST i) = 1 ∧ d.pended e k Ev.SKN.NODE_LOST ∧ e.nodeUp k i = false ∧
        ∀ n ∈ d.strandsAt k i, d.strRunning n = true → e.rd n STR_STAT.STATE = 5 ∧ (e.strand n).stopped = true ∧
          ((d.strand n).restartAt = none → e.rd n STR_FAULT.CODE = 0x41)) ∧
    (d.nodeClass k i = 0 ∨ d.on k (SKN_NSTAT.LOST i) = true ∨
      d.now < (d.node k i).statusAt + 5 * d.rd k SKN_STATCFG.PERIOD_MS * ticksPerMs → Waits (.nodeLost t k i) t s)

/-- Input channels and requests (R143, R145): an IO_IN entry sets its channel, which is stale after 4 cycles without a
further one; an acknowledgement ends the operation that waits for its TAG, with its status, and is ignored where none
waits; a request without an answer is resent and counted while resends remain and its position is sent traffic, and then
fails with LINK_FAIL. -/
def Obligations.SkeinInputsAndRequests : Prop :=
  ∀ (t : Nat) (k : Fin 12) (i : Fin 8) (ch : Fin 256) (f : List Byte) (s : State), let d := Dev.at t s.dev
    let home := d.homePort k; let pos := framePos f
    let own (r : IoReq) : Bool := r.port = home && r.pos = pos && r.tag = leAt f 2 1
    let due (r : IoReq) : Bool := r.port = k && r.pos = i && r.sentAt + d.rd k SKN_IOCFG.TMO_US * ticksPerUs ≤ d.now;
    (∀ v, d.rxTakes k 0x30 f → d.nodeClass home pos ≠ 0 → ioInEntries f = [(ch.val, v)] → Ends (.ioInRx t k f) s fun e =>
      e.input home pos ch = some v ∧ (∀ c ≠ inKey home pos ch, e.skn.inputs.get (fun _ => {}) c = d.skn.inputs.get (fun _ => {}) c)) ∧
    (d.rxTakes k 0x30 f → d.nodeClass home pos = 0 → Ends (.ioInRx t k f) s fun e => e.regs = d.regs ∧ e.skn.inputs = d.skn.inputs) ∧
    (let x := d.inRec k i ch;
      (x.seen = true → x.stale = false → x.time + 4 * d.rd k SKN_IOCFG.CYC_US * ticksPerUs ≤ d.now →
        Ends (.inputStale t k i ch) s fun e => e.input k i ch = none ∧ e.inputOr0 k i ch = d.inputOr0 k i ch) ∧
      (x.seen = false ∨ x.stale = true ∨ d.now < x.time + 4 * d.rd k SKN_IOCFG.CYC_US * ticksPerUs →
        Waits (.inputStale t k i ch) t s)) ∧
    (d.rxTakes k 0x32 f → (∀ r ∈ d.skn.reqs, own r = false) → Ends (.ioAckRx t k f) s fun e =>
      e.regs = d.regs ∧ e.ope = d.ope ∧ e.skn.reqs = d.skn.reqs) ∧
    (∀ r slot o, d.rxTakes k 0x32 f → d.skn.reqs.find? own = some r → r.owner = .op slot → d.opAt slot = some o →
      let st := leAt f 3 1;
      (o.kind ≠ OK.CONT_CLOSE → o.kind ≠ OK.CONT_OPEN → Ends (.ioAckRx t k f) s fun e =>
        e.opEnds slot (if st = 0 then 0 else 0x10 + st) ∧ e.skn.reqs = removeFirst own d.skn.reqs) ∧
      (o.kind = OK.CONT_CLOSE ∨ o.kind = OK.CONT_OPEN → st ≠ 0 → o.arg 8 1 < 64 → Ends (.ioAckRx t k f) s fun e =>
        e.opEnds slot (0x10 + st) ∧ e.ctmState (o.arg 8 1) = if o.kind = OK.CONT_CLOSE then 4 else 5)) ∧
    (∀ r, d.skn.reqs.find? due = some r →
      (r.resends < d.rd k SKN_IOCFG.RETRY → d.nodeUp k i = true → Ends (.ioAckTimeout t k i) s fun e =>
        e.rd k SKN_IORETRY.COUNT = (d.rd k SKN_IORETRY.COUNT + 1) % 2 ^ 32 ∧ { r with resends := r.resends + 1, sentAt := d.now } ∈ e.skn.reqs ∧
        (d.plySilent = false → .skein k d.now (withCrc (ioReqFrame r)) ∈ e.sent)) ∧
      (d.rd k SKN_IOCFG.RETRY ≤ r.resends ∨ d.nodeUp k i = false → Ends (.ioAckTimeout t k i) s fun e => d.pended e k Ev.SKN.IO_FAIL ∧
        ∀ slot o, r.owner = .op slot → d.opAt slot = some o → e.opEnds slot 6)) ∧
    ((∀ r ∈ d.skn.reqs, due r = false) → Waits (.ioAckTimeout t k i) t s)

/-- A telemetry sample (R85, R87, R92, R97, R108): an intact frame of a node that serves one running strand, with no flag,
every active phase valid and within its trip limit, arriving while the sample is awaited, is measured: STR_IMEAS is the
sum of the phase currents, the strand has missed none, and its on-time is a duty between STR_DMIN and STR_DMAX held in 0 to 1,
unless the duty waits for a prepared shed's hold to expire (R83); where the strand leads a RUNNING point that no fault
clamps, the point's reference moves by no more than its slew limits allow. A valley or peak sample without telemetry by its
deadline, while it is awaited (R97): the miss is counted, the last edges repeat one period later, of a peak sample the
falling ones alone, and no loop state changes, of the strand or of any point. Otherwise nothing happens. -/
def Obligations.SamplesRunTheLoopsOrRepeatTheEdges : Prop :=
  (∀ (t : Nat) (k : Fin 12) (f : List Byte) (n : Nat) (s : State), let d := Dev.at t s.dev
    let m := tlmOf d.now f; let p := d.asgPt n;
    d.rxTakes k 0x20 f → d.strandsAt (d.homePort k) (framePos f) = [n] → leAt f 3 1 % 32 = 0 →
    (d.strand n).awaiting = true → d.tlmOfTime n m (d.strand n).boundary = true → d.now ≤ d.tlmDeadline n → d.strRunning n = true → d.between n = false →
    (∀ ph ∈ d.actPhases n, m.valid.testBit ph = true ∧ (m.iph.getD ph 0).natAbs ≤ d.rd n STR_IPHTRIP.I) →
    d.rdI n STR_DMIN.D ≤ d.rdI n STR_DMAX.D →
    Ends (.tlmRx t k f) s fun e =>
      e.rdI n STR_IMEAS.MA = ((d.actPhases n).map fun ph => 10 * m.iph.getD ph 0).sum ∧
      (e.strand n).miss = 0 ∧ (e.strand n).awaiting = false ∧
      ((e.strand n).expiring = none → ∃ u : Int, d.rdI n STR_DMIN.D ≤ u ∧ u ≤ d.rdI n STR_DMAX.D ∧
        (e.strand n).onTime = d.toTicks n (clampI 0 0x10000000 u)) ∧
      (d.ptState p = 4 → ∀ x ≠ n, e.strand x = d.strand x) ∧
      (d.leadOf p = some n → d.ptState p = 4 → (d.point p).clampNow = false →
        -(10 * (d.rd p OUT_SLEW.DN : Int)) ≤ (e.point p).r - (d.point p).r ∧
        (e.point p).r - (d.point p).r ≤ 10 * (d.rd p OUT_SLEW.UP : Int))) ∧
  (∀ (t : Nat) (n : Fin 48) (s : State), let d := Dev.at t s.dev; let x := d.strand n
    let valley := x.awaiting = true ∧ d.tlmDeadline n < d.now; let peak := x.awaitPeak = true ∧ d.peakDeadline n < d.now
    let counted (e : Dev) : Prop := let y := e.strand n;
      e.rd n STR_MISS.COUNT = (d.rd n STR_MISS.COUNT + 1) % 2 ^ 32 ∧
      e.rd 0 CLE_MISS.COUNT = (d.rd 0 CLE_MISS.COUNT + 1) % 2 ^ 32 ∧
      y.miss = x.miss + 1 ∧ y.sh = x.sh ∧ y.ph = x.ph ∧ y.tsh = x.tsh ∧ y.quot = x.quot ∧
      y.onTime = x.onTime ∧ e.pt = d.pt ∧ e.rd n STR_DUTY.ONTIME = d.rd n STR_DUTY.ONTIME ∧
      (∀ m ≠ n.val, e.strand m = d.strand m);
    (valley → Ends (.tlmDeadlineMiss t n) s fun e => counted e ∧ (e.strand n).awaiting = false ∧
      (e.strand n).awaitPeak = x.awaitPeak ∧
      (∀ ph < 8, e.edgeOf n ph = if x.stopped = false ∧ x.armed = true then (d.edgeOf n ph).map fun g =>
        { g with rise := g.rise + (d.rd n STR_CARRIER.PERIOD * 64 : Nat), fall := g.fall + (d.rd n STR_CARRIER.PERIOD * 64 : Nat) }
        else none)) ∧
    (¬valley → peak → Ends (.tlmDeadlineMiss t n) s fun e => counted e ∧ (e.strand n).awaitPeak = false ∧
      (e.strand n).awaiting = x.awaiting ∧ (x.stopped = false → x.armed = true →
        ∀ ph < 8, (e.edgeOf n ph).map (·.rise) = (d.edgeOf n ph).map (·.rise))) ∧
    (¬valley → ¬peak → Waits (.tlmDeadlineMiss t n) t s))

/-! ### Temperatures, load switches, auxiliary loops -/

/-- Temperature channels (R162, R165, R166, R167): a conversion in its channel's slot of the round is counted and its raw value shown, and a clean one of a
sound channel is its temperature; one condition of R165 at 3 conversions in a row breaks the channel, 20 clean ones in a
row mend it; an armed comparator hot twice in a row trips, and is released once it has stayed cool for COOL_S and is cool
then. -/
def Obligations.TemperatureChannels : Prop :=
  ∀ (t : Nat) (c : Fin 64) (raw vf : Nat) (s : State), let d := Dev.at t s.dev; let x := d.thmRec c;
    (d.rd c THM_CFG.MODE ≠ 0 → d.domOn .safe = true → d.thmSlot c = true → let bad := d.thmBad c raw vf;
      Ends (.thmConversion t c raw vf) s fun e => e.rd c THM_RAW.RAW = min raw (2 ^ 32 - 1) ∧
        e.rd c THM_CONV.COUNT = (d.rd c THM_CONV.COUNT + 1) % 2 ^ 32 ∧
        (∀ v, bad = (false, false, false) → d.rd c THM_STAT.BROKEN = 0 → d.thmTemp c raw = some v →
          e.rdI c THM_TEMP.T = v ∧ e.rd c THM_TEMP.VALID = 1) ∧
        (bad ≠ (false, false, false) → e.rd c THM_TEMP.T = d.rd c THM_TEMP.T ∧ e.rd c THM_TEMP.VALID = d.rd c THM_TEMP.VALID) ∧
        (∀ b ≠ c.val, e.thmRec b = d.thmRec b)) ∧
    (d.rd c THM_CFG.MODE = 0 ∨ d.domOn .safe = false ∨ d.thmSlot c = false → Waits (.thmConversion t c raw vf) t s) ∧
    (d.rd c THM_STAT.BROKEN = 0 → 3 ≤ x.openN ∨ 3 ≤ x.shortN ∨ 3 ≤ x.rangeN → Ends (.thmBroken t c) s fun e =>
      e.rd c THM_STAT.BROKEN = (if 3 ≤ x.openN then 1 else if 3 ≤ x.shortN then 2 else 3) ∧ e.rd c THM_TEMP.VALID = 0 ∧
      d.pended e c Ev.THM.BROKEN) ∧
    (d.rd c THM_STAT.BROKEN ≠ 0 ∨ (x.openN < 3 ∧ x.shortN < 3 ∧ x.rangeN < 3) → Waits (.thmBroken t c) t s) ∧
    (d.rd c THM_STAT.BROKEN ≠ 0 → 20 ≤ x.cleanN → Ends (.thmRecovered t c) s fun e => e.rd c THM_STAT.BROKEN = 0 ∧
      e.rd c THM_TEMP.VALID = 1 ∧ e.rdI c THM_TEMP.T = satS 16 x.last ∧ d.pended e c Ev.THM.RECOVERED) ∧
    (d.rd c THM_STAT.BROKEN = 0 ∨ x.cleanN < 20 → Waits (.thmRecovered t c) t s) ∧
    (d.on c THM_CFG.HWEN = true → 2 ≤ x.hotN → Ends (.hwComparatorTrip t c) s fun e => e.rd c THM_STAT.HWTRIP = 1 ∧
      e.stands c Ev.THM.HWTRIP ∧ (e.thmRec c).trip = (if x.trip = 2 then 2 else 1) ∧ (e.thmRec c).coolAt = none) ∧
    (d.on c THM_CFG.HWEN = false ∨ x.hotN < 2 → Waits (.hwComparatorTrip t c) t s) ∧
    (∀ a, x.coolAt = some a → x.trip = 2 →
      (a + d.rd c THM_HWCOOL.COOL_S * ticksPerS ≤ d.now → d.coolOk c = true → Ends (.hwCoolRelease t c) s fun e => e.rd c THM_STAT.HWTRIP = 0 ∧
        (e.thmRec c).trip = 0 ∧ d.pended e c Ev.THM.HWREL) ∧
      (d.now < a + d.rd c THM_HWCOOL.COOL_S * ticksPerS ∨ d.coolOk c = false → Waits (.hwCoolRelease t c) t s)) ∧
    (x.coolAt = none ∨ x.trip ≠ 2 → Waits (.hwCoolRelease t c) t s)

/-- Rate of rise and die temperature (R174, R175, R177): every 100 ms the greatest rate of the pins moves the level, up to
the highest whose threshold it reaches, down only from one whose threshold less HYS it misses; every level passed on the way
up raises its event, DERATE notes that its cap is due, and TRIP ends the session with cause 3 and stays until it is cleared,
which is refused while the rate is not below WARN − HYS. Without a rate nothing changes. Every ms the die sensors' readings
move the throttle level by the greatest valid one, with STEP between levels and HYS below each; it is 7 while three of the
sensors 0 to 5 are invalid, and the pause is the level's. -/
def Obligations.RateOfRiseAndDieTemperature : Prop :=
  ∀ (t : Nat) (p : Port) (q : Fin 32) (v : Word) (ts : List Int) (s : State), let d := Dev.at t s.dev
    let ix := d.now / (100 * ticksPerMs)
    let rates := (List.range 4).filterMap fun k =>
      if d.on q (CBL_PINSRC.EN k) then d.rorRate (d.rd q (CBL_PINSRC.CH k)) (ix * (100 * ticksPerMs)) else none
    let warn : Int := d.rd q CBL_ROR1.WARN; let hys : Int := d.rd q CBL_ROR2.HYS; let der : Int := d.rd q CBL_ROR1.DERATE
    let trip : Int := d.rd q CBL_ROR2.TRIP; let lvl := d.rd q CBL_STAT.LEVEL;
    (d.on q CBL_CFG.EN = true → (d.cblRec q).rorIx < ix →
      (rates = [] → Ends (.rorEvaluation t q) s fun e => e.regs = d.regs ∧ e.ses = d.ses ∧ (e.cblRec q).rorIx = ix) ∧
      (rates ≠ [] → ∀ r, r ∈ rates → (∀ x ∈ rates, x ≤ r) → Ends (.rorEvaluation t q) s fun e =>
        let up := e.rd q CBL_STAT.LEVEL;
        e.rdI q CBL_ROR.RATE = satS 16 r ∧ (e.cblRec q).rorIx = ix ∧ (∀ i ≠ q.val, e.cblRec i = d.cblRec i) ∧
        (lvl = 3 → up = 3 ∧ e.ses = d.ses) ∧
        (lvl < 3 → up = (if trip ≤ r then 3 else if der ≤ r ∨ (lvl = 2 ∧ der - hys ≤ r) then 2
            else if warn ≤ r ∨ (1 ≤ lvl ∧ warn - hys ≤ r) then 1 else 0) ∧
          (lvl < 1 → 1 ≤ up → d.pended e q Ev.CBL.ROR_WARN) ∧
          (lvl < 2 → 2 ≤ up → d.pended e q Ev.CBL.ROR_DERATE ∧ (e.cblRec q).derNew = true) ∧
          (up = 3 → d.pended e q Ev.CBL.ROR_TRIP ∧ d.sesStopped e q 3)))) ∧
    (d.on q CBL_CFG.EN = false ∨ ix ≤ (d.cblRec q).rorIx → Waits (.rorEvaluation t q) t s) ∧
    (let w := Dev.arrive t p s.dev; w.reached p .cbl q 0x47C → w.passes .cbl q 0x47C v = true →
      (v.toNat = 1 → w.rdI q CBL_ROR.RATE < warn - hys → Takes (.rorTripClear t p q v) s .cbl q 0x47C fun e =>
        e.rd q CBL_STAT.LEVEL = (if lvl = 3 then 0 else lvl) ∧ RegsOnly w e ∧
        SameRegs (fun a => a = pageIx .cbl q * 4096 + CBL_STAT.LEVEL.off) w e) ∧
      (v.toNat = 1 → warn - hys ≤ w.rdI q CBL_ROR.RATE → Refuses (.rorTripClear t p q v) s w .cbl q 0x47C 0x80) ∧
      (v.toNat = 0 → Takes (.rorTripClear t p q v) s .cbl q 0x47C fun e => e = w)) ∧
    (d.domOn .core = true → let at1 (l : Nat) : Int := d.rd 0 DTM_THR.T1 + ((l : Int) - 1) * d.rd 0 DTM_THR.STEP
      let was := d.rd 0 DTM_STAT.LEVEL;
      Ends (.dieSensorRead t ts) s fun e => let l := e.rd 0 DTM_STAT.LEVEL;
        (∀ k < 8, e.rdI 0 (DTM_TEMP.T k) = satS 16 (ts.getD k 0) ∧ (e.on 0 (DTM_TEMP.VALID k) = !e.dieBad k)) ∧
        e.rd 0 DTM_STAT.PAUSE_US = dtmPause l ∧
        (3 ≤ ((List.range 6).filter e.dieBad).length → l = 7) ∧
        (was = 0 → 0 < l → d.pended e 0 Ev.DTM.THROTTLE_ON) ∧ (0 < was → l = 0 → d.pended e 0 Ev.DTM.THROTTLE_OFF) ∧
        (((List.range 6).filter e.dieBad).length < 3 → ∀ m : Int, (∃ k < 8, e.dieBad k = false ∧ e.rdI 0 (DTM_TEMP.T k) = m) →
          (∀ k < 8, e.dieBad k = false → e.rdI 0 (DTM_TEMP.T k) ≤ m) →
          (∀ j, 1 ≤ j → j ≤ 7 → at1 j ≤ m → j ≤ l) ∧ (1 ≤ l → at1 l - d.rd 0 DTM_THR.HYS ≤ m) ∧
          (l ≤ was ∨ at1 l ≤ m) ∧ (was ≤ l ∨ m < at1 (l + 1) - d.rd 0 DTM_THR.HYS) ∧
          e.rdI 0 DTM_PEAK.T = max (d.rdI 0 DTM_PEAK.T) m)) ∧
    (d.domOn .core = false → Ends (.dieSensorRead t ts) s fun e => e.regs = d.regs)

/-- Load-switch trips and supply dips (R183, R185, R188, R189): a step's accumulator stays at most 2^30, falls or stands
below the lowest curve current and rises above it, on and off, and at 2^30 an ON channel is TRIPPED, or LOCKOUT with no
restart left; a short trips a channel at once with fault SHORT, whichever its state, but for one switched off in that very
step, which stays OFF (R191), and one in LOCKOUT. A channel that is not enabled and has no curve accumulates nothing (DESIGN
CHOICE, log entry 330). Two measurements below 5.5 V turn every ON channel UV_OFF with its gate off; after
10 ms above 9 V those with RECOVER return in ascending order, 10 ms apart, the others are OFF. A restart is counted; 
the counters return to 0 after RESET_S on. -/
def Obligations.LoadSwitchTripsAndSupply : Prop :=
  ∀ (t : Nat) (n : Fin 24) (uv : List Int) (mv : Nat) (s : State), let d := Dev.at t s.dev; let x := d.lswRec n
    let st := d.lswState n; let after := if d.rd n LSW_RETRY.MAX ≤ d.rd n LSW_STAT.RETRIES then 4 else 3;
    (d.domOn .core = true →
      (d.on n LSW_CFG.EN = true ∨ d.rd n (LSW_CURVE_I.MA 7) ≠ 0 → d.rd n LSW_ACC.A ≤ 2 ^ 30 → Ends (.lswStep t n uv) s fun e => e.rd n LSW_ACC.A ≤ 2 ^ 30 ∧
        (d.lswIeff n uv < d.rd n (LSW_CURVE_I.MA 0) → e.rd n LSW_ACC.A ≤ d.rd n LSW_ACC.A) ∧
        (d.rd n (LSW_CURVE_I.MA 0) ≤ d.lswIeff n uv → e.rd n LSW_ACC.A = 2 ^ 30 ∨ d.rd n LSW_ACC.A < e.rd n LSW_ACC.A) ∧
        (e.rd n LSW_ACC.A = 2 ^ 30 → st = 1 ∨ st = 2 → e.lswState n = after ∧ e.rd n LSW_STAT.GATE = 0)) ∧
      Ends (.lswShortTrip t n) s fun e => e.rd n LSW_ACC.A = 2 ^ 30 ∧
        e.rd n LSW_STAT.FAULT = 2 ∧ e.rd n LSW_TRIPS.COUNT = (d.rd n LSW_TRIPS.COUNT + 1) % 2 ^ 32 ∧
        d.pended e n Ev.LSW.TRIP_SHORT ∧ (st = 4 ∨ d.lswOffNow n = true → e.lswState n = st) ∧
        (st ≠ 4 → d.lswOffNow n = false → e.lswState n = after ∧ e.rd n LSW_STAT.GATE = 0)) ∧
    (d.domOn .core = false ∨ (d.on n LSW_CFG.EN = false ∧ d.rd n (LSW_CURVE_I.MA 7) = 0) → Waits (.lswStep t n uv) t s) ∧
    (d.domOn .core = false → Waits (.lswShortTrip t n) t s) ∧
    Ends (.vaux24Measure t mv) s (fun e => ∀ k < 24, e.rd k LSW_VAUX.MV = min mv (2 ^ 16 - 1) ∧
      e.rd k LSW_STAT.UV_HOLD = (if mv < 900 then 1 else 0) ∧ e.lswState k = d.lswState k) ∧
    (2 ≤ d.vaux.low → Ends (.lswUvOff t) s fun e => ∀ k < 24,
      e.lswState k = (if d.lswOn k then 5 else d.lswState k) ∧
      (d.lswOn k = true → e.rd k LSW_STAT.GATE = 0 ∧ (e.lswRec k).prev = d.lswState k ∧ d.pended e k Ev.LSW.UV_OFF)) ∧
    (d.vaux.low < 2 → Waits (.lswUvOff t) t s) ∧
    (d.vauxGood = true → let waits (k : Nat) : Prop := k < 24 ∧ d.lswState k = 5 ∧ (d.lswRec k).uvAt = none;
      Ends (.lswUvRecover t) s fun e => (∀ k, waits k → d.pended e k Ev.LSW.UV_RECOVER ∧
        (d.on k LSW_CFG.RECOVER = true → ∃ a, (e.lswRec k).uvAt = some a ∧ d.now ≤ a) ∧
        (d.on k LSW_CFG.RECOVER = false → e.lswState k = 0)) ∧
      ∀ j k a b, waits j → waits k → j < k → d.on j LSW_CFG.RECOVER = true → d.on k LSW_CFG.RECOVER = true →
        (e.lswRec j).uvAt = some a → (e.lswRec k).uvAt = some b → a + 10 * ticksPerMs ≤ b) ∧
    (d.vauxGood = false → Waits (.lswUvRecover t) t s) ∧
    (∀ a, x.uvAt = some a → st = 5 →
      (a ≤ d.now → Ends (.lswUvStaggerOn t n) s fun e => (d.on n LSW_STAT.TLATCH = true → e.lswState n = 3) ∧
        (d.on n LSW_STAT.TLATCH = false → x.prev < 16 → e.lswState n = x.prev)) ∧
      (d.now < a → Waits (.lswUvStaggerOn t n) t s)) ∧
    (st = 3 → x.retry = true → x.tripAt + d.rd n LSW_RETRY.DELAY_MS * ticksPerMs ≤ d.now → d.on n LSW_STAT.TLATCH = false →
      d.rd n LSW_ACC.A * 100 ≤ d.rd n LSW_RETRY.REARM_PCT * 2 ^ 30 → d.vaux.above ≠ none →
      d.rd n LSW_STAT.RETRIES < d.rd n LSW_RETRY.MAX → x.prev < 16 → Ends (.lswRetryRestart t n) s fun e =>
        e.lswState n = x.prev ∧ e.rd n LSW_STAT.RETRIES = d.rd n LSW_STAT.RETRIES + 1 ∧ d.pended e n Ev.LSW.RETRY) ∧
    (st ≠ 3 ∨ x.retry = false ∨ d.on n LSW_STAT.TLATCH = true ∨ d.rd n LSW_RETRY.MAX ≤ d.rd n LSW_STAT.RETRIES →
      Waits (.lswRetryRestart t n) t s) ∧
    (d.lswOn n = true → x.onAt + d.rd n LSW_RETRY2.RESET_S * ticksPerS ≤ d.now → Ends (.lswCounterReset t n) s fun e =>
      e.rd n LSW_STAT.RETRIES = 0 ∧ e.rd n LSW_STAT.THTRIPS = 0 ∧ e.lswState n = st ∧ RegsOnly d e) ∧
    (d.lswOn n = false ∨ d.now < x.onAt + d.rd n LSW_RETRY2.RESET_S * ticksPerS → Waits (.lswCounterReset t n) t s)

/-- Load-switch operations and commands (R181, R190, R192): an operation issued into a slot switches its channel OFF (a
channel in LOCKOUT stays so, but for a lockout of this very step: R191), ON, or to PWM with its duty; a channel that is not enabled, tripped, locked out, off for
undervoltage or latched ends LSW_ON and LSW_PWM with status 2 and stays as it is; without CORE each ends with status 8.
LSW_CLR with the current fault clears it and the counters, and a LOCKOUT becomes OFF; another code is refused. LSW_DUTY is
refused while the auxiliary loop owns the channel. -/
def Obligations.LoadSwitchCommands : Prop :=
  ∀ (t : Nat) (p : Port) (slot : Fin 384) (o : Op) (n : Fin 24) (v : Word) (s : State), let d := Dev.at t s.dev;
    (d.opAt slot = some o → o.phase = .issued → o.arg 8 1 = n →
      let st := d.lswState n; let may := d.on n LSW_CFG.EN && decide (st < 3) && !d.on n LSW_STAT.TLATCH;
      (d.domOn .core = true →
        (o.kind = OK.LSW_OFF → Ends (.lswOff t slot) s fun e => e.opEnds slot 0 ∧
          e.lswState n = (if st = 4 ∧ sameStep (d.lswRec n).faultAt d.now = false then 4 else 0) ∧
          (e.lswRec n).retry = false ∧ (e.lswState n = 0 → e.rd n LSW_STAT.GATE = 0)) ∧
        (o.kind = OK.LSW_ON → Ends (.lswOn t slot) s fun e => e.opEnds slot (if may then 0 else 2) ∧
          e.lswState n = if may then 1 else st) ∧
        (o.kind = OK.LSW_PWM → Ends (.lswPwm t slot) s fun e => e.opEnds slot (if may then 0 else 2) ∧
          e.lswState n = (if may then 2 else st) ∧
          e.rd n LSW_DUTY.DUTY = if may then o.arg 12 2 % 2 ^ 16 else d.rd n LSW_DUTY.DUTY)) ∧
      (d.domOn .core = false → (o.kind = OK.LSW_OFF → Ends (.lswOff t slot) s fun e => e.opEnds slot 8 ∧ e.regs = d.regs) ∧
        (o.kind = OK.LSW_ON → Ends (.lswOn t slot) s fun e => e.opEnds slot 8 ∧ e.regs = d.regs) ∧
        (o.kind = OK.LSW_PWM → Ends (.lswPwm t slot) s fun e => e.opEnds slot 8 ∧ e.regs = d.regs))) ∧
    (let w := Dev.arrive t p s.dev;
      (w.reached p .lsw n 0x454 → w.passes .lsw n 0x454 v = true →
        (v.toNat = w.rd n LSW_STAT.FAULT → Takes (.lswClear t p n v) s .lsw n 0x454 fun e => e.rd n LSW_STAT.FAULT = 0 ∧
          e.rd n LSW_STAT.RETRIES = 0 ∧ e.rd n LSW_STAT.THTRIPS = 0 ∧
          e.lswState n = if w.lswState n = 4 then 0 else w.lswState n) ∧
        (v.toNat ≠ w.rd n LSW_STAT.FAULT → Refuses (.lswClear t p n v) s w .lsw n 0x454 0x81)) ∧
      (w.reached p .lsw n 0x440 → w.passes .lsw n 0x440 v = true →
        (w.on n LSW_CFG.AUXOWN = false → Takes (.lswDutyWrite t p n v) s .lsw n 0x440 fun e =>
          e.rd n LSW_DUTY.DUTY = v.toNat ∧ e.lswState n = w.lswState n) ∧
        (w.on n LSW_CFG.AUXOWN = true → Refuses (.lswDutyWrite t p n v) s w .lsw n 0x440 0x83)))

/-- Auxiliary loops (R104, R105): at each point of the 1 ms grid a loop with a good input shows it and puts out a value
within its limits; with a bad one it puts out AUX_FAILSAFE, holds its state and shows SRC_BAD, at once when the input turns
bad. A loop that does not run, or has taken this point, does nothing. -/
def Obligations.AuxiliaryLoops : Prop :=
  ∀ (t : Nat) (n : Fin 16) (s : State), let d := Dev.at t s.dev; let ix := d.now / ticksPerMs
    let fails (e : Dev) : Prop := e.rdI n AUX_U.U = d.rdI n AUX_FAILSAFE.U ∧ (e.auxRec n).pid = (d.auxRec n).pid ∧
      e.rd n AUX_STAT.SRC_BAD = 1 ∧ e.stands n Ev.AUX.SRC_BAD
    (d.auxOn n = true → (d.auxRec n).ix < ix →
      (∀ m, d.auxIn n = some m → d.rdI n AUX_UMIN.U ≤ d.rdI n AUX_UMAX.U → Ends (.auxSample t n) s fun e =>
        (e.auxRec n).ix = ix ∧ e.rdI n AUX_MEAS.MEAS = satS 32 m ∧ e.rd n AUX_STAT.SRC_BAD = 0 ∧
        d.rdI n AUX_UMIN.U ≤ e.rdI n AUX_U.U ∧ e.rdI n AUX_U.U ≤ d.rdI n AUX_UMAX.U ∧ (∀ m ≠ n.val, e.auxRec m = d.auxRec m)) ∧
      (d.auxIn n = none → Ends (.auxSample t n) s fun e => (e.auxRec n).ix = ix ∧ fails e)) ∧
    (d.auxOn n = false ∨ ix ≤ (d.auxRec n).ix → Waits (.auxSample t n) t s) ∧
    (d.auxOn n = true → d.auxIn n = none → Ends (.auxSrcBad t n) s fails) ∧
    (d.auxOn n = false ∨ d.auxIn n ≠ none → Waits (.auxSrcBad t n) t s)

/-! ### Sessions and vehicle interfaces -/

/-- The commands that set a session's targets and course (R204, R205, R208, Table SES-3): VALIDATE makes the pending set
active as a whole and clears PEND and HOLD; REJECT clears PEND alone; REFRESH restarts the timer; START makes a LINKED
session with a validated set, on a released unit and an idle point, AUTHORISED; END_REQ and END_WITHDRAW set and clear
ENDREQ. In another state each is refused with 0x80, with a stale PSEQ with 0x81, START without a validated set with
0x82. A row boundary that has come turns before the write (R59).
Writes of the pending target set (R204): each sets its field of the selected session within the point's rating, counts
PSEQ and sets PEND; beyond the rating it is refused with RANGE, on a slot that holds no session in a state from CONNECTED
to ENDING with 0x80. -/
def Obligations.SessionTargetsAndStart : Prop :=
  (∀ (t : Nat) (p : Port) (v : Word) (s : State), let w := Dev.arrive t p s.dev; let d := w.rowCatch
    let m := v.toNat / 2 ^ 16 % 64; let st := d.sesState m; let q := d.rd 0 (SES_STAT.POINT m); let x := d.sesRec m
    let pend := d.on 0 (SES_STAT.PEND m); let same := v.toNat % 65536 = x.pseq; let op := v.toNat / 2 ^ 28;
    w.reached p .ses 0 0x444 → w.passes .ses 0 0x444 v = true →
    (op = 1 → (1 ≤ st → st ≤ 4 → pend = true → same → Takes (.sesValidate t p v) s .ses 0 0x444 fun e =>
        let y := e.sesRec m;
        y.aimax = x.pimax ∧ y.apmax = x.ppmax ∧ y.avpres = x.pvpres ∧ y.avtgt = x.pvtgt ∧ y.aclass = x.pclass ∧
        y.validated = true ∧ y.refreshAt = x.refreshAt.map (fun _ => d.now) ∧ e.rd 0 (SES_STAT.PEND m) = 0 ∧
        e.rd 0 (SES_STAT.HOLD m) = 0 ∧ e.sesState m = st ∧ (∀ k ≠ m, e.sesRec k = d.sesRec k)) ∧
      (st = 0 ∨ 5 ≤ st ∨ pend = false → Refuses (.sesValidate t p v) s w .ses 0 0x444 0x80) ∧
      (1 ≤ st → st ≤ 4 → pend = true → ¬same → Refuses (.sesValidate t p v) s w .ses 0 0x444 0x81)) ∧
    (op = 2 → (1 ≤ st → st ≤ 4 → pend = true → same → Takes (.sesReject t p v) s .ses 0 0x444 fun e =>
        e.rd 0 (SES_STAT.PEND m) = 0 ∧ e.ses = d.ses ∧ e.sesState m = st) ∧
      (st = 0 ∨ 5 ≤ st ∨ pend = false → Refuses (.sesReject t p v) s w .ses 0 0x444 0x80)) ∧
    (op = 3 → (st = 3 ∨ st = 4 → Takes (.sesRefresh t p v) s .ses 0 0x444 fun e =>
        e.rd 0 (SES_STAT.HOLD m) = 0 ∧ (e.sesRec m) = { x with refreshAt := x.refreshAt.map fun _ => d.now } ∧ e.sesState m = st) ∧
      (st < 3 ∨ 5 ≤ st → Refuses (.sesRefresh t p v) s w .ses 0 0x444 0x80)) ∧
    (op = 4 → let free := d.on 0 SYS_STAT.RELEASED && !d.on 0 CLK_STAT.FB && d.ptState q = 0 && !d.ptLocked q &&
        (List.range 64).all fun k => k = m || d.rd 0 (SES_STAT.POINT k) ≠ q || d.sesState k < 3 || 5 < d.sesState k;
      (st = 2 → x.validated = true → free = true → Takes (.sesStart t p v) s .ses 0 0x444 fun e =>
        e.sesState m = 3 ∧ (e.sesRec m).refreshAt = some d.now ∧ d.pended e 0 Ev.SES.AUTHORISED) ∧
      (st ≠ 2 → Refuses (.sesStart t p v) s w .ses 0 0x444 0x80) ∧
      (st = 2 → x.validated = false → Refuses (.sesStart t p v) s w .ses 0 0x444 0x82) ∧
      (st = 2 → x.validated = true → free = false → Refuses (.sesStart t p v) s w .ses 0 0x444 0x83)) ∧
    (op = 5 → (st = 3 ∨ st = 4 → Takes (.sesEndReq t p v) s .ses 0 0x444 fun e => e.rd 0 (SES_STAT.ENDREQ m) = 1 ∧
        e = d.wrB 0 (SES_STAT.ENDREQ m) true) ∧
      (st < 3 ∨ 5 ≤ st → Refuses (.sesEndReq t p v) s w .ses 0 0x444 0x80)) ∧
    (op = 6 → (st = 3 ∨ st = 4 → d.on 0 (SES_STAT.ENDREQ m) = true → Takes (.sesEndWithdraw t p v) s .ses 0 0x444 fun e =>
        e.rd 0 (SES_STAT.ENDREQ m) = 0 ∧ e.ses = d.ses ∧ e.sesState m = st) ∧
      (st < 3 ∨ 5 ≤ st ∨ d.on 0 (SES_STAT.ENDREQ m) = false → Refuses (.sesEndWithdraw t p v) s w .ses 0 0x444 0x80))) ∧
  (∀ (t : Nat) (p : Port) (v : Word) (s : State), let w := Dev.arrive t p s.dev; let d := w.rowCatch
    let m := d.rd 0 SES_WSEL.SES; let st := d.sesState m; let q := d.rd 0 (SES_STAT.POINT m); let x := d.sesRec m
    let n := (x.pseq + 1) % 65536; let u := v.toNat; let vmax := d.rd q OUT_VMAX.MV;
    ∀ off ∈ [0x480, 0x484, 0x488, 0x48C, 0x490], w.reached p .ses 0 off → w.passes .ses 0 off v = true →
      let lim := if off = 0x480 then d.rd q OUT_IMAX.MA else if off = 0x484 then d.rd q OUT_PMAX.W
        else if off = 0x490 then 3 else vmax
      let y : Ses := if off = 0x480 then { x with pimax := u, pseq := n } else if off = 0x484 then { x with ppmax := u, pseq := n }
        else if off = 0x488 then { x with pvpres := u, pseq := n } else if off = 0x48C then { x with pvtgt := u, pseq := n }
        else { x with pclass := u, pseq := n };
      (1 ≤ st → st ≤ 5 → u ≤ lim → Takes (.pendingTargetWrite t p off v) s .ses 0 off fun e =>
        e.sesRec m = y ∧ e.rd 0 (SES_STAT.PEND m) = 1 ∧ e.sesState m = st ∧ (∀ k ≠ m, e.sesRec k = d.sesRec k)) ∧
      (1 ≤ st → lim < u → Refuses (.pendingTargetWrite t p off v) s w .ses 0 off RC.RANGE) ∧
      (st = 0 ∨ (6 ≤ st ∧ u ≤ lim) → Refuses (.pendingTargetWrite t p off v) s w .ses 0 off 0x80))

/-- A session's end (R207 to R210, R59, Table SES-3), a row boundary that has come turning before a write: STOP ends a live one with cause 10, VEHOPEN lets an ENDING one's point
leave VEHWAIT, RELEASE frees the slot of an ended or interrupted one and keeps its GEN. A session that waits too long for
its link ends with cause 12, for its authorisation with 13 (AUTHWAIT_S 0 turns that off), without a refresh at twice
TMO_MS with 11; at TMO_MS its current is held at the active setpoint. Short of the time nothing happens, nor where a refresh
of the same cycle still waits. -/
def Obligations.SessionsEnd : Prop :=
  ∀ (t : Nat) (p : Port) (v : Word) (m : Fin 64) (s : State), let d := Dev.at t s.dev; let x := d.sesRec m
    let ended (e : Dev) (c : Nat) : Prop := e.rd 0 (SES_STAT.CAUSE m) = c ∧ (e.sesState m = 5 ∨ e.sesState m = 6);
    (let w := Dev.arrive t p s.dev; let r := w.rowCatch; let st := r.sesState m; let op := v.toNat / 2 ^ 28
      let q := r.rd 0 (SES_STAT.POINT m);
      w.reached p .ses 0 0x444 → w.passes .ses 0 0x444 v = true → v.toNat / 2 ^ 16 % 64 = m →
      (op = 7 → (1 ≤ st → st ≤ 4 → Takes (.sesStop t p v) s .ses 0 0x444 fun e => ended e 0x0A) ∧
        (st = 0 ∨ 5 ≤ st → Refuses (.sesStop t p v) s w .ses 0 0x444 0x80)) ∧
      (op = 8 → (st = 5 → Takes (.sesVehopen t p v) s .ses 0 0x444 fun e => (e.point q).vehOpen = true ∧
          e.ptState q = (if r.ptState q = 6 then 7 else r.ptState q)) ∧
        (st ≠ 5 → Refuses (.sesVehopen t p v) s w .ses 0 0x444 0x80)) ∧
      (op = 9 → ((st = 6 ∨ st = 7) → r.connected q = false → Takes (.sesRelease t p v) s .ses 0 0x444 fun e =>
          e.sesState m = 0 ∧ e.rd 0 (SES_STAT.GEN m) = r.rd 0 (SES_STAT.GEN m) ∧ e.sesRec m = {} ∧
          (r.liveSes q = none → SameRegs (fun a => a = pageIx .ses 0 * 4096 + 0x500 + 4 * m) r e)) ∧
        (st < 6 ∨ 7 < st → Refuses (.sesRelease t p v) s w .ses 0 0x444 0x80))) ∧
    (d.sesState m = 1 → x.waitAt + d.rd 0 SES_CFG.LINKWAIT_S * ticksPerS ≤ d.now →
      Ends (.linkwaitTimeout t m) s fun e => ended e 0x0C) ∧
    (d.sesState m ≠ 1 ∨ d.now < x.waitAt + d.rd 0 SES_CFG.LINKWAIT_S * ticksPerS → Waits (.linkwaitTimeout t m) t s) ∧
    (d.sesState m = 2 → d.rd 0 SES_CFG.AUTHWAIT_S ≠ 0 → x.waitAt + d.rd 0 SES_CFG.AUTHWAIT_S * ticksPerS ≤ d.now →
      Ends (.authwaitTimeout t m) s fun e => ended e 0x0D) ∧
    (d.sesState m ≠ 2 ∨ d.rd 0 SES_CFG.AUTHWAIT_S = 0 → Waits (.authwaitTimeout t m) t s) ∧
    (s.refreshComes t m = true → Waits (.refreshHold t m) t s ∧ Waits (.refreshTmo t m) t s) ∧
    (∀ a, x.refreshAt = some a → s.refreshComes t m = false →
      (a + d.rd 0 SES_CFG.TMO_MS * ticksPerMs ≤ d.now → d.on 0 (SES_STAT.HOLD m) = false → Ends (.refreshHold t m) s fun e =>
        e.rd 0 (SES_STAT.HOLD m) = 1 ∧ (e.sesRec m).holdI = d.rdI 0 (ALC_PTSET.MA (d.rd 0 (SES_STAT.POINT m))) ∧
        d.pended e 0 Ev.SES.REFRESH_HOLD ∧ e.sesState m = d.sesState m) ∧
      (1 ≤ d.sesState m → d.sesState m ≤ 4 → a + 2 * d.rd 0 SES_CFG.TMO_MS * ticksPerMs ≤ d.now →
        Ends (.refreshTmo t m) s fun e => ended e 0x0B) ∧
      (d.now < a + d.rd 0 SES_CFG.TMO_MS * ticksPerMs → Waits (.refreshHold t m) t s ∧ Waits (.refreshTmo t m) t s)) ∧
    (x.refreshAt = none → Waits (.refreshHold t m) t s ∧ Waits (.refreshTmo t m) t s)

/-- The pilot, ID and CE signals (R195 to R198, R209, R210): the drive follows the point's conditions, F making the state
F, and an IO node that has not been given it is given it; a state that has stood for FILT_MS is accepted, A ending the
point's session with cause 7, B a CHARGING one with 9; an INVALID or E pilot for INV_MS ends it with cause 5, an ID class
that has stood for FILT_MS is accepted, UNPLUGGED ending it with 7, a readback of CE against its drive for CE_MS ends it
with 6. -/
def Obligations.PilotIdAndCe : Prop :=
  ∀ (t : Nat) (q : Fin 32) (hi lo mv : Int) (s : State), let d := Dev.at t s.dev; let x := d.veh q; let v := d.driveOf q
    let cp := d.rd 0 (VCM_CP.CP q); let filt := d.rd 0 VCM_CPFILT.FILT_MS * ticksPerMs;
    (d.vehOn q = true → d.rd 0 (VCM_CP.DRIVE q) ≠ v ∨ d.nodeUndriven q v = true → Ends (.pilotDriveChange t q) s fun e =>
      e.rd 0 (VCM_CP.DRIVE q) = v ∧ e.rd 0 (VCM_CP.CP q) = (if v = 2 then 5 else cp) ∧
      (d.rd 0 (VCM_PT_A.PSRC q) = 1 → d.nodeUp (d.rd 0 (VCM_PT_A.PORT q)) (d.rd 0 (VCM_PT_A.NODE q)) = true →
        (e.veh q).driven = some v ∧ ∃ r, e.skn.reqs = d.skn.reqs ++ [r] ∧ r.port = d.rd 0 (VCM_PT_A.PORT q) ∧
          r.pos = d.rd 0 (VCM_PT_A.NODE q) ∧ r.op = 0 ∧ r.index = d.rd 0 (VCM_PT_A.CHBASE q) ∧ r.value = (v : Int))) ∧
    (d.vehOn q = false ∨ (d.rd 0 (VCM_CP.DRIVE q) = v ∧ d.nodeUndriven q v = false) → Waits (.pilotDriveChange t q) t s) ∧
    (d.vehOn q = true → d.rd 0 (VCM_CP.DRIVE q) ≠ 2 → d.rd 0 (VCM_PT_A.PSRC q) = 0 → Ends (.pilotSample t q hi lo) s fun e =>
      (e.veh q).cand = pilotBand hi lo (decide (d.rd 0 (VCM_CP.DRIVE q) = 1)) ∧ e.rdI 0 (VCM_CP.VHI q) = satS (VCM_CP.VHI q).width (rdiv hi 10) ∧
      (x.cand = (e.veh q).cand → (e.veh q).candAt = x.candAt) ∧ e.rd 0 (VCM_CP.CP q) = cp) ∧
    (d.vehOn q = false ∨ d.rd 0 (VCM_CP.DRIVE q) = 2 → Waits (.pilotSample t q hi lo) t s) ∧
    (let held := d.vehOn q = true ∧ d.rd 0 (VCM_CP.DRIVE q) ≠ 2 ∧ x.cand ≠ 7 ∧ x.candAt + filt ≤ d.now
      let rearms := x.cand ≠ 4 ∧ x.cand ≠ 6 ∧ x.badRaised = true;
      (held → x.cand < 7 → x.cand ≠ cp → Ends (.pilotStateAccept t q) s fun e =>
        e.rd 0 (VCM_CP.CP q) = x.cand ∧ d.pended e 0 Ev.VCM.CP_CHANGE ∧ (x.cand = 0 → d.sesStopped e q 0x07) ∧
        (∀ m, x.cand = 1 → d.liveSes q = some m → d.sesState m = 4 → d.sesStopped e q 0x09)) ∧
      (held → x.cand = cp → rearms → Ends (.pilotStateAccept t q) s fun e =>
        e.veh q = { x with badRaised := false } ∧ e.regs = d.regs ∧ e.ses = d.ses) ∧
      (¬held ∨ (x.cand = cp ∧ ¬rearms) → Waits (.pilotStateAccept t q) t s)) ∧
    (∀ a, x.badAt = some a → d.vehOn q = true → x.badRaised = false → a + d.rd 0 VCM_CPFILT.INV_MS * ticksPerMs ≤ d.now →
      Ends (.pilotFault t q) s fun e => (e.veh q).badRaised = true ∧ d.pended e 0 Ev.VCM.PILOT_FAULT ∧ d.sesStopped e q 0x05) ∧
    (x.badAt = none ∨ x.badRaised = true → Waits (.pilotFault t q) t s) ∧
    (d.vehOn q = true → d.rd q OUT_CFG.TYPE = 0 → d.rd 0 (VCM_PT_A.PSRC q) = 0 →
      let c := d.idClass mv; let since := if x.idCand = c then x.idAt else d.now; let bad := x.ceBadAt.getD d.now
      let agrees := decide (d.rd 0 (VCM_CP.CE q) % 2 = 1) = decide (10 * (d.rd 0 VCM_CE.CE_TH : Int) ≤ mv)
      let late := bad + d.rd 0 VCM_CE.CE_MS * ticksPerMs ≤ d.now;
      (c ≠ d.rd 0 (VCM_CP.ID q) → since + filt ≤ d.now → Ends (.idStateAccept t q mv) s fun e =>
        e.rd 0 (VCM_CP.ID q) = c ∧ d.pended e 0 Ev.VCM.ID_CHANGE ∧ (c = 0 → d.sesStopped e q 0x07)) ∧
      (c = d.rd 0 (VCM_CP.ID q) ∨ d.now < since + filt → Ends (.idStateAccept t q mv) s fun e =>
        e.veh q = { x with idCand := c, idAt := since } ∧ e.regs = d.regs ∧ e.ses = d.ses) ∧
      (¬agrees → x.ceRaised = false → late → Ends (.ceFault t q mv) s fun e => (e.veh q).ceRaised = true ∧
        d.pended e 0 Ev.VCM.CE_FAULT ∧ d.sesStopped e q 0x06) ∧
      (¬agrees → x.ceRaised = true ∨ ¬late → Ends (.ceFault t q mv) s fun e => e.veh q = { x with ceBadAt := some bad } ∧
        e.rd 0 (VCM_CP.CE q) / 2 = 0 ∧ e.ses = d.ses) ∧
      (agrees → Ends (.ceFault t q mv) s fun e => e.veh q = { x with ceRaised := false, ceBadAt := none } ∧
        e.rd 0 (VCM_CP.CE q) / 2 = 1 ∧ e.ses = d.ses)) ∧
    (d.vehOn q = false ∨ d.rd q OUT_CFG.TYPE ≠ 0 → Waits (.idStateAccept t q mv) t s ∧ Waits (.ceFault t q mv) t s)

/-- Vehicle links and frames (R199 to R202, R207, R214): a link that comes up makes a CONNECTED session LINKED, one that is
lost makes a LINKED or AUTHORISED one CONNECTED, a Green PHY link coming up by its match alone and carrying frames only
while it is matched; a frame to the point is stored in the receive ring, one with a bad FCS or
without room is dropped and counted, one to another address leaves no trace; a tunnelled frame in one fragment is received
likewise. TX_VEH sends the payload named by its operation with its FCS, and ends with status 6 where no link carries it. -/
def Obligations.VehicleLinksAndFrames : Prop :=
  ∀ (t : Nat) (q : Fin 32) (up ok : Bool) (f : List Byte) (k : Fin 12) (slot : Fin 384) (o : Op) (s : State), let d := Dev.at t s.dev
    let lt := d.rd 0 (VCM_PT_B.LTYPE q); let room := d.vcm.rxUsed < d.rd 0 VCM_RX.NSLOT;
    let served := lt = 1 ∨ (lt = 2 ∧ d.gpMatched q = true);
    (d.vehOn q = true → lt = 1 ∨ lt = 3 ∨ (lt = 2 ∧ up = false) →
      let b := if lt = 3 then decide (d.input (d.rd 0 (VCM_PT_B.PORT q)) (d.rd 0 (VCM_PT_B.NODE q)) (240 + d.rd 0 (VCM_PT_B.IDX q)) = some 1)
        else up;
      Ends (.vehLinkChange t q up) s fun e => e.linkUp q = b ∧
        (lt = 2 → e.rd 0 (VCM_SLAC.STATE (d.rd 0 (VCM_PT_B.IDX q))) = 0) ∧ (d.linkUp q = b → lt ≠ 2 → e = d) ∧
        (∀ m, d.linkUp q ≠ b → d.liveSes q = some m → b = true → d.sesState m = 1 → e.sesState m = 2) ∧
        (∀ m, d.linkUp q ≠ b → d.liveSes q = some m → b = false → d.sesState m = 2 ∨ d.sesState m = 3 → e.sesState m = 1)) ∧
    (d.vehOn q = false ∨ lt = 0 ∨ (lt = 2 ∧ up = true) → Waits (.vehLinkChange t q up) t s) ∧
    (d.vehOn q = false ∨ ¬served → Waits (.vehFrameRx t q f ok) t s) ∧
    (d.vehOn q = true → served →
      (ok = false → Ends (.vehFrameRx t q f ok) s fun e => e = d.inc 0 VCM_RXDROP.COUNT) ∧
      (ok = true → d.macPass q f = false → Waits (.vehFrameRx t q f ok) t s) ∧
      (ok = true → 14 ≤ f.length → f.length ≤ 1518 → d.macPass q f = true →
        (room → ∃ u, exec (.vehFrameRx t q f ok) s = .next u ∧ d.stored u q f ∧ u.mem.mram = s.mem.mram ∧ u.pending = s.pending) ∧
        (¬room → Ends (.vehFrameRx t q f ok) s fun e => e.rd 0 VCM_RXDROP.COUNT = (d.rd 0 VCM_RXDROP.COUNT + 1) % 2 ^ 32 ∧
          d.pended e 0 Ev.VCM.RX_DROP))) ∧
    (let bs := (f.drop 8).take (leAt f 2 1); let home := d.homePort k;
      d.rxTakes k 0x50 f → leAt f 3 1 = 128 → d.tunPoint home (framePos f) (leAt f 6 1) = some q.val → d.vehOn q = true →
      14 ≤ bs.length → d.macPass q bs = true → room →
      ∃ u, exec (.tunRx t k f) s = .next u ∧ d.stored u q bs ∧ u.mem.mram = s.mem.mram ∧ u.pending = s.pending) ∧
    (d.opAt slot = some o → o.phase = .issued → o.kind = OK.TX_VEH → o.arg 8 1 = q →
      let f := s.mem.sram.getBytes (o.arg 16 4) (o.arg 10 2);
      (d.domOn .vcm = false → Ends (.txVeh t slot) s fun e => e.opEnds slot 8 ∧ e.sent = d.sent) ∧
      (d.domOn .vcm = true → o.replayed = false → d.on 0 (VCM_PT_A.EN q) = false ∨ d.linkUp q = false ∨ lt = 0 ∨
          (lt = 2 ∧ d.gpMatched q = false) → Ends (.txVeh t slot) s fun e => e.opEnds slot 6 ∧ e.sent = d.sent) ∧
      (d.domOn .vcm = true → o.replayed = false → d.on 0 (VCM_PT_A.EN q) = true → d.linkUp q = true → served →
        Ends (.txVeh t slot) s fun e => e.opEnds slot 0 ∧ (d.plySilent = false → e.sent = .veh q (f ++ ethFcs f) :: d.sent)))

/-- SLAC on a Green PHY coupling (R202, R214, R218): a vehicle's request on a coupling with a live session starts its run;
of a run sounded within 10 s of it (PRESUMED, log entry 322) on one coupling that coupling answers, sounded on several without a clear least attenuation the run fails;
the match of that run makes the link up with a NID and an NMK drawn for it; on a matched link that is up a join is answered
with the NID, a key exchange with the NMK (DESIGN CHOICE, log entry 323), and a leave takes the link down. Where no session
is served, or no link matched, nothing happens. -/
def Obligations.SlacRuns : Prop :=
  ∀ (t : Nat) (g : Fin 4) (run mac : Nat) (att : List Nat) (s : State), let d := Dev.at t s.dev;
    (∀ m, d.gpSes g = some m → Ends (.slacParmReq t g run mac) s fun e => e.rd 0 (VCM_SLAC.STATE g) = 1 ∧
      e.rd 0 (VCM_SLAC.SES g) = m % 64 ∧ (e.slacRec g).run = run ∧ (e.slacRec g).mac = mac ∧
      (d.plySilent = false → e.sent = .slac g 1 run [] :: d.sent)) ∧
    (d.gpSes g = none → Waits (.slacParmReq t g run mac) t s) ∧
    (d.gpSes g ≠ none → (d.slacRec g).run = run → d.rd 0 (VCM_SLAC.STATE g) = 1 → d.slacFresh g = true →
      Ends (.slacSounding t run [(g.val, att)]) s fun e => e.rd 0 (VCM_SLAC.STATE g) = 2 ∧
        (d.plySilent = false → e.sent = .slac g 2 run (att.map (BitVec.ofNat 8)) :: d.sent)) ∧
    (∀ h : Fin 4, h ≠ g → (∀ x ∈ [g, h], d.gpSes x ≠ none ∧ (d.slacRec x).run = run ∧ d.rd 0 (VCM_SLAC.STATE x) = 1 ∧ d.slacFresh x = true) →
      0 < d.rd 0 VCM_SLAC.MARGIN → Ends (.slacSounding t run [(g.val, att), (h.val, att)]) s fun e =>
        e.rd 0 (VCM_SLAC.STATE g) = 4 ∧ e.rd 0 (VCM_SLAC.STATE h) = 4 ∧ d.pended e 0 Ev.VCM.SLAC_FAIL) ∧
    (d.gpSes g = none → Waits (.slacSounding t run [(g.val, att)]) t s) ∧
    (∀ p, d.gpPoint g = some p → d.rd 0 (VCM_SLAC.STATE g) = 2 → (d.slacRec g).run = run → (d.slacRec g).mac = mac →
      d.slacFresh g = true → d.liveSes p ≠ none → Ends (.slacMatchReq t g run mac) s fun e => e.rd 0 (VCM_SLAC.STATE g) = 3 ∧ e.linkUp p = true ∧
        d.pended e 0 Ev.VCM.SLAC_MATCH ∧ (e.slacRec g).nid.length = 7 ∧ (e.slacRec g).nmk.length = 16) ∧
    (d.rd 0 (VCM_SLAC.STATE g) ≠ 2 → Waits (.slacMatchReq t g run mac) t s) ∧
    (∀ p, d.gpPoint g = some p → d.gpMatched p = true → d.linkUp p = true →
      let x := d.slacRec g
      let answers (msg : GpMsg) (key : List Byte) : Prop := Ends (.gpMgmtMsgRx t g msg) s fun e => e.regs = d.regs ∧
        (d.plySilent = false → e.sent = .slac g 4 x.run key :: d.sent);
      answers .join x.nid ∧ answers .keyExchange x.nmk ∧ Waits (.gpMgmtMsgRx t g .other) t s ∧
      Ends (.gpMgmtMsgRx t g .leave) s fun e => e.rd 0 (VCM_SLAC.STATE g) = 0 ∧ e.linkUp p = false) ∧
    ((∀ p, d.gpPoint g = some p → d.gpMatched p = false ∨ d.linkUp p = false) → ∀ msg, Waits (.gpMgmtMsgRx t g msg) t s)

/-! ### Yarn line -/

/-- The zero-cross input and the beacon period (R221, R226, R227, R229): an accepted edge is dated DELAY_US earlier and a
short pulse ignored; the input is valid after 8 edges in range and invalid after 30 ms without one or after one out of
range; a period that is due counts PLC_BPCNT, gives every UP peer without a route one, and sends the central beacon at
the level and with the notches of the line driver; frames that wait keep all but the backoff slots they have counted. -/
def Obligations.ZeroCrossAndBeaconPeriods : Prop :=
  ∀ (t w : Nat) (s : State), let d := Dev.at t s.dev; let y := d.yarn; let z := d.now - d.rd 0 PLC_ZC.DELAY_US * ticksPerUs
    let late : Prop := ∀ e, y.zc = some e → e + 30 * ticksPerMs ≤ d.now
    let bare (z : YTx) : YTx := { z with boff := 0 };
    (d.domOn .plc = true → d.rd 0 PLC_ZC.FILT_US ≤ w → Ends (.zcEdge t w) s fun e =>
      e.yarn.zc = some z ∧ e.yarn.edges = y.edges + 1 ∧ e.yarn.q = y.q ∧ e.yarn.peers = y.peers ∧
      (∀ p, y.zc = some p → (zcInRange (z - p) = true → e.yarn.zcGood = y.zcGood + 1 ∧
          e.rd 0 PLC_ZCSTAT.PERIOD_US = satU 16 (rdiv (z - p : Nat) ticksPerUs)) ∧
        (zcInRange (z - p) = false → e.yarn.zcGood = 0 ∧ e.regs = d.regs)) ∧
      e.rd 0 PLC_STAT.ZCVALID = d.rd 0 PLC_STAT.ZCVALID) ∧
    (d.domOn .plc = false ∨ w < d.rd 0 PLC_ZC.FILT_US → Waits (.zcEdge t w) t s) ∧
    (d.rd 0 PLC_STAT.ZCVALID = 1 → late ∨ y.zcGood = 0 → Ends (.zcLost t) s fun e =>
      e.rd 0 PLC_STAT.ZCVALID = 0 ∧ e.yarn = { y with zcGood := 0 } ∧ d.pended e 0 Ev.PLC.ZC_LOST) ∧
    (d.rd 0 PLC_STAT.ZCVALID = 0 ∨ (¬late ∧ y.zcGood ≠ 0) → Waits (.zcLost t) t s) ∧
    (d.rd 0 PLC_STAT.ZCVALID = 0 → 8 ≤ y.zcGood → Ends (.zcOk t) s fun e =>
      e.rd 0 PLC_STAT.ZCVALID = 1 ∧ e.yarn = y ∧ d.pended e 0 Ev.PLC.ZC_OK) ∧
    (d.rd 0 PLC_STAT.ZCVALID = 1 ∨ y.zcGood < 8 → Waits (.zcOk t) t s) ∧
    (d.beaconDue = true → Ends (.yarnBeaconPeriod t) s fun e =>
      let n := (d.rd 0 PLC_BPCNT.COUNT + 1) % 2 ^ 32;
      e.rd 0 PLC_BPCNT.COUNT = n ∧ e.rd 0 PLC_STAT.UP = 1 ∧ e.rd 0 PLC_STAT.COORD = 1 ∧ e.yarn.bpAt = some d.now ∧
      e.yarn.edges = 0 ∧ e.yarn.q.map bare = y.q.map bare ∧
      (∃ (hops : List (Nat × Nat)) (l : List Sent), e.sent = .yarnBeacon d.yarnTxc n d.zcOfs hops :: l ∧
        ∀ m < 64, (∃ h, (m, h) ∈ hops) ↔ d.peerUp m = true) ∧
      (∀ m < 64, d.peerUp m = true → d.rd 0 (PLC_NBR_A.HOPS m) = 0 →
        1 ≤ e.rd 0 (PLC_NBR_A.HOPS m) ∧ d.pended e 0 Ev.PLC.ROUTE_CHANGE)) ∧
    (d.beaconDue = false → Waits (.yarnBeaconPeriod t) t s)

/-- Sending on Yarn line (R216, R217, R219 to R225, R231): TX_YARN queues its payload with a backoff below its window, or
ends with status 8 with the domain off, 7 where a replayed payload no longer has its CRC and 6 without an UP peer; the
frame that wins the medium, its backoff run out, goes out to its next hop with the CRC of its payload, in the mode of its
class or, after an impulse, in the mode of its last attempt; SEQ and the frame counter count; a SACK with OK ends its
operation with 0 or lets the rest of the payload follow, one with IMPULSE holds the frame without doubling CW, any other
answer or none is a failure that doubles CW; after 1 + RETRY attempts the frame is dropped, counted, and its operation
ends with 6; a held frame contends again after its quiet time. The backoff drawn is a free value (log entry 324). -/
def Obligations.YarnFramesAreSentAndRepeated : Prop :=
  ∀ (t : Nat) (slot : Fin 384) (o : Op) (x : YTx) (src : Fin 64) (seq : Nat) (own : Option Nat)
    (s : State), let d := Dev.at t s.dev
    let y := d.yarn; let hop := d.nextHop x.peer; let cw := y.cw.get (fun _ => 0) x.cls
    let bs := s.mem.sram.getBytes (o.arg 16 4) (o.arg 10 2); let quiet := d.rd 0 PLC_MAC.QUIET * 100 * ticksPerUs
    let again (e : Dev) (z : YTx) : Prop := ∃ b, e.yarn.q = { z with boff := b, boffAt := d.now } :: y.q
    let failed (e : Dev) (hold : Option Nat) : Prop := e.yarn.air = none ∧
      e.yarn.cw.get (fun _ => 0) x.cls = (if hold.isSome then cw else min 2 (cw + 1)) ∧
      (x.tries ≤ d.rd 0 PLC_MAC.RETRY →
        again e { x with hold := hold, keep := hold.isSome } ∧ e.ope = d.ope ∧ e.regs = d.regs) ∧
      (d.rd 0 PLC_MAC.RETRY < x.tries → e.yarn.q = y.q ∧ e.rd 0 PLC_TXFAIL.COUNT = (d.rd 0 PLC_TXFAIL.COUNT + 1) % 2 ^ 32 ∧
        d.pended e 0 Ev.PLC.TX_FAIL ∧ (∀ k z, x.owner = some k → d.opAt k = some z → e.opEnds k 6));
    (d.opAt slot = some o → o.phase = .issued → o.kind = OK.TX_YARN →
      let intact : Prop := o.replayed = false ∨ o.arg 20 4 = crc32c bs;
      (d.domOn .plc = false → Ends (.txYarn t slot) s fun e => e.opEnds slot 8 ∧ e.yarn = y) ∧
      (d.domOn .plc = true → ¬intact → Ends (.txYarn t slot) s fun e => e.opEnds slot 7 ∧ e.yarn = y) ∧
      (d.domOn .plc = true → intact → d.yarnOn = false ∨ d.peerUp (o.arg 8 1) = false →
        Ends (.txYarn t slot) s fun e => e.opEnds slot 6 ∧ e.yarn = y) ∧
      (intact → d.yarnOn = true → d.peerUp (o.arg 8 1) = true → Ends (.txYarn t slot) s fun e =>
        (∃ b, (0 < d.yarnCw (o.arg 9 1) → b < d.yarnCw (o.arg 9 1)) ∧
          e.yarn = { y with q := y.q ++ [{ peer := o.arg 8 1, cls := o.arg 9 1, data := bs, owner := some slot.val,
                                           boff := b, boffAt := d.now }] }) ∧
        ∃ z, e.opAt slot = some z ∧ z.phase = .acting)) ∧
    (d.yarnOn = true → d.plySilent = false → y.air = none → d.yarnPick = some x →
      let m := d.yarnModeOf x; let piece := min x.data.length (d.yarnPiece m.2.2); let ns := yarnSyms piece m.2.2;
      (d.mayStart ns = true → d.yarnReady x = true → Ends (.yarnTxStart t) s fun e => ∃ z fc, e.yarn.air = some z ∧
        z.peer = x.peer ∧ z.tries = x.tries + 1 ∧ z.owner = x.owner ∧ z.piece = piece ∧ z.data = x.data ∧
        z.seq = some fc.seq ∧ z.mode = m ∧
        e.yarn.counter = y.counter + 1 ∧ e.yarn.airEnd = d.now + ticksOfCus (yarnDur ns) ∧
        e.yarn.freeAt = d.now + ticksOfCus (yarnDur ns + 30240) ∧
        e.yarn.q = removeFirst (fun z => z == x) y.q ∧ e.rd 0 PLC_TXFRM.COUNT = (d.rd 0 PLC_TXFRM.COUNT + 1) % 2 ^ 32 ∧
        e.rd 0 PLC_RETX.COUNT = (d.rd 0 PLC_RETX.COUNT + (if 0 < x.tries then 1 else 0)) % 2 ^ 32 ∧
        e.sent = .yarn d.yarnTxc fc y.counter (withCrc (x.data.take piece)) :: d.sent ∧ fc.dst = hop ∧ fc.src = 64 ∧
        fc.odst = x.peer ∧ fc.osrc = 64 ∧ fc.cls = x.cls ∧ fc.mode = m.1 ∧ fc.tmi = m.2.1 ∧ fc.nsym = ns ∧
        (x.keep = false → x.cls = 0 → fc.mode = 2) ∧ (x.keep = true → (fc.mode, fc.tmi) = (x.mode.1, x.mode.2.1))) ∧
      (d.mayStart ns = false ∨ d.yarnReady x = false → Waits (.yarnTxStart t) t s)) ∧
    (d.yarnOn = false ∨ d.plySilent = true ∨ y.air ≠ none ∨ d.yarnPick = none → Waits (.yarnTxStart t) t s) ∧
    (y.air = some x → d.yarnOn = true → x.seq = some seq → hop = src → ∀ late, late < 128 →
      (Ends (.yarnSackRx t src seq (1 + 8 * late)) s fun e => e.yarn.air = none ∧ e.yarn.cw.get (fun _ => 0) x.cls = 0 ∧
        (x.data.length ≤ x.piece → e.yarn.q = y.q ∧ ∀ k z, x.owner = some k → d.opAt k = some z → e.opEnds k 0) ∧
        (x.piece < x.data.length → e.ope = d.ope ∧
          again e { x with data := x.data.drop x.piece, tries := 0, piece := 0, seq := none, keep := false })) ∧
      (Ends (.yarnSackRx t src seq (2 + 8 * late)) s fun e => failed e (some (d.now - late * 100 * ticksPerUs + quiet))) ∧
      (Ends (.yarnSackRx t src seq (4 + 8 * late)) s fun e => failed e none)) ∧
    (y.air = none ∨ d.yarnOn = false ∨ (∃ x, y.air = some x ∧ (x.seq ≠ some seq ∨ d.nextHop x.peer ≠ src)) →
      Waits (.yarnSackRx t src seq 1) t s) ∧
    (y.air = some x → (y.airEnd + 200 * ticksPerUs ≤ d.now → Ends (.yarnSackTimeout t) s fun e => failed e none) ∧
      (d.now < y.airEnd + 200 * ticksPerUs → Waits (.yarnSackTimeout t) t s)) ∧
    (y.air = none → Waits (.yarnSackTimeout t) t s) ∧
    (let past (z : YTx) : Prop := ∃ a, z.hold = some a ∧ (a ≤ d.now ∨ ∃ e, own = some e ∧ e + quiet ≤ d.now);
      Ends (.yarnRetransmit ⟨t, own⟩) s fun e => e = { d with yarn := { y with q := e.yarn.q } } ∧
        e.yarn.q.length = y.q.length ∧ ∀ (i : Nat) (z : YTx), y.q[i]? = some z →
          (past z → e.yarn.q[i]? = some { z with hold := none, boffAt := d.now }) ∧ (¬past z → e.yarn.q[i]? = some z))

/-- Peers and reception on Yarn line (R219, R220, R222, R224, R227, R228, R230 to R232): a beacon of an enabled identity
makes its peer UP, one unknown is refused, one that does not authenticate counted; a peer not heard for LOST_BP periods
is LOST. Every frame heard takes the medium, and frames that wait keep all but the backoff slots they have counted. A
frame to the device is answered with a SACK that says OK, that it failed, IMPULSE or AUTH_FAIL, and counts in the peer's
failure estimate; a symbol erased after QUIET without one counts an impulse; a newer tone map it carries is taken; its
payload, without its CRC, completes the oldest posted receive that takes it, is held, or with 16 held dropped. RX_YARN
takes the oldest payload held, or is posted. Which of two generations of a tone map is newer is the model's choice (log
entry 326). -/
def Obligations.YarnPeersAndReception : Prop :=
  ∀ (t ident zo : Nat) (costs : List (Nat × Nat)) (m n : Fin 64) (fc : YarnFc) (guard est : List Nat)
    (map : Option (Nat × List Nat)) (bs : List Byte) (fcs : Word) (slot : Fin 384) (o : Op) (s : State),
    let d := Dev.at t s.dev; let x := d.ypeer n
    let rx (dec auth : Bool) : Instr := .yarnFrameRx t ident fc dec auth guard est map bs fcs
    let is := d.erased fc guard; let late := min 127 (burstEnd fc is); let bare (z : YTx) : YTx := { z with boff := 0 }
    let heard (e : Dev) : Prop := e.yarn.air = d.yarn.air ∧ e.yarn.q.map bare = d.yarn.q.map bare ∧
      e.yarn.freeAt = max d.yarn.freeAt (d.now + (if fc.dst = 127 then 0 else ticksOfCus 30240)) ∧
      (is = [] → e.yarn.lastErase = d.yarn.lastErase ∧ e.rd 0 PLC_IMPULSE.COUNT = d.rd 0 PLC_IMPULSE.COUNT) ∧
      (∀ i, is = [i] → e.yarn.lastErase = some (d.now - ticksOfCus (4608 * (fc.nsym - 1 - i))) ∧
        (d.yarn.lastErase = none → e.rd 0 PLC_IMPULSE.COUNT = (d.rd 0 PLC_IMPULSE.COUNT + 1) % 2 ^ 32 ∧
          d.pended e 0 Ev.PLC.IMPULSE))
    let crc : Prop := bs = [] ∨ crcOk (bs ++ leBytes 4 fcs.toNat) = true
    let up (e : Dev) : Prop := e.peerUp n = true ∧ (d.peerUp n = false → d.pended e 0 Ev.PLC.PEER_UP);
    (d.yarnOn = false → Waits (.stationBeaconRx t ident m true zo costs) t s) ∧
    (d.yarnOn = true → (Ends (.stationBeaconRx t ident m false zo costs) s fun e => e.yarn = d.yarn ∧
        e.rd 0 PLC_AUTHERR.COUNT = (d.rd 0 PLC_AUTHERR.COUNT + 1) % 2 ^ 32 ∧ d.pended e 0 Ev.PLC.AUTH_FAIL) ∧
      (d.peerOf ident = none → Ends (.stationBeaconRx t ident m true zo costs) s fun e => Quiet loud d e ∧
        d.pended e 0 Ev.PLC.PEER_REFUSED) ∧
      (d.peerOf ident = some n.val → Ends (.stationBeaconRx t ident m true zo costs) s fun e => up e ∧
        (e.ypeer n).heard = d.rd 0 PLC_BPCNT.COUNT ∧ (e.ypeer n).phases = (d.phaseOf zo :: x.phases).take 4 ∧
        (3 ≤ (e.ypeer n).phases.count (d.phaseOf zo) → e.rd 0 (PLC_NBR_A.PHASE n) = d.phaseOf zo) ∧
        (e.ypeer n).held = x.held ∧ (∀ k ≠ n.val, e.ypeer k = d.ypeer k))) ∧
    (let quiet := (d.rd 0 PLC_BPCNT.COUNT + 2 ^ 32 - x.heard) % 2 ^ 32;
      (d.peerUp n = true → d.rd 0 PLC_ROUTE.LOST_BP ≤ quiet → Ends (.peerLost t n) s fun e =>
        e.rd 0 (PLC_NBR_A.STATE n) = 3 ∧ d.pended e 0 Ev.PLC.PEER_LOST ∧ e.yarn = d.yarn) ∧
      (d.peerUp n = false ∨ quiet < d.rd 0 PLC_ROUTE.LOST_BP → Waits (.peerLost t n) t s)) ∧
    (d.yarnOn = false ∨ d.plySilent = true → Waits (rx true true) t s) ∧
    (d.yarnOn = true → d.plySilent = false → fc.dst ≠ 64 → fc.dst ≠ 127 → Ends (rx true true) s fun e => heard e ∧
      (is = [] → e.sent = d.sent ∧ e.regs = d.regs) ∧ e.yarn.peers = d.yarn.peers ∧ e.ope = d.ope) ∧
    (d.yarnOn = true → d.plySilent = false → fc.dst = 64 → d.peerOf ident = some n.val →
      let fails (e : Dev) (b : Nat) : Prop := heard e ∧ e.yarn.peers = d.yarn.peers ∧
        e.rd 0 (PLC_NBR_B.FER n) = ferStep (d.rd 0 (PLC_NBR_B.FER n)) true ∧
        ∃ l, e.sent = .yarnSack d.yarnTxc fc.src fc.seq (b + 8 * late) :: l;
      (d.erasuresOk fc is = false → Ends (rx true true) s fun e => fails e 2) ∧
      (d.erasuresOk fc is = true → (Ends (rx false true) s fun e => fails e 0) ∧
        (¬crc → Ends (rx true true) s fun e => fails e 0)) ∧
      (d.erasuresOk fc is = true → crc → Ends (rx true false) s fun e => fails e 4 ∧ d.pended e 0 Ev.PLC.AUTH_FAIL) ∧
      (d.erasuresOk fc is = true → crc → fc.osrc = n → fc.odst = 64 → fc.hop ≤ d.rd 0 PLC_CFG.MAXHOP →
        x.lastSeq ≠ fc.seq + 1 → bs ≠ [] → 0 < fc.cls →
        let got (e : Dev) : Prop := heard e ∧ up e ∧ e.rd 0 PLC_RXFRM.COUNT = (d.rd 0 PLC_RXFRM.COUNT + 1) % 2 ^ 32 ∧
          e.rd 0 (PLC_NBR_B.FER n) = ferStep (d.rd 0 (PLC_NBR_B.FER n)) false ∧ (e.ypeer n).lastSeq = fc.seq + 1 ∧
          .yarnSack d.yarnTxc fc.src fc.seq (1 + 8 * late) ∈ e.sent ∧
          (est = [] → ∃ l, e.sent = .yarnSack d.yarnTxc fc.src fc.seq (1 + 8 * late) :: l) ∧
          (map = none → (e.ypeer n).txMap = x.txMap ∧ (e.ypeer n).robust = x.robust) ∧
          (∀ g mp, map = some (g, mp) → toneOk mp = true → mp ≠ [] →
            x.txMap = [] ∨ (1 ≤ (g + 16 - x.txGen % 16) % 16 ∧ (g + 16 - x.txGen % 16) % 16 ≤ 7) →
            (e.ypeer n).txMap = mp ∧ (e.ypeer n).txGen = g % 16 ∧ (e.ypeer n).robust = false);
        (∀ r, d.rxPosted n = some r → bs.length ≤ r.arg 10 2 → ∃ u, exec (rx true true) s = .next u ∧ got u.dev ∧
          u.dev.opEnds r.slot 0 ∧ (∀ j < bs.length, u.sramByte (r.arg 16 4 + j) = bs.getD j 0#8) ∧
          (∀ a, a < r.arg 16 4 ∨ r.arg 16 4 + bs.length ≤ a → u.sramByte a = s.sramByte a) ∧ u.mem.mram = s.mem.mram) ∧
        (∀ r, d.rxPosted n = some r → r.arg 10 2 < bs.length → Ends (rx true true) s fun e => got e ∧ e.opEnds r.slot 1) ∧
        (d.rxPosted n = none → x.held.length < 16 → Ends (rx true true) s fun e => got e ∧
          (e.ypeer n).held = x.held ++ [(d.yarn.rxN, bs)]) ∧
        (d.rxPosted n = none → 16 ≤ x.held.length → Ends (rx true true) s fun e => got e ∧ (e.ypeer n).held = x.held ∧
          e.rd 0 PLC_RXDROP.COUNT = (d.rd 0 PLC_RXDROP.COUNT + 1) % 2 ^ 32))) ∧
    (d.opAt slot = some o → o.phase = .issued → o.kind = OK.RX_YARN → d.domOn .plc = true →
      (d.heldFor (o.arg 8 1) = none → Ends (.rxYarn t slot) s fun e => e.yarn = d.yarn ∧
        ∃ z, e.opAt slot = some z ∧ z.phase = .acting) ∧
      (∀ k b, d.heldFor (o.arg 8 1) = some (k, b) → b.length ≤ o.arg 10 2 → ∃ u, exec (.rxYarn t slot) s = .next u ∧
        u.dev.opEnds slot 0 ∧ (u.dev.ypeer k).held = (d.ypeer k).held.drop 1 ∧
        (∀ j < b.length, u.sramByte (o.arg 16 4 + j) = b.getD j 0#8) ∧
        (∀ a, a < o.arg 16 4 ∨ o.arg 16 4 + b.length ≤ a → u.sramByte a = s.sramByte a)))

/-! ### Metrology and the legal island -/

/-- Samples of metering points (R239, R240, R242, R246, R248): a valid DC sample enters the second's sums and books its
power, below ISTART none, into IMP or EXP by its direction and signed into NET, in the total and in the register of the
tariff in force, and into the interval; with a channel LOST it books nothing and counts as invalid time; an incomer's
sample is counted likewise. A channel's loss records MODLOSS once and ends after 100 ms without the condition; a reversed
polarity is recorded after 3 seconds in a row, once. -/
def Obligations.MetrologySamplesAreBooked : Prop :=
  ∀ (t : Nat) (mp : Fin 36) (cv ci : Fin 96) (xv xi : Int × Int) (xs : List (Int × Int)) (v90 : List Int) (s : State),
    let d := Dev.at t s.dev; let x := d.mtrPt mp; let per := d.mtrPeriod; let v := d.calib cv xv; let i := d.calib ci xi
    let p := if i.natAbs < d.par MP.ISTART mp then 0 else v * i; let b := bookingOf p per; let tr := d.lgl.tariff
    let live := d.lglUp = true ∧ d.mpUsed mp = true ∧ d.lgl.book = true ∧ d.pllLocked 2 = true ∧ x.skip = 0 ∧
      x.lockSeen = (d.pll 2).lockAt;
    (live → mp.val < 32 → d.mpChans mp = [cv.val, ci.val] → (d.mtrCh cv).lost = false → (d.mtrCh ci).lost = false →
      1 ≤ tr → tr ≤ 16 → Ends (.metrologySample t mp [xv, xi] v90) s fun e => let y := e.mtrPt mp;
        y.n = x.n + 1 ∧ y.sv = x.sv + v ∧ y.si = x.si + i ∧ y.sp = x.sp + p ∧ y.inv = x.inv ∧
        (p = 0 → e.lgl.tot.ereg = d.lgl.tot.ereg ∧ e.lgl.tot.acc = d.lgl.tot.acc) ∧
        (p ≠ 0 → let r := if 0 < p then 0 else 1; let mag := if 0 < p then b else -b;
          (∀ g, g = 0 ∨ g = tr → e.ereg mp r g = (d.ereg mp r g).add mag ∧ e.ereg mp 2 g = (d.ereg mp 2 g).add b) ∧
          (∀ k < 8, ∀ g ≤ 16, k ≠ 2 ∧ k ≠ r ∨ g ≠ 0 ∧ g ≠ tr → e.ereg mp k g = d.ereg mp k g) ∧
          e.lgl.tot.acc.get (fun _ => 0) (8 * mp + r) = d.lgl.tot.acc.get (fun _ => 0) (8 * mp + r) + mag.toNat) ∧
        (isOvr xv.1 = true → d.pended e 0 Ev.MTR.CH_OVR ∧ y.ovr = true)) ∧
    (live → mp.val < 32 → (∃ c ∈ d.mpChans mp, (d.mtrCh c).lost = true) → Ends (.metrologySample t mp xs v90) s fun e =>
      (e.mtrPt mp).inv = x.inv + 1 ∧ (e.mtrPt mp).n = x.n ∧ e.lgl.tot.ereg = d.lgl.tot.ereg ∧
      e.lgl.tot.inv.get (fun _ => 0) mp = d.lgl.tot.inv.get (fun _ => 0) mp + per) ∧
    (live → 32 ≤ mp.val → Ends (.metrologySample t mp xs v90) s fun e =>
      ((∀ c ∈ d.mpChans mp, (d.mtrCh c).lost = false) → (e.mtrPt mp).n = x.n + 1 ∧ (e.mtrPt mp).inv = x.inv) ∧
      ((∃ c ∈ d.mpChans mp, (d.mtrCh c).lost = true) → (e.mtrPt mp).n = x.n ∧ (e.mtrPt mp).inv = x.inv + 1) ∧
      (e.mtrPt mp).ix = x.ix + 1) ∧
    (d.lglUp = false ∨ d.mpUsed mp = false ∨ (d.lgl.book = false ∧ d.lgl.halted = false) →
      Waits (.metrologySample t mp xs v90) t s) ∧
    (d.lglUp = true → d.par MP.ROLE cv ≠ 0 → d.pllLocked 2 = true → Ends (.modChannelLost t cv) s fun e =>
      (e.mtrCh cv).lost = true ∧ (e.mtrCh cv).lostAt = d.now ∧ e.lgl.tot.ereg = d.lgl.tot.ereg ∧
      ((d.mtrCh cv).lost = false → d.noted e 3 cv ∧ d.pended e 0 Ev.MTR.CH_LOST) ∧
      ((d.mtrCh cv).lost = true → e.lgl.tot = d.lgl.tot)) ∧
    (d.lglUp = false ∨ d.par MP.ROLE cv = 0 ∨ d.pllLocked 2 = false → Waits (.modChannelLost t cv) t s) ∧
    (d.lglUp = true → (d.mtrCh cv).lost = true → (d.mtrCh cv).lostAt + 100 * ticksPerMs ≤ d.now →
      Ends (.modChannelRecover t cv) s fun e => (e.mtrCh cv).lost = false ∧ d.pended e 0 Ev.MTR.CH_OK ∧
        e.lgl.tot = d.lgl.tot) ∧
    ((d.mtrCh cv).lost = false ∨ d.now < (d.mtrCh cv).lostAt + 100 * ticksPerMs → Waits (.modChannelRecover t cv) t s) ∧
    (d.lglUp = true → 3 ≤ x.revN → x.revDone = false → Ends (.modrevDetect t mp) s fun e =>
      d.noted e 4 mp ∧ (e.mtrPt mp).revDone = true ∧ d.pended e 0 Ev.MTR.MODREV ∧ e.lgl.tot.ereg = d.lgl.tot.ereg) ∧
    (x.revN < 3 ∨ x.revDone = true → Waits (.modrevDetect t mp) t s)

/-- The second boundary, after the row boundary of its instant (R26), the clock, tamper inputs, power fail and session receipts (R249, R250, R254, R264, R265, R268,
R269, R276 to R281, R283, R403): the seconds field counts, or takes a step that is due, the totals are committed and the
page shows the second; at an interval boundary the record is written and the next interval opens; a power-fail warning
stops booking, writes the open receipts and commits the POWERFAIL copy; a cast-on restores the copy. A start marker
opens a receipt with the readings, the matching end marker writes it. -/
def Obligations.LegalTimeAndReceipts : Prop :=
  ∀ (t : Nat) (rtc : Nat) (ok ret : Bool) (loop : Fin 64) (gen : Fin 256) (p : Fin 32) (s : State), let d := Dev.at t s.dev
    let l := d.lgl; let k := l.rtc; let room := 2 ^ 20 ≤ d.lglFree
    let written (e : Dev) (typ : Nat) : Prop := ∃ r, e.lgl.recs = l.recs ++ [r] ∧ r.typ = typ ∧ r.seq = l.seq + 1 ∧ e.lgl.seq = l.seq + 1;
    (let w := d.rowCatch; let l := w.lgl; let k := l.rtc; let s' := k.sec + 1; let room := 2 ^ 20 ≤ w.lglFree
      let written (e : Dev) (typ : Nat) : Prop := ∃ r, e.lgl.recs = l.recs ++ [r] ∧ r.typ = typ ∧ r.seq = l.seq + 1 ∧ e.lgl.seq = l.seq + 1;
      d.lglUp = true → w.lglPfail = false → l.book = true → l.halted = false → Ends (.secondBoundary t) s fun e =>
      e.lgl.copy = e.lgl.tot ∧ e.lgl.tot.seqno = l.tot.seqno + 1 ∧ e.lgl.tot.pfail = false ∧ e.lgl.parNext = none ∧
      e.rd 0 MTR_SECOND.SEC = e.lgl.rtc.sec % 2 ^ 32 ∧ s' * 2 ^ 32 ≤ e.lgl.tot.h ∧ l.tot.h ≤ e.lgl.tot.h ∧
      (∀ n q, l.parNext = some (n, q) → e.lgl.prev = l.par) ∧ (l.parNext = none → e.lgl.par = l.par) ∧
      (k.step = none → e.lgl.rtc.sec = s' ∧ e.lgl.rtc.secAt = d.now) ∧
      (∀ x, k.step = some x → k.stepDefer = false → e.lgl.rtc.sec = ((s' : Int) + x).toNat ∧ e.lgl.rtc.step = none ∧
        (k.stepInval = false → w.pended e 0 Ev.TRF.CLKJUMP) ∧ (k.stepInval = true → e.lgl.rtc.valid = true)) ∧
      (k.step = none → l.parNext = none → s' % w.intLen = 0 → l.tot.ivOpen = true → l.tot.ivAt ≠ s' * 2 ^ 32 →
        w.pended e 0 Ev.TRF.INTERVAL ∧ e.lgl.tot.ivOpen = true ∧ e.lgl.tot.ivAt = s' * 2 ^ 32 ∧
        (room → l.merged = none → written e 1))) ∧
    (d.lglUp = false → Waits (.secondBoundary t) t s) ∧
    (d.lglUp = true → k.osc = true → Ends (.oscStop t) s fun e => e.lgl.rtc.osc = false ∧ e.lgl.rtc.valid = false ∧
      d.noted e 6 0 ∧ d.pended e 0 Ev.TRF.CLKLOSS ∧ e.lgl.rtc.sec = k.sec) ∧
    (d.lglUp = false ∨ k.osc = false → Waits (.oscStop t) t s) ∧
    (Ends (.crystalReturn t) s fun e => e = { d with lgl := { l with rtc := { k with osc := true } } }) ∧
    (d.lglUp = true → k.slew ≠ 0 → d.slewLeft = 0 → Ends (.slewComplete t) s fun e => e.lgl.rtc.slew = 0 ∧
      e.lgl.rtc.sec = k.sec ∧ e.regs = d.regs) ∧
    (d.lglUp = false ∨ k.slew = 0 ∨ d.slewLeft ≠ 0 → Waits (.slewComplete t) t s) ∧
    (d.lglUp = true → (Ends (.tamperMag t) s fun e => d.noted e 1 0 ∧ (e.tmp 1).tinv = !k.valid) ∧
      (Ends (.tamperCover t) s fun e => d.noted e 2 0) ∧ (Ends (.supplyLow t) s fun e => d.noted e 11 2)) ∧
    (d.lglUp = false → Waits (.tamperMag t) t s ∧ Waits (.tamperCover t) t s ∧ Waits (.supplyLow t) t s) ∧
    (d.lglUp = true → l.romAt + 86400 * ticksPerS ≤ d.now → Ends (.romCheck t ok) s fun e => e.lgl.romAt = d.now ∧
      e.on 0 LGL_STAT.ROMOK = ok ∧ (ok = true → e.lgl.halted = l.halted ∧ e.lgl.book = l.book) ∧
      (ok = false → e.lgl.halted = true ∧ e.lgl.book = false ∧ d.noted e 12 0 ∧ d.pended e 0 Ev.LGL.ROMCHK_FAIL)) ∧
    (d.now < l.romAt + 86400 * ticksPerS → Waits (.romCheck t ok) t s) ∧
    (d.lglUp = true → d.lglPfail = false → Ends (.pfailWarning t) s fun e => e.lgl.book = false ∧ e.lglPfail = true ∧
      e.lgl.tot.pfail = true ∧ e.lgl.copy = e.lgl.tot ∧ d.pended e 0 Ev.MTR.PFAIL_SAVED ∧
      (l.halted = false → ∀ q < 32, e.rcpt q = none) ∧
      (d.ope.pfail = false → d.domOn .ope = true → e.ope.pfail = true ∧ d.pended e 0 Ev.JNL.PFAIL_REC ∧
        e.rd 0 JNL_EMERG.VALID = 1 ∧ ∃ r, e.jrec (e.rd 0 JNL_EMERG.IDX) = some r ∧ r.kind = 5 ∧ r.seq = d.jnlSeq + 1)) ∧
    (d.lglPfail = true → d.ope.pfail = true → (Waits (.pfailWarning t) t s) ∧ Ends (.pfailReturn t) s fun e =>
      e.lgl = { l with resume := true } ∧ e.ope.pfail = false ∧ e.regs = d.regs) ∧
    (d.lglUp = false → d.pllLocked 2 = true → Ends (.lDieCastOn t rtc ret ok) s fun e => e.lglUp = true ∧ e.role = 0 ∧
      e.on 0 LGL_STAT.ROMOK = ok ∧ e.lgl.halted = !ok ∧ e.lgl.book = false ∧ e.lglPfail = false ∧ e.lgl.init = true ∧
      (l.init = false → e.lgl.rtc.sec = 0 ∧ e.lgl.rtc.valid = false) ∧
      (l.init = true → ok = true → ret = true → l.copy.pfail = true → e.lgl.tot = l.copy ∧ e.lgl.rtc.sec = rtc / 2 ^ 32) ∧
      (l.init = true → ret = false → e.lgl.rtc.sec = l.copy.time / 2 ^ 32 + 1 ∧ e.lgl.rtc.valid = false)) ∧
    (d.lglUp = true ∨ d.pllLocked 2 = false → Waits (.lDieCastOn t rtc ret ok) t s) ∧
    (d.lglUp = true → l.halted = false → d.rd 0 PLY_CFG.MODE = 0 → Ends (.markerStartRx t loop gen p) s fun e =>
      (∃ r, e.rcpt p = some r ∧ r.loop = loop ∧ r.gen = gen ∧ r.start = d.rtcNow ∧ r.imp0 = d.ereg p 0 0 ∧
        r.exp0 = d.ereg p 1 0) ∧ (d.rcpt p = none → e.lgl.recs = l.recs) ∧ (d.rcpt p ≠ none → room → written e 2)) ∧
    (d.lglUp = true → l.halted = false → (∀ r, d.rcpt p = some r → r.loop = loop → r.gen = gen →
        Ends (.markerEndRx t loop gen p) s fun e => e.rcpt p = none ∧ (room → written e 2)) ∧
      (d.rcpt p = none → Ends (.markerEndRx t loop gen p) s fun e => e = d.inc 0 LGL_MKRLOST.COUNT)) ∧
    (d.lglUp = false ∨ l.halted = true → Waits (.markerStartRx t loop gen p) t s ∧ Waits (.markerEndRx t loop gen p) t s) ∧
    (d.lglUp = true → Ends (.cLLinkReset t) s fun e => e.role = 0 ∧ (l.halted = false → (∀ q < 32, e.rcpt q = none) ∧
      (room → e.lgl.recs.length = l.recs.length + ((List.range 32).filter fun q => (d.rcpt q).isSome).length))) ∧
    (d.lglUp = false → Waits (.cLLinkReset t) t s)

/-- Mailbox requests (R256 to R263, R272, R275, R280): each is answered with its status. GET returns an object's bytes to a
role that may read it; SET stages a parameter, sets the clock; SEAL makes the staged set the one that becomes active
next, DISCARD empties it; CHALLENGE ends the role and draws a nonce, AUTH takes the role once against a fresh challenge,
the fifth failure in 600 s locks out; ACK frees records; LSK_RENEW changes the signing key with a record. Without its
rights a request changes nothing. -/
def Obligations.MailboxRequests : Prop :=
  ∀ (t : Nat) (s : State), let d := Dev.at t s.dev; let l := d.lgl; let r := d.request0; let role := d.role
    let only (e : Dev) (status : Nat) : Prop := d.answered e status ∧ e.lgl = l ∧ e.role = role;
    (d.lglUp = false ∨ d.rd 0 LGL_MBSTAT.STATE ≠ 1 → ∀ c ∈ ([.lglGet t, .lglSet t, .lglSeal t, .lglDiscard t, .lglChallenge t,
      .lglAuth t, .lglLogout t, .lglAck t, .lglLskRenew t] : List Instr), Waits c t s) ∧
    (d.lglUp = true → d.rd 0 LGL_MBSTAT.STATE = 1 → leAt d.mbReq 22 2 = 0 → l.halted = false → d.lglPfail = true →
      ∀ x ∈ ([(2, .lglSet t), (3, .lglSeal t), (4, .lglDiscard t), (16, .lglChallenge t), (17, .lglAuth t), (18, .lglLogout t),
        (32, .lglAck t), (33, .lglLskRenew t)] : List (Nat × Instr)), leAt d.mbReq 0 1 = x.1 → Ends x.2 s fun e => only e 0x0C) ∧
    (d.asks 1 → (r.obj = none → Ends (.lglGet t) s fun e => only e 0x01) ∧
      (∀ o, r.obj = some o → r.u 1 1 = 2 → (mayRead o role = false → Ends (.lglGet t) s fun e => only e 0x03) ∧
        (∀ v, mayRead o role = true → d.objValue o (r.u 8 8) = .ok v → (v.length < r.u 16 4 →
            Ends (.lglGet t) s fun e => only e 0x04) ∧
          (r.u 16 4 ≤ v.length → Ends (.lglGet t) s fun e =>
            let b := (v.drop (r.u 16 4)).take (min (r.u 20 2) 1016);
            only e 0x00 ∧ e.rd 0 LGL_MBSTAT.RSPLEN = 8 + b.length ∧ e.rd 0 (LGL_RSP.DATA 0) = 1 + 2 ^ 16 * b.length ∧
            e.rd 0 (LGL_RSP.DATA 1) = v.length % 2 ^ 32 ∧
            ∀ i, 4 * i < b.length → e.rd 0 (LGL_RSP.DATA (i + 2)) = leAt b (4 * i) 4)))) ∧
    (d.asks 2 → r.u 1 1 = 2 → ∀ o, r.obj = some o →
      (mayWrite o role l.sealed = false → Ends (.lglSet t) s fun e => only e 0x03) ∧
      (∀ k v, o = .param k → role = 3 → r.data.length = 4 → r.u 16 4 % 4 = 0 → r.u 16 4 / 4 < parCount k → v = parValue k r.data →
        (((parRange k).1 ≤ v ∧ v ≤ (parRange k).2) → Ends (.lglSet t) s fun e => d.answered e 0x00 ∧
          e.lgl = { l with stage := l.stage.set (fun _ => none) (k * 256 + r.u 16 4 / 4) (some v) }) ∧
        ((v < (parRange k).1 ∨ (parRange k).2 < v) → Ends (.lglSet t) s fun e => only e 0x04)) ∧
      (let w := d.rtcRebase; let delta : Int := (leNat r.data : Int) - w.rtcNow;
        o = .clock → role = 2 ∨ role = 3 → r.data.length = 8 → r.u 16 4 = 0 → Ends (.lglSet t) s fun e =>
          d.answered e 0x00 ∧ e.lgl.rtc.sec = l.rtc.sec ∧ e.lgl.rtc.valid = l.rtc.valid ∧
          (l.rtc.valid = true → delta.natAbs ≤ (d.par MP.JUMP_LIM).toNat * 2 ^ 32 → e.lgl.rtc.slew = delta ∧
            e.lgl.rtc.step = none) ∧
          (l.rtc.valid = true → ((d.par MP.JUMP_LIM).toNat * 2 ^ 32 < delta.natAbs) →
            e.lgl.rtc.step = some (rdiv delta (2 ^ 32)) ∧ e.lgl.rtc.slew = delta - rdiv delta (2 ^ 32) * 2 ^ 32))) ∧
    (d.asks 3 → (role ≠ 3 → Ends (.lglSeal t) s fun e => only e 0x03) ∧
      (role = 3 → l.stage = [] → l.keyStage = [] → Ends (.lglSeal t) s fun e => only e 0x00) ∧
      (role = 3 → l.stage ≠ [] → l.parNext = none → (parSetOk (overPar l.par l.stage) = false →
          Ends (.lglSeal t) s fun e => only e 0x0A) ∧
        (parSetOk (overPar l.par l.stage) = true → Ends (.lglSeal t) s fun e => d.answered e 0x00 ∧
          e.rd 0 LGL_PARAMGEN.GEN = (d.rd 0 LGL_PARAMGEN.GEN + 1) % 2 ^ 32 ∧ d.noted e 9 (e.rd 0 LGL_PARAMGEN.GEN) ∧
          d.pended e 0 Ev.LGL.SEALED ∧ e.lgl.parNext.isSome = true ∧ e.lgl.stage = [] ∧ e.lgl.keyStage = [] ∧
          e.lgl.par = l.par ∧ e.lgl.sealed = true))) ∧
    (d.asks 4 → (role ≠ 3 → Ends (.lglDiscard t) s fun e => only e 0x03) ∧
      (role = 3 → Ends (.lglDiscard t) s fun e => d.answered e 0x00 ∧ e.lgl = { l with stage := [], keyStage := [] })) ∧
    (d.asks 0x10 → (d.now < l.lockEnd → Ends (.lglChallenge t) s fun e => d.answered e 0x06 ∧ e.role = 0 ∧ e.lgl = l) ∧
      (l.lockEnd ≤ d.now → r.data ≠ [] → 1 ≤ leAt r.data 0 1 → leAt r.data 0 1 ≤ 4 → Ends (.lglChallenge t) s fun e =>
        d.answered e 0x00 ∧ e.role = 0 ∧
        ∃ n, n.length = 48 ∧ e.lgl = { l with chal := some (n, leAt r.data 0 1, d.now) })) ∧
    (d.asks 0x11 → (l.chal = none → Ends (.lglAuth t) s fun e => only e 0x08) ∧
      (∀ n k a, l.chal = some (n, k, a) → let good := Config.ecdsaVerify (d.roleKey k) (Config.digest 1 (n ++
            fixLen 8 d.serial ++ b1 k ++ leBytes 4 (d.rd 0 LGL_AUTHCNT.COUNT))) r.data;
        (a + 30 * ticksPerS ≤ d.now → Ends (.lglAuth t) s fun e => d.answered e 0x08 ∧ e.role = role ∧
          e.lgl = { l with chal := none }) ∧
        (d.now < a + 30 * ticksPerS → r.data.length = 96 → good = true → Ends (.lglAuth t) s fun e => d.answered e 0x00 ∧
          e.role = k % 16 ∧ e.rd 0 LGL_AUTHCNT.COUNT = (d.rd 0 LGL_AUTHCNT.COUNT + 1) % 2 ^ 32 ∧
          e.lgl = { l with chal := none, fails := [] }) ∧
        (d.now < a + 30 * ticksPerS → r.data.length ≠ 96 ∨ good = false → Ends (.lglAuth t) s fun e => d.answered e 0x07 ∧
          e.role = role ∧ e.lgl.chal = none ∧ d.pended e 0 Ev.LGL.AUTH_FAIL ∧ e.lgl.fails = d.now :: d.mbFails ∧
          (d.mbFails.length < 4 → e.lgl.lockEnd = l.lockEnd) ∧
          (4 ≤ d.mbFails.length → d.noted e 10 k ∧ d.pended e 0 Ev.LGL.LOCKOUT ∧
            (l.lockAt = none → e.lgl.lockEnd = d.now + 60 * ticksPerS))))) ∧
    (d.asks 0x12 → (role = 0 → Ends (.lglLogout t) s fun e => only e 0x05) ∧
      (role ≠ 0 → Ends (.lglLogout t) s fun e => d.answered e 0x00 ∧ e.role = 0 ∧ e.lgl = l)) ∧
    (d.asks 0x20 → let n := r.u 8 8; (role ≠ 2 → Ends (.lglAck t) s fun e => only e 0x03) ∧
      (role = 2 → l.seq < n → Ends (.lglAck t) s fun e => only e 0x04) ∧
      (role = 2 → n ≤ l.seq → d.rd64 0 LGL_REC_ACK_LO.SEQ LGL_REC_ACK_HI.SEQ < n → Ends (.lglAck t) s fun e =>
        d.answered e 0x00 ∧ e.lgl = { l with recs := l.recs.filter fun x => n < x.seq } ∧
        e.rd64 0 LGL_REC_ACK_LO.SEQ LGL_REC_ACK_HI.SEQ = n)) ∧
    (d.asks 0x21 → (role ≠ 3 → Ends (.lglLskRenew t) s fun e => only e 0x03) ∧
      (role = 3 → l.merged = none → 2 ^ 20 ≤ d.lglFree → Ends (.lglLskRenew t) s fun e => d.answered e 0x00 ∧
        e.lgl.lsk.length = 48 ∧ ∃ x, e.lgl.recs = l.recs ++ [x] ∧ x.typ = 3 ∧ x.seq = l.seq + 1)) ∧
    (∀ n k a, l.chal = some (n, k, a) → (a + 30 * ticksPerS ≤ d.now → Ends (.lglChallengeExpiry t) s fun e =>
        e = { d with lgl := { l with chal := none } }) ∧
      (d.now < a + 30 * ticksPerS → Waits (.lglChallengeExpiry t) t s)) ∧
    (l.lockEnd ≠ 0 → l.lockEnd ≤ d.now → Ends (.lglLockoutEnd t) s fun e => e.lgl = { l with lockEnd := 0, fails := [] } ∧
      e.rd 0 LGL_LOCKOUT.FAILS = 0 ∧ e.rd 0 LGL_LOCKOUT.S = 0) ∧
    (l.lockEnd = 0 ∨ d.now < l.lockEnd → Waits (.lglLockoutEnd t) t s) ∧
    (role ≠ 0 → l.roleAt + 300 * ticksPerS ≤ d.now → Ends (.lglRoleIdleTimeout t) s fun e => e = d.wr 0 LGL_STAT.ROLE 0) ∧
    (role = 0 ∨ d.now < l.roleAt + 300 * ticksPerS → Waits (.lglRoleIdleTimeout t) t s)

/-! ### Safety -/

/-- The evaluation of the safety functions and the reset (R293, R294 to R302): a released function that reads demand
trips, one with AUTO and no demand is released, nothing else releases one at an evaluation; a tripped function puts every
point of its mask under trip; a pair comes on only enabled, healthy, with no point under trip. Channel levels are taken,
a discrepancy that lasts DISC_MS latches DISCF; a good reset pulse releases the functions that read no demand, ends FAULT
of ready connections and of pairs that pass their test; a channel stuck for 5 s jams the input. -/
def Obligations.SafetyFunctionsAndReset : Prop :=
  ∀ (t : Nat) (c : Fin 33) (n : Fin 32) (ch on : Bool) (pass : Fin 256) (s : State), let d := Dev.at t s.dev
    let st := d.rd 0 (SAF_INST.STATE n); let en := d.on 0 (SAF_IN_A.EN n); let rst := d.saf.rst;
    (d.domOn .safe = true → Ends (.safeChannelAccept t c ch on) s fun e =>
      (c.val = 32 → e = d.wrB 0 (if ch then SAF_RST.B else SAF_RST.A) on) ∧
      (c.val < 32 → e = { d with saf := { d.saf with level := e.saf.level } } ∧
        ∀ k, e.saf.level.get (fun _ => false) k = if k = 2 * c + (if ch then 1 else 0) then on else
          d.saf.level.get (fun _ => false) k)) ∧
    (d.domOn .safe = false → Waits (.safeChannelAccept t c ch on) t s) ∧
    (d.safRuns = true → d.saf.evalIx ≤ d.safIx → d.ope.quiesce = none → Ends (.safeEvaluation t) s fun e =>
      let ask := (d.fnLevels n).anyDemand n; let z := e.rd 0 (SAF_INST.STATE n);
      e.saf.evalIx = d.safIx + 1 ∧ (en = false → z = st) ∧
      (en = true → (st = 3 → ask = true → d.fnIgnored n = false → z = 2 ∧ d.pended e 0 Ev.SAF.TRIP) ∧
        (st = 3 → ask = false ∨ d.fnIgnored n = true → z = 3) ∧
        (st = 2 → d.on 0 (SAF_IN_A.AUTO n) = true → d.on 0 (SAF_INST.DISCF n) = false → ask = false → z = 3) ∧
        (st = 2 → d.on 0 (SAF_IN_A.AUTO n) = false ∨ d.on 0 (SAF_INST.DISCF n) = true ∨ ask = true → z = 2) ∧
        (st = 1 → z = 1 ∨ (z = 2 ∧ ask = false)) ∧
        (z = 1 ∨ z = 2 → ∀ p < 32, d.bit 0 (SAF_IN_MASK.PTS n) p = true → e.tripActs p = true)) ∧
      (∀ q < 8, d.pairOn q = false → e.pairOn q = true → d.bit 0 SAF_PAIREN.EN q = true ∧
        e.rd 0 (SAF_PAIRST.STATE q) = 1 ∧ (∃ p < 32, d.rd 0 (SAF_PTPAIR.PAIR p) = q) ∧
        (∀ p < 32, d.rd 0 (SAF_PTPAIR.PAIR p) = q → e.tripActs p = false))) ∧
    (d.safRuns = false ∨ d.safIx < d.saf.evalIx → d.ope.quiesce = none → Waits (.safeEvaluation t) t s) ∧
    (d.safRuns = true → d.on 0 (SAF_INST.DISCRUN n) = true → (d.safFn n).e0 + d.rd 0 (SAF_IN_A.DISC_MS n) ≤ d.safIx →
      Ends (.discFault t n) s fun e => e.rd 0 (SAF_INST.DISCF n) = 1 ∧ e.rd 0 (SAF_INST.DISCRUN n) = 0 ∧
        d.pended e 0 Ev.SAF.DISC_FAULT ∧ e.rd 0 (SAF_INST.STATE n) = if st = 3 then 2 else st) ∧
    (d.on 0 (SAF_INST.DISCRUN n) = false ∨ d.safIx < (d.safFn n).e0 + d.rd 0 (SAF_IN_A.DISC_MS n) →
      Waits (.discFault t n) t s) ∧
    (∀ len bad, rst.ended = some (len, bad) → d.safRuns = true → d.saf.evalIx = d.safIx + 1 → d.on 0 SAF_RST.JAM = false →
      (bad = false → 100 ≤ len → len ≤ 5000 → Ends (.safeResetPulseEnd t pass) s fun e =>
        let ask := d.anyDemand n; let free := d.on 0 (SAF_INST.DISCF n) = false ∨ (d.safFn n).discBoth = true;
        e.rd 0 SAF_RSTCNT.COUNT = (d.rd 0 SAF_RSTCNT.COUNT + 1) % 2 ^ 32 ∧ d.pended e 0 Ev.SAF.RST_ACCEPT ∧
        (en = true → st = 2 → ask = false → free → e.rd 0 (SAF_INST.STATE n) = 3 ∧ d.pended e 0 Ev.SAF.RELEASE) ∧
        (en = false ∨ st ≠ 2 ∨ ask = true ∨ ¬free → e.rd 0 (SAF_INST.STATE n) = st) ∧
        (∀ m < 64, d.rd 0 (SFC_STAT.STATE m) = 3 → (d.on 0 (SFC_STAT.READY m) = true → e.rd 0 (SFC_STAT.STATE m) = 2 ∧
            e.rd 0 (SFC_RX.BITS m) = (d.sfcCon m).bits % 2 ^ 32) ∧
          (d.on 0 (SFC_STAT.READY m) = false → e.rd 0 (SFC_STAT.STATE m) = 3)) ∧
        (∀ q < 8, d.rd 0 (SAF_PAIRST.STATE q) = 2 → (pass.val.testBit q = true → e.rd 0 (SAF_PAIRST.STATE q) ≠ 2) ∧
          (pass.val.testBit q = false → e.rd 0 (SAF_PAIRST.STATE q) = 2))) ∧
      (bad = true ∨ len < 100 ∨ 5000 < len → Ends (.safeResetPulseEnd t pass) s fun e =>
        e = { d with saf := { d.saf with rst := { rst with ended := none } } })) ∧
    (rst.ended = none → Waits (.safeResetPulseEnd t pass) t s) ∧
    (d.on 0 SAF_RST.JAM = false → d.safRuns = true →
      ((∃ a, (rst.aAt = some a ∨ rst.bAt = some a) ∧ 5000 < d.safIx - a) → Ends (.rstJam t) s fun e =>
        e.rd 0 SAF_RST.JAM = 1 ∧ d.pended e 0 Ev.SAF.RST_JAM ∧ e.saf.rst.pulseAt = none ∧ e.saf.rst.ended = none) ∧
      (rst.aAt = none → rst.bAt = none → Waits (.rstJam t) t s)) ∧
    (∀ a, rst.idleAt = some a → (d.on 0 SAF_RST.JAM = true → 1000 ≤ d.safIx - a → Ends (.rstJamRelease t) s fun e =>
        e = d.wr 0 SAF_RST.JAM 0) ∧ (d.safIx - a < 1000 → Waits (.rstJamRelease t) t s)) ∧
    (d.domOn .safe = true → d.on 0 SAF_STAT.FAIL = false → Ends (.islandFail t) s fun e => e.rd 0 SAF_STAT.FAIL = 1 ∧
      (∀ q < 8, e.pairOn q = false) ∧ d.pended e 0 Ev.SAF.ISLAND_FAIL) ∧
    (d.domOn .safe = false ∨ d.on 0 SAF_STAT.FAIL = true → Waits (.islandFail t) t s)

/-- Output pairs (R295, R304 to R306): a pair is off 8 ms after its trip; a readback that does not match twice in a row,
or a test whose node does not follow, sets FAULT with its code, CROSS on both where another pair's node moved. -/
def Obligations.OutputPairsDropAndFault : Prop :=
  ∀ (t : Nat) (q r : Fin 8) (h l : Bool) (hs ls : Fin 256) (s : State), let d := Dev.at t s.dev; let x := d.safPair q;
    (∀ a, x.tripAt = some a → (d.pairOn q = true → a + 8 * ticksPerMs ≤ d.now → Ends (.pairDropTimeout t q) s fun e =>
        e.pairOn q = false ∧ (e.safPair q).tripAt = none ∧ (∀ k < 8, k ≠ q.val → e.pairOn k = d.pairOn k)) ∧
      (d.now < a + 8 * ticksPerMs → Waits (.pairDropTimeout t q) t s)) ∧
    (x.tripAt = none ∨ d.pairOn q = false → Waits (.pairDropTimeout t q) t s) ∧
    (d.domOn .safe = true → Ends (.pairReadback t hs ls) s fun e =>
      let c := pairCode (d.pairOn q) (hs.val.testBit q) (ls.val.testBit q);
      e.on 0 (SAF_PAIRST.RB_H q) = hs.val.testBit q ∧ e.on 0 (SAF_PAIRST.RB_L q) = ls.val.testBit q ∧
      (e.safPair q).mis = (if c = 0 ∨ d.bit 0 SAF_PAIREN.EN q = false then 0 else x.mis + 1) ∧ (e.safPair q).code = c ∧
      e.rd 0 (SAF_PAIRST.STATE q) = d.rd 0 (SAF_PAIRST.STATE q) ∧ e.pairOn q = d.pairOn q) ∧
    (d.domOn .safe = false → Waits (.pairReadback t hs ls) t s) ∧
    (d.rd 0 (SAF_PAIRST.STATE q) ≠ 2 → 2 ≤ x.mis → Ends (.pairFault t q) s fun e => d.pairFaulted e q (x.code % 16)) ∧
    (d.rd 0 (SAF_PAIRST.STATE q) = 2 ∨ x.mis < 2 → Waits (.pairFault t q) t s) ∧
    (let due := ∀ a, x.testAt = some a → a + d.rd 0 SAF_CFG.TPER_MS * ticksPerMs ≤ d.now; let c := testCode (d.pairOn q) h l
      let runs := d.safRuns = true ∧ d.bit 0 SAF_PAIREN.EN q = true ∧ d.rd 0 (SAF_PAIRST.STATE q) ≠ 2;
      (runs → due → c = 0 → Ends (.pairTest t q h l 0) s fun e => (e.safPair q).testAt = some d.now ∧ e.regs = d.regs) ∧
      (runs → due → c ≠ 0 → Ends (.pairTest t q h l 0) s fun e => d.pairFaulted e q c) ∧
      (runs → due → c = 0 → r ≠ q → hs.val = 2 ^ r.val → Ends (.pairTest t q h l hs) s fun e => d.pairFaulted e q 5 ∧ d.pairFaulted e r 5) ∧
      (¬runs ∨ ¬due → Waits (.pairTest t q h l hs) t s))

/-- The safety layer (R308 to R310): a frame over Skein, or delivered by the host through SFC_HIN, is checked and taken as
Table SFC-1 and the connection's state say; the watchdog in RUN and three bad CRCs within a second set FAULT; in FAULT
READY follows two watchdog times of accepted frames; a frame that is due leaves by its transport with the next SEQ. -/
def Obligations.SafetyLayerConnections : Prop :=
  ∀ (t : Nat) (m : Fin 64) (k : Fin 12) (p : Port) (v : Word) (f : List Byte) (s : State), let d := Dev.at t s.dev
    let st := d.rd 0 (SFC_STAT.STATE m); let x := d.sfcCon m; let w := d.rd 0 (SFC_CON_B.WDX_MS m) * ticksPerMs
    let g := slice f 4 (leAt f 2 1); let home := d.homePort k;
    (d.rxTakes k 0x40 f → d.domOn .safe = true → d.sfcSkein home (framePos f) = [m.val] → st ≠ 0 → g.length = d.sfcLen m →
      Ends (.sfcFrameRx t k f) s fun e => d.sfcGot e m g) ∧
    (d.sknLive k = false → Waits (.sfcFrameRx t k f) t s) ∧
    (let a := Dev.arrive t p s.dev; let u := s.mem.sram.getBytes (a.sfcSlot m + 64) (a.sfcLen m);
      a.reached p .sfc 0 0x648 → a.passes .sfc 0 0x648 v = true → v.toNat % 64 = m →
      (a.rd 0 (SFC_CON_A.TRANS m) ≠ 2 → Refuses (.sfcHin t p v) s a .sfc 0 0x648 RC.RANGE) ∧
      (a.rd 0 (SFC_CON_A.TRANS m) = 2 → a.domOn .safe = true → a.rd 0 (SFC_STAT.STATE m) ≠ 0 →
        Takes (.sfcHin t p v) s .sfc 0 0x648 fun e => a.sfcGot e m u)) ∧
    (st = 2 → x.wdAt + w ≤ d.now → Ends (.sfcWatchdog t m) s fun e => d.conFaulted e m 1) ∧
    (st = 3 → x.base = true → x.wdAt + w ≤ d.now → Ends (.sfcWatchdog t m) s fun e => e.rd 0 (SFC_STAT.STATE m) = 3 ∧
      e.rd 0 (SFC_STAT.READY m) = 0 ∧ (e.sfcCon m).base = false) ∧
    (st < 2 ∨ d.now < x.wdAt + w → Waits (.sfcWatchdog t m) t s) ∧
    (∀ a b c, x.crcAt = [a, b, c] → (a ≤ c + ticksPerS → (st = 1 ∨ st = 2 → Ends (.sfcCrcRate t m) s fun e =>
          d.conFaulted e m 2) ∧ (st = 3 → Ends (.sfcCrcRate t m) s fun e => e.rd 0 (SFC_STAT.STATE m) = 3 ∧
          e.rd 0 (SFC_STAT.READY m) = 0 ∧ (e.sfcCon m).crcAt = [])) ∧
      (c + ticksPerS < a → Waits (.sfcCrcRate t m) t s)) ∧
    (x.crcAt.length < 3 → Waits (.sfcCrcRate t m) t s) ∧
    (st = 3 → x.base = true → x.readyAt + 2 * w ≤ d.now → d.now < x.wdAt + w → Ends (.sfcReady t m) s fun e =>
      e = d.wr 0 (SFC_STAT.READY m) 1) ∧
    (st ≠ 3 ∨ x.base = false ∨ d.now < x.readyAt + 2 * w → Waits (.sfcReady t m) t s) ∧
    (let tr := d.rd 0 (SFC_CON_A.TRANS m); let y := d.sfcFrame m; let port := d.rd 0 (SFC_CON_A.PORT m)
      let pos := d.rd 0 (SFC_CON_A.NODE m); let peer := d.rd 0 (SFC_CON_A.PEER m)
      let sent (e : Dev) : Prop := (e.sfcCon m).txSeq = (x.txSeq + 1) % 65536 ∧ (e.sfcCon m).txAt = some d.now;
      (d.sfcDue m = true → tr = 0 → d.nodeUp port pos = true → d.plySilent = false → d.rd port SKN_CFG.TOPO = 0 →
        Ends (.sfcTx t m) s fun e => sent e ∧
          e.sent = sentWith (.skein port d.now (withCrc (b1 0x40 ++ b1 pos ++ b1 y.length ++ b1 0 ++ y))) d.sent) ∧
      (d.sfcDue m = true → tr = 1 → d.yarnOn = true → d.peerUp peer = true → d.plySilent = false →
        Ends (.sfcTx t m) s fun e => sent e ∧
          ∃ b, e.yarn.q = d.yarn.q ++ [{ peer := peer, cls := 0, data := y, boff := b, boffAt := d.now }]) ∧
      (d.sfcDue m = true → tr = 2 → ∃ u, exec (.sfcTx t m) s = .next u ∧ sent u.dev ∧ d.pended u.dev 0 Ev.SFC.HOST_TX ∧
        (if m.val < 32 then u.dev.bit 0 SFC_HOUTPEND_LO.PEND m else u.dev.bit 0 SFC_HOUTPEND_HI.PEND (m - 32)) = true ∧
        (∀ j < y.length, u.sramByte (d.sfcSlot m + j) = y.getD j 0#8) ∧ u.mem.mram = s.mem.mram ∧ u.pending = s.pending) ∧
      (d.sfcDue m = false → Waits (.sfcTx t m) t s))

/-! ### Operations and the fault recorder -/

/-- The operation engine (R314 to R319, R322): a write of OPE_SQ_TAIL moves it forward within the free descriptors; a safe
operation issues into its target's slot, then an internal one, then the host's, into a free general slot with a credit
and journal room, each with its ISSUE record; an invalid descriptor completes with RANGE and no record; a finished
operation gets its DONE record, leaves its slot, and its completion is delivered or held; below RELOC a live record at
the tail is copied to the head. While issue is stopped nothing issues. -/
def Obligations.OperationsIssueAndComplete : Prop :=
  ∀ (t : Nat) (p : Port) (v : Word) (slot : Fin 384) (o : Op) (rest : List Op) (bs : List Byte) (s : State),
    let d := Dev.at t s.dev; let jnl := d.rd 0 JNL_HEAD.IDX; let seq := d.jnlSeq + 1; let q := descOp bs
    let issued (e : Dev) (o : Op) (k : Nat) : Prop := (∃ x, e.ope.flight = d.ope.flight ++ [x] ∧ x.slot = k ∧
        x.kind = o.kind ∧ x.args = o.args ∧ x.phase = .issued ∧ x.refSeq = seq % 2 ^ 64 ∧ x.recIdx = jnl) ∧
      (∃ r, e.jrec jnl = some r ∧ r.kind = 1 ∧ r.opkind = o.kind ∧ r.slot = k ∧ r.seq = seq ∧ r.ref = seq ∧ r.body = o.args) ∧
      e.rd 0 OPE_ISSUED.COUNT = (d.rd 0 OPE_ISSUED.COUNT + 1) % 2 ^ 32 ∧ e.ope.used = d.ope.used + 1 ∧
      e.rd 0 JNL_HEAD.IDX = ringNext jnl % 2 ^ 16;
    (let w := Dev.arrive t p s.dev; let size := w.rd 0 OPE_SQ_SIZE.SIZE; let x := v.toNat % 1024
      let fits := x < size ∧ (x + size - w.rd 0 OPE_SQ_TAIL.IDX) % size ≤ size - 1 - w.sqWaiting;
      w.reached p .ope 0 0x444 → w.passes .ope 0 0x444 v = true →
      (fits → Takes (.sqTailWrite t p v) s .ope 0 0x444 fun e => e = w.wr 0 OPE_SQ_TAIL.IDX x) ∧
      (¬fits → Refuses (.sqTailWrite t p v) s w .ope 0 0x444 RC.RANGE)) ∧
    (d.issueStopped = true → Waits (.operationIssue t) t s ∧ Waits (.invalidDescriptor t) t s) ∧
    (d.issueStopped = false →
      (d.ope.safeQ = o :: rest → (d.opAt (safeSlot o.kind (o.arg 8 1))).isSome = false → d.opWaits o = false →
        Ends (.operationIssue t) s fun e => issued e o (safeSlot o.kind (o.arg 8 1)) ∧ e.ope.safeQ = rest ∧
          e.ope.intQ = d.ope.intQ) ∧
      (d.ope.safeQ = [] → d.ope.intQ = o :: rest → d.jnlRoom = true → d.opWaits o = false →
        (∀ k, d.freeSlot = some k → Ends (.operationIssue t) s fun e => issued e o k ∧ e.ope.intQ = rest) ∧
        (d.freeSlot = none → d.sqHead s.mem.sram = none → Ends (.operationIssue t) s fun e =>
          e.ope.flight = d.ope.flight ∧ e.ope.intQ = d.ope.intQ ∧ e.ope.jnl = d.ope.jnl)) ∧
      (d.ope.safeQ = [] → d.ope.intQ = [] → d.sqHead s.mem.sram = some bs → d.descTake bs = true → opSafe q.kind = false →
        (∀ k, d.freeSlot = some k → d.jnlRoom = true → d.cqCredits ≠ 0 → d.pauseOver q = true → d.opWaits q = false →
          Ends (.operationIssue t) s fun e => issued e (q.withPayloadCrc s.mem.sram) k ∧
            e.rd 0 OPE_SQ_HEAD.IDX = (d.rd 0 OPE_SQ_HEAD.IDX + 1) % d.rd 0 OPE_SQ_SIZE.SIZE % 1024) ∧
        (d.jnlRoom = true → d.cqCredits = 0 → Ends (.operationIssue t) s fun e => e.ope.flight = d.ope.flight ∧
          e.ope.waitCq = true ∧ e.rd 0 OPE_SQ_HEAD.IDX = d.rd 0 OPE_SQ_HEAD.IDX ∧
          (d.ope.waitCq = false → d.pended e 0 Ev.OPE.STALL_CQ))) ∧
      (d.sqHead s.mem.sram = some bs → d.descTake bs = false → d.cqCredits ≠ 0 → Ends (.invalidDescriptor t) s fun e =>
        e.rd 0 OPE_INVALID.COUNT = (d.rd 0 OPE_INVALID.COUNT + 1) % 2 ^ 32 ∧ d.pended e 0 Ev.OPE.INVALID_DESC ∧
        e.ope.flight = d.ope.flight ∧ e.ope.used = d.ope.used ∧
        ∃ c : CqEntry, c.tag = q.tag ∧ c.status = 1 ∧ (e.host.cq = d.host.cq ++ [c] ∨ e.host.cqHeld = d.host.cqHeld ++ [c])) ∧
      (d.sqHead s.mem.sram = none ∨ d.cqCredits = 0 → Waits (.invalidDescriptor t) t s)) ∧
    (d.opAt slot = some o → o.slot = slot → o.phase = .finished → Ends (.operationComplete t slot) s fun e =>
      e.ope.flight = d.ope.flight.filter (fun x => x.slot ≠ slot.val) ∧ e.opAt slot = none ∧
      (∃ r, e.jrec jnl = some r ∧ r.kind = 2 ∧ r.slot = slot ∧ r.seq = seq ∧ r.ref = o.refSeq ∧
        r.body.take 2 = leBytes 2 o.status) ∧
      e.rd 0 OPE_COMPLETED.COUNT = (d.rd 0 OPE_COMPLETED.COUNT + 1) % 2 ^ 32 ∧
      (o.host = true → o.merged = [] → ∃ c : CqEntry, c.tag = o.tag ∧ c.status = o.status ∧ c.jnlIndex = jnl ∧
        (e.host.cq = d.host.cq ++ [c] ∨ e.host.cqHeld = d.host.cqHeld ++ [c])) ∧
      (o.host = false → o.merged = [] → e.host.cq = d.host.cq ∧ e.host.cqHeld = d.host.cqHeld)) ∧
    (d.opAt slot = none ∨ (∃ o, d.opAt slot = some o ∧ o.phase ≠ .finished) → Waits (.operationComplete t slot) t s) ∧
    (let i := d.rd 0 JNL_TAIL.IDX; ∀ r, d.jnlLive i = true → d.jrec i = some r → r.kind = 1 → d.ope.used ≠ 0 →
      (d.jnlFree < d.rd 0 JNL_CFG.RELOC → Ends (.journalRelocate t) s fun e =>
        e.jrec jnl = some { r with kind := 3, seq := seq } ∧ e.rd 0 JNL_RELOCS.COUNT = (d.rd 0 JNL_RELOCS.COUNT + 1) % 2 ^ 32 ∧
        (∀ x ∈ d.ope.flight, x.recIdx = i → ∃ y ∈ e.ope.flight, y = { x with recIdx := jnl })) ∧
      (d.rd 0 JNL_CFG.RELOC ≤ d.jnlFree → Waits (.journalRelocate t) t s))

/-- Operations on nodes, the MRAM and captures (R143, R313, R376), and the recorder's commands (R371, R372): a node
operation sends its request and waits for the answer, or ends at once where its position cannot be reached; NVM_READ and
NVM_WRITE move the bytes named; CAL_RUN ends with 0 or, its domain not ON, 8; CAP_READ copies a frozen region's entries,
or ends with RANGE or STATE. ARM empties the recorder under the next CAPID, refused in ARMED, POST or during a readout;
DISARM makes it IDLE; FIRE triggers it, ignored and counted in IDLE and FROZEN. -/
def Obligations.NodeMemoryAndCaptureOperations : Prop :=
  ∀ (t : Nat) (slot : Fin 384) (o : Op) (p : Port) (v : Word) (s : State), let d := Dev.at t s.dev; let w := Dev.arrive t p s.dev;
    (d.opAt slot = some o → o.slot = slot → o.phase = .issued →
      let port := o.arg 8 1; let pos := o.arg 9 1; let up := d.nodeUp port pos;
      let asks (c : Instr) (op index : Nat) (x : Int) : Prop := port < 12 →
        (up = true → Ends c s fun e => (∃ y, e.opAt slot = some y ∧ y.phase = .acting) ∧
          ∃ r, e.skn.reqs = d.skn.reqs ++ [r] ∧ r.port = port ∧ r.pos = pos ∧ r.op = op ∧ r.index = index ∧ r.value = x ∧
            r.owner = .op slot) ∧
        (up = false → Ends c s fun e => e.opEnds slot (d.ioStatus port) ∧ e.skn.reqs = d.skn.reqs ∧
          e.rd port SKN_IOFAIL.COUNT = (d.rd port SKN_IOFAIL.COUNT + 1) % 2 ^ 32);
      (o.kind = OK.IO_OUT → asks (.ioOut t slot) 0 (o.arg 10 1) (toSigned 32 (o.arg 12 4))) ∧
      (o.kind = OK.NODE_RD → asks (.nodeRd t slot) 3 (o.arg 10 1) 0) ∧
      (o.kind = OK.NODE_WR → asks (.nodeWr t slot) 2 (o.arg 10 1) (toSigned 32 (o.arg 12 4))) ∧
      (o.kind = OK.NODE_ARM → asks (.nodeArm t slot) 2 2 1) ∧
      (o.kind = OK.CAL_RUN → Ends (.calRun t slot) s fun e =>
        e.opEnds slot (if d.domOn (domOf (calTag (o.arg 8 1)) (o.arg 9 1)) then 0 else 8) ∧ e.regs = d.regs) ∧
      (let a := mramBase (o.arg 8 1) + o.arg 12 4; let b := o.arg 16 4; let n := o.arg 10 2;
        (o.kind = OK.NVM_READ → d.domOn .mem = true → ∃ u, exec (.nvmRead t slot) s = .next u ∧ u.dev.opEnds slot 0 ∧
          u.mem.mram = s.mem.mram ∧ (∀ j < n, u.sramByte (b + j) = s.mramByte (a + j)) ∧
          (∀ k, k < b ∨ b + n ≤ k → u.sramByte k = s.sramByte k)) ∧
        (o.kind = OK.NVM_WRITE → d.domOn .mem = true → ∃ u, exec (.nvmWrite t slot) s = .next u ∧ u.dev.opEnds slot 0 ∧
          u.mem.sram = s.mem.sram ∧ (∀ j < n, u.mramByte (a + j) = s.sramByte (b + j)) ∧
          (∀ k, k < a ∨ a + n ≤ k → u.mramByte k = s.mramByte k))) ∧
      (let r := 4 * o.arg 8 1 + o.arg 9 1; let n := o.arg 20 4; let size := frcEntrySize (o.arg 9 1);
        o.kind = OK.CAP_READ → d.domOn .frc = true → o.arg 9 1 < 4 →
        (n = 0 ∨ d.frcDepth r < o.arg 12 4 + n → Ends (.capRead t slot) s fun e => e.opEnds slot 1) ∧
        (n ≠ 0 → o.arg 12 4 + n ≤ d.frcDepth r → d.on 0 (FRC_R_A.FROZEN r) = false ∨ o.arg 24 4 ≠ d.rd 0 FRC_CAPID.ID →
          Ends (.capRead t slot) s fun e => e.opEnds slot 2) ∧
        (n ≠ 0 → o.arg 12 4 + n ≤ d.frcDepth r → d.on 0 (FRC_R_A.FROZEN r) = true → o.arg 24 4 = d.rd 0 FRC_CAPID.ID →
          ∃ u, exec (.capRead t slot) s = .next u ∧ u.dev.opEnds slot 0 ∧ u.mem.mram = s.mem.mram ∧
            (∀ i < n, ∀ j < size, u.sramByte (o.arg 16 4 + i * size + j) =
              d.edram.get (fun _ => 0#8) (d.rd 0 (FRC_R_A.BASE r) * 65536 +
                (d.rd 0 (FRC_R_B.FIRST r) + o.arg 12 4 + i) % d.frcDepth r * size + j))))) ∧
    (let st := w.rd 0 FRC_STAT.STATE; let arm := v.toNat.testBit 0; let fire := v.toNat.testBit 1; let dis := v.toNat.testBit 2;
      w.reached p .frc 0 0x440 → w.passes .frc 0 0x440 v = true →
      (arm = true → fire = false → dis = false → w.frcMaster = true →
        (st = 1 ∨ st = 2 → Refuses (.frcArm t p v) s w .frc 0 0x440 0x81) ∧
        (st = 0 ∨ st = 3 → w.capReading = true → Refuses (.frcArm t p v) s w .frc 0 0x440 0x82) ∧
        (st = 0 ∨ st = 3 → w.capReading = false → Takes (.frcArm t p v) s .frc 0 0x440 fun e =>
          (w.rd 0 FRC_CFG.SRCEN = 0 → e.rd 0 FRC_STAT.STATE = 1 ∧ e.frc.regions = []) ∧ w.pended e 0 Ev.FRC.ARMED ∧
          e.rd 0 FRC_CAPID.ID = (w.rd 0 FRC_CAPID.ID + 1) % 2 ^ 32 ∧
          (∀ r < 64, w.rd 0 FRC_CFG.SRCEN = 0 → e.rd 0 (FRC_R_A.FROZEN r) = 0) ∧
          (∀ k < 8, w.rd 0 FRC_CFG.SRCEN = 0 → e.rd 0 (FRC_TLOG_A.VALID k) = 0))) ∧
      (arm = true → w.frcMaster = false → Refuses (.frcArm t p v) s w .frc 0 0x440 RC.ROLE) ∧
      (arm = false → fire = false → dis = true → w.frcMaster = true → Takes (.frcDisarm t p v) s .frc 0 0x440 fun e =>
        e.rd 0 FRC_STAT.STATE = 0 ∧ e.frc = w.frc) ∧
      (arm = false → dis = false → fire = true →
        (w.bit 0 FRC_CFG.SRCEN 0 = false → Takes (.frcFire t p v) s .frc 0 0x440 fun e => e = w) ∧
        (w.bit 0 FRC_CFG.SRCEN 0 = true → (st = 0 ∨ st = 3 → Takes (.frcFire t p v) s .frc 0 0x440 fun e =>
            e = w.inc 0 FRC_IGNCNT.COUNT) ∧
          (st = 1 ∨ st = 2 → Takes (.frcFire t p v) s .frc 0 0x440 fun e => (e.rd 0 FRC_STAT.STATE = 2 ∨
            e.rd 0 FRC_STAT.STATE = 3) ∧ (st = 1 → e.frcTtrig ≤ w.now ∧ w.pended e 0 Ev.FRC.TRIGGERED)))))

/-! ### Keys -/

/-- The crypto functions (R357, R360 to R363, Table CRY-1): each ends its operation with the status of its check, and where
it succeeds with its output, or with the context it loads or frees; with CRY not ON the status is 8, in SCRAPPED KEY_LC;
an operation that waits for an earlier one is left alone. Every one that runs with CRY ON is counted. -/
def Obligations.CryptoFunctions : Prop :=
  ∀ (t : Nat) (slot : Fin 384) (o : Op) (s : State), let d := Dev.at t s.dev; let sram := s.mem.sram; let x := o.cryInput sram
    let n := o.keyref; let room := o.arg 24 4; let ran (e : Dev) : Prop := e.rd 0 CRY_OPS.COUNT = (d.rd 0 CRY_OPS.COUNT + 1) % 2 ^ 32
    let key (a : Nat) : Except Nat UseKey := d.withAttr (d.refUse n) a; let on := d.domOn .cry = true ∧ d.key.lc ≠ 4;
    (∀ c ∈ cryCmds t slot, (d.cryReady sram slot o c.1 → (d.domOn .cry = false → CryEnds c.2 s slot o 8 none fun e => e.regs = d.regs) ∧
        (d.domOn .cry = true → d.key.lc = 4 → CryEnds c.2 s slot o 0x22 none ran)) ∧
      (d.opAt slot = none ∨ (d.opAt slot = some o ∧ (o.func ≠ c.1 ∨ d.cryWaits sram o = true)) → Waits c.2 t s)) ∧
    (d.cryReady sram slot o 1 → on → (∀ c, key KA.SIGN = .error c → CryEnds (.sign t slot) s slot o c none ran) ∧
      (∀ k, key KA.SIGN = .ok k → (x.length = 32 ∨ x.length = 48 → d.on 0 KEY_TRNG.FAIL = false →
          4 + 2 * keyLen k.typ ≤ room → CryEnds (.sign t slot) s slot o 0
            (some (fixLen (2 * keyLen k.typ) (Config.ecdsaSign (Config.freeNat d.freeCnt) k.key x))) ran) ∧
        (x.length = 32 ∨ x.length = 48 → d.on 0 KEY_TRNG.FAIL = true → CryEnds (.sign t slot) s slot o 0x2C none ran) ∧
        (x.length ≠ 32 → x.length ≠ 48 → CryEnds (.sign t slot) s slot o 0x28 none ran))) ∧
    (d.cryReady sram slot o 2 → on → ∀ k, n ≠ 0xFF → key KA.VERIFY = .ok k →
      let g := keyLen k.typ - 1; let m := x.length - g; let good := Config.ecdsaVerify k.key (x.take m) (x.drop m);
      g ≤ x.length → m = 32 ∨ m = 48 → CryEnds (.verify t slot) s slot o (if good then 0 else 0x25) none ran) ∧
    (d.cryReady sram slot o 3 → on → ∀ k, key KA.ECDH = .ok k → x.length = 2 * keyLen k.typ + 1 →
      (∀ z, Config.ecdhSecret k.key x = some z → 4 + keyLen k.typ ≤ room →
        CryEnds (.ecdh t slot) s slot o 0 (some (fixLen (keyLen k.typ) z)) ran) ∧
      (Config.ecdhSecret k.key x = none → CryEnds (.ecdh t slot) s slot o 0x28 none ran)) ∧
    (d.cryReady sram slot o 4 → on → let typ := o.aux; let attr := leAt x 0 1; let parent := leAt x 2 1
      let k := (d.drawBytes (keyLen typ)).1; let pub := if typ ≤ 2 then fixLen (2 * keyLen typ + 1) (Config.ecPublic k) else []
      let blob := ((d.drawBytes (keyLen typ)).2.mkBlob typ attr (leAt x 1 1) parent (slice x 4 4) k).1;
      n < 64 → x.length = 8 → leAt x 3 1 = 0 → typ ∈ [1, 2, 5, 6] →
      (d.ctxUsed n = true → CryEnds (.genkey t slot) s slot o 0x27 none ran) ∧
      (d.ctxUsed n = false → attrOk typ attr false = false → CryEnds (.genkey t slot) s slot o 0x21 none ran) ∧
      (d.ctxUsed n = false → attrOk typ attr false = true → d.parentStatus parent KA.WRAP = 0 → d.on 0 KEY_TRNG.FAIL = false →
        4 + pub.length + blob.length ≤ room → CryEnds (.genkey t slot) s slot o 0 (some (pub ++ blob)) fun e => ran e ∧
          e.ctxUsed n = true ∧ e.rd 0 (CRY_CTX.TYPE n) = typ ∧ e.rd 0 (CRY_CTX.ATTR n) = attr ∧
          e.key.ctx.get (fun _ => []) n = k)) ∧
    (d.cryReady sram slot o 5 → on → n < 64 → x.length = 96 → leAt x 0 1 = 1 →
      (d.ctxUsed n = true → CryEnds (.load t slot) s slot o 0x27 none ran) ∧
      (d.ctxUsed n = false → leAt x 5 1 ≠ d.key.lc ∨ leAt x 6 2 ≠ d.key.gen → CryEnds (.load t slot) s slot o 0x2D none ran) ∧
      (d.ctxUsed n = false → d.blobStatus x = 0 →
        let k := Config.gcmDec (d.blobKey (leAt x 4 1)) (slice x 8 12) (x.take 32) (x.drop 32);
        (k = none → CryEnds (.load t slot) s slot o 0x23 none ran) ∧
        (∀ y, k = some y → CryEnds (.load t slot) s slot o 0 none fun e => ran e ∧ e.ctxUsed n = true ∧
          e.rd 0 (CRY_CTX.PARENT n) = leAt x 4 1 % 64 ∧ e.key.ctx.get (fun _ => []) n = fixLen (keyLen (leAt x 1 1)) y))) ∧
    (d.cryReady sram slot o 6 → on → n < 64 →
      (d.ctxUsed n = true → CryEnds (.unload t slot) s slot o 0 none fun e => ran e ∧ e.ctxUsed n = false ∧
        e.key.ctx.get (fun _ => []) n = []) ∧
      (d.ctxUsed n = false → CryEnds (.unload t slot) s slot o 0x20 none ran)) ∧
    (d.cryReady sram slot o 7 → on → let typ := leAt x 0 1; let attr := leAt x 1 1;
      64 ≤ n → n < 96 → o.aux < 32 → typ ∈ [1, 2, 5, 6] → x.length = 129 + keyLen typ → leAt x 3 1 = 0 → d.importStatus n typ attr = 0 →
      (∀ c, d.openPackage o.aux (n % 64) x = .error c → CryEnds (.import t slot) s slot o c none ran) ∧
      (∀ k, d.openPackage o.aux (n % 64) x = .ok k → CryEnds (.import t slot) s slot o 0 none fun e => ran e ∧
        e.kslot (n - 64) = { state := 1, typ := typ, attr := attr, lcmask := leAt x 2 1, role := 0, parent := o.aux, key := k })) ∧
    (d.cryReady sram slot o 8 → on → ∀ k, key KA.MAC = .ok k → 52 ≤ room →
      CryEnds (.mac t slot) s slot o 0 (some (fixLen 48 (Config.hmac k.key x))) ran) ∧
    (d.cryReady sram slot o 9 → on → ∀ k, key KA.ENC = .ok k → let a := leAt x 12 2; let p := x.drop (14 + a);
      14 + a ≤ x.length → 20 + p.length ≤ room → CryEnds (.enc t slot) s slot o 0
        (some (fixLen (p.length + 16) (Config.gcmEnc k.key (x.take 12) (slice x 14 a) p))) ran) ∧
    (d.cryReady sram slot o 10 → on → ∀ k, key KA.DEC = .ok k → let a := leAt x 12 2; let c := x.drop (14 + a)
      let p := Config.gcmDec k.key (x.take 12) (slice x 14 a) c; 30 + a ≤ x.length →
      (p = none → CryEnds (.dec t slot) s slot o 0x23 none ran) ∧
      (∀ y, p = some y → 4 + (c.length - 16) ≤ room → CryEnds (.dec t slot) s slot o 0 (some (fixLen (c.length - 16) y)) ran)) ∧
    (d.cryReady sram slot o 11 → on → n = 0xFF → o.aux ≤ 1 → let len := if o.aux = 0 then 32 else 48;
      (4 + len ≤ room → CryEnds (.digest t slot) s slot o 0 (some (fixLen len (Config.digest o.aux x))) ran) ∧
      (room < 4 + len → CryEnds (.digest t slot) s slot o 0x28 none ran)) ∧
    (d.cryReady sram slot o 12 → on → n = 0xFF → x = [] → 4 ≤ room →
      (d.on 0 KEY_TRNG.FAIL = false → CryEnds (.random t slot) s slot o 0 (some (d.drawBytes (min 4096 (room - 4))).1) ran) ∧
      (d.on 0 KEY_TRNG.FAIL = true → CryEnds (.random t slot) s slot o 0x2C none ran))

/-- Slots, lifecycle, generation, images, entropy and the challenge (R351, R353 to R357, R359, R361, R365 to R367):
a store fills an EMPTY or INVALID slot under the token rule; an invalidation takes the slot's descendants and the
contexts under them, unless an enabled block uses one; lifecycle and generation move forward with a token and clear
every context, SCRAPPED also every slot; an image is written only to a bank neither running nor confirmed, becomes TRIAL
when it passes and CONFIRMED while it runs; a write of NEW draws a challenge, void after 60 s; without debug the JTAG port
takes BYPASS, IDCODE and SAMPLE/PRELOAD alone. -/
def Obligations.KeysAndImages : Prop :=
  ∀ (t : Nat) (slot : Fin 384) (o : Op) (p : Port) (v : Word) (s : State), let d := Dev.at t s.dev; let sram := s.mem.sram
    let x := o.cryInput sram; let n := o.keyref; let k := o.aux; let on := d.domOn .cry = true ∧ d.key.lc ≠ 4
    let free (e : Dev) : Prop := ∀ c < 64, e.ctxUsed c = false;
    (d.cryReady sram slot o 0x10 → on → let m := d.slotTokLen;
      k < 32 → (d.slotOps = false ∨ (k = 0 ∧ d.key.lc ≠ 1) → CryEnds (.slotStore t slot) s slot o 0x22 none fun e => e.key = d.key) ∧
      (d.slotOps = true → k ≠ 0 ∨ d.key.lc = 1 → 4 + m ≤ x.length → ∀ typ key, d.storeKey n (x.drop (4 + m)) = .ok (typ, key) →
        let ok := storeOk k typ (leAt x 0 1) (leAt x 2 1) (leAt x 3 1); let tok := d.slotTok k (slice x 4 m);
        ((d.kslot k).state = 1 → CryEnds (.slotStore t slot) s slot o 0x27 none fun e => e.key = d.key) ∧
        ((d.kslot k).state ≠ 1 → ok = false → CryEnds (.slotStore t slot) s slot o 0x21 none fun e => e.key = d.key) ∧
        ((d.kslot k).state ≠ 1 → ok = true → tok = false → CryEnds (.slotStore t slot) s slot o 0x26 none fun e =>
          e.kslot k = d.kslot k) ∧
        ((d.kslot k).state ≠ 1 → ok = true → tok = true → CryEnds (.slotStore t slot) s slot o 0 none fun e =>
          e.kslot k = { state := 1, typ := typ, attr := leAt x 0 1, lcmask := leAt x 1 1, role := leAt x 2 1,
                        parent := leAt x 3 1, key := key } ∧ (m ≠ 0 → e.key.chalAt = none) ∧
          (∀ j ≠ k, e.kslot j = d.kslot j)))) ∧
    (d.cryReady sram slot o 0x11 → on → n = 0xFF → k < 32 → d.slotOps = true → x.length = d.slotTokLen → let fam := d.family k;
      (d.slotTok k x = false → CryEnds (.slotInvalidate t slot) s slot o 0x26 none fun e => e.key.slots = d.key.slots) ∧
      (d.slotTok k x = true → d.slotsInUse fam = true → CryEnds (.slotInvalidate t slot) s slot o 2 none fun e =>
        e.key.slots = d.key.slots) ∧
      (d.slotTok k x = true → d.slotsInUse fam = false → CryEnds (.slotInvalidate t slot) s slot o 0 none fun e =>
        (∀ j ∈ fam, (e.kslot j).state = 2 ∧ (e.kslot j).key = []) ∧ (∀ j, fam.contains j = false → e.kslot j = d.kslot j) ∧
        (∀ c < 64, fam.contains (d.rd 0 (CRY_CTX.PARENT c)) = true → e.ctxUsed c = false) ∧ d.pended e 0 Ev.KEY.SLOT_INVALID)) ∧
    (d.cryReady sram slot o 0x12 → on → n = 0xFF → d.debug = false → let c := leAt x 1 1; let ok := d.tokenOk 1 c x
      let became (e : Dev) (c : Nat) : Prop := e.key.lc = c ∧ e.rd 0 KEY_LC.STATE = c % 16 ∧ free e ∧
        d.pended e 0 Ev.KEY.LC_CHANGE ∧ (c = 4 → ∀ j < 32, (e.kslot j).state = 2);
      (x = [] → d.key.lc = 3 → CryEnds (.lcAdvance t slot) s slot o 0 none fun e => became e 4) ∧
      (x.length = 160 → d.lcMay c = false → CryEnds (.lcAdvance t slot) s slot o 0x22 none fun e => e.key = d.key) ∧
      (x.length = 160 → d.lcMay c = true → ok = false → CryEnds (.lcAdvance t slot) s slot o 0x26 none fun e => e.key.lc = d.key.lc) ∧
      (x.length = 160 → d.lcMay c = true → ok = true → CryEnds (.lcAdvance t slot) s slot o 0 none fun e => became e c ∧
        e.key.chalAt = none)) ∧
    (d.cryReady sram slot o 0x13 → on → n = 0xFF → d.debug = false → x.length = 160 →
      (63 ≤ d.key.gen → CryEnds (.genAdvance t slot) s slot o 0x29 none fun e => e.key = d.key) ∧
      (d.key.gen < 63 → d.tokenOk 2 0 x = true → CryEnds (.genAdvance t slot) s slot o 0 none fun e =>
        e.key.gen = d.key.gen + 1 ∧ e.rd 0 KEY_GEN.GEN = d.key.gen + 1 ∧ free e ∧ e.key.lc = d.key.lc ∧
        d.pended e 0 Ev.KEY.GEN_ADVANCE)) ∧
    (d.cryReady sram slot o 0x14 → on → n = 0xFF → let ok := d.key.lc ≠ 3 ∧ x = [] ∨ d.key.lc = 3 ∧ d.tokenOk 3 0 x = true;
      (d.key.lc = 2 → CryEnds (.debugArm t slot) s slot o 0x22 none fun e => e.key = d.key) ∧
      (d.key.lc ≠ 2 → ok → CryEnds (.debugArm t slot) s slot o 0 none fun e => e.key.armed = true ∧ e.rd 0 KEY_LC.DBGARM = 1 ∧
        d.pended e 0 Ev.KEY.DEBUG_ARMED)) ∧
    (d.cryReady sram slot o 0x18 → on → n = 0xFF → k ≤ 1 → 4 ≤ x.length → x.length ≤ 32772 → let a := leAt x 0 4;
      (∀ b, d.bankFree k = some b → (bankBase b ≤ a → a + (x.length - 4) ≤ bankBase b + bankLen b →
          CryEnds (.imgWrite t slot) s slot o 0 none fun e => e.flash a (x.length - 4) = x.drop 4 ∧ e.bank b = 0) ∧
        (a < bankBase b ∨ bankBase b + bankLen b < a + (x.length - 4) → CryEnds (.imgWrite t slot) s slot o 1 none fun e => e.key = d.key))) ∧
    (d.cryReady sram slot o 0x19 → on → n = 0xFF → k ≤ 1 → x = [] → ∀ b, d.bankFree k = some b →
      let good := d.key.broken.get (fun _ => false) b = false ∧ d.imgOk b = true;
      (¬good → CryEnds (.imgCommit t slot) s slot o 0x2B none fun e => e.bank b = d.bank b) ∧
      (good → d.imgSvn b < d.key.minSvn → CryEnds (.imgCommit t slot) s slot o 0x2A none fun e => e.bank b = d.bank b) ∧
      (good → d.key.minSvn ≤ d.imgSvn b → CryEnds (.imgCommit t slot) s slot o 0 none fun e => e.bank b = 2 ∧
        d.pended e 0 Ev.KEY.IMG_TRIAL)) ∧
    (d.cryReady sram slot o 0x1A → on → n = 0xFF → k ≤ 1 → x = [] →
      let b := if k = 0 then d.rd 0 KEY_IMG.BOOTBANK else d.key.cfgRun; let svn := d.imgSvn b;
      (d.bank b ≠ 2 → CryEnds (.imgConfirm t slot) s slot o 2 none fun e => e.key = d.key) ∧
      (d.bank b = 2 → k = 1 ∨ svn ≤ 63 → CryEnds (.imgConfirm t slot) s slot o 0 none fun e => e.bank b = 1 ∧
        e.key.minSvn = (if k = 0 then max d.key.minSvn svn else d.key.minSvn) ∧
        (k = 0 → d.key.minSvn < svn → d.pended e 0 Ev.KEY.ROLLBACK))) ∧
    (Ends (.entropyFail t) s fun e => e.rd 0 KEY_TRNG.FAIL = 1 ∧ e.key = { d.key with failAt := d.now } ∧
      d.pended e 0 Ev.KEY.ENTROPY_FAIL) ∧
    (d.on 0 KEY_TRNG.FAIL = true → d.key.failAt + ticksPerS ≤ d.now → Ends (.entropyRestart t) s fun e =>
      e = d.wr 0 KEY_TRNG.FAIL 0) ∧
    (d.on 0 KEY_TRNG.FAIL = false ∨ d.now < d.key.failAt + ticksPerS → Waits (.entropyRestart t) t s) ∧
    (let w := Dev.arrive t p s.dev; w.reached p .key 0 0x44C → w.passes .key 0 0x44C v = true →
      (w.key.lc = 4 → Refuses (.keyChallengeNew t p v) s w .key 0 0x44C RC.LIFECYCLE) ∧
      (w.key.lc ≠ 4 → v.getLsbD 0 = true → w.on 0 KEY_TRNG.FAIL = false → Takes (.keyChallengeNew t p v) s .key 0 0x44C fun e =>
        e.key = { w.key with chalAt := some w.now } ∧ e.chal = (w.drawBytes 48).1)) ∧
    (∀ a, d.key.chalAt = some a → (a + 60 * ticksPerS ≤ d.now → Ends (.keyChallengeExpiry t) s fun e =>
        e = { d with key := { d.key with chalAt := none } }) ∧ (d.now < a + 60 * ticksPerS → Waits (.keyChallengeExpiry t) t s)) ∧
    (d.key.chalAt = none → Waits (.keyChallengeExpiry t) t s) ∧
    (∀ ir : JtagIr, d.sys.held = false →
      let may := ir = .bypass ∨ ir = .idcode ∨ ir = .samplePreload ∨ d.on 0 KEY_LC.DBGEN = true;
      (may → exec (.regWrite t p (.jtag ir) v) s = .next { s with dev := { d with sys := { d.sys with jtag := ir } } }) ∧
      (¬may → Waits (.regWrite t p (.jtag ir) v) t s))

/-! ### Reset, power, clocks -/

/-- Cast-on and reset (R325 to R327, R402, R404 to R407, R409 to R411): RSTN, the runtime's watchdog and a write of RST_REQ
request a SYS reset with their causes, and the quiesce window that it opens ends after 2 ms at the latest; the loss of a
rail holds the dies of its sets in power-on reset, and its release begins cast-on, with the timebase at 0. Cast-on then
waits for the clocks, loads OTP and makes the root or stops, picks the runtime bank and the configuration bank or stops,
scans the journal and counts what it resolves, and shows READY once nothing blocks it; a write of SYS_CTL releases the
device unless something blocks that. -/
def Obligations.CastOnAndReset : Prop :=
  ∀ (t : Nat) (fails : Nat) (bad : List Nat) (r : Rail) (p : Port) (v : Word) (s : State), let d := Dev.at t s.dev
    let step (n : Nat) : Prop := d.castGoes = true ∧ d.sys.step = n; let go := Instr.castOnAdvance t fails bad;
    (let low : Dev := { d with sys := { d.sys with rstn := true } };
      Ends (.rstnAssert t) s fun e => (d.on 0 RST_CFG.RSTN_EN = true → low.resetAsked e 4) ∧
        (d.on 0 RST_CFG.RSTN_EN = false → e = low)) ∧
    (Ends (.rstnRelease t) s fun e => e = { d with sys := { d.sys with rstn := false } }) ∧
    (d.on 0 SYS_STAT.BOOTED = true → d.domOn .core = true → Ends (.runtimeWatchdogExpiry t) s fun e => d.resetAsked e 5) ∧
    (d.on 0 SYS_STAT.BOOTED = false ∨ d.domOn .core = false → Waits (.runtimeWatchdogExpiry t) t s) ∧
    (let w := Dev.arrive t p s.dev; w.reached p .rst 0 0x440 → w.passes .rst 0 0x440 v = true →
      (v.toNat % 65536 = 0x2B0F → Takes (.sysResetRequest t p v) s .rst 0 0x440 fun e =>
        w.resetAsked e (if p = .mgmt then 3 else 2)) ∧
      (v.toNat % 65536 ≠ 0x2B0F → Refuses (.sysResetRequest t p v) s w .rst 0 0x440 RC.BAD_KEY)) ∧
    (∀ t0, d.ope.quiesce = some t0 → (d.now < t0 + 2 * ticksPerMs → Waits (.quiesceTimeout t) t s) ∧
      (t0 + 2 * ticksPerMs ≤ d.now → Ends (.quiesceTimeout t) s fun e => e.castBegun .sys d.sys.cause ∧
        d.resetNoted e d.sys.cause (!d.quiesceLeft.isEmpty) ∧ (∀ q ∈ d.quiesceLeft, e.pairOn q = false))) ∧
    (d.ope.quiesce = none → Waits (.quiesceTimeout t) t s) ∧
    (railC r = false → Ends (.railInvalid t r) s fun e => e.sys.lheld = true ∧ e.on 0 LGL_STAT.READY = false ∧
      (∀ n off, n < 48 → e.word .str n off = d.word .str n off)) ∧
    (railC r = true → ∃ u, exec (.railInvalid t r) s = .next u ∧ u.pending = s.pending ∧ u.mem = { s.mem with sram := [] } ∧
      u.dev.sys.held = true ∧ u.dev.edram = [] ∧ (∀ q < 8, u.dev.pairOn q = false) ∧
      (railL r = true ∨ d.sys.lheld = true → u.dev.castBegun .por 1 ∧ u.dev.sys.lheld = true) ∧
      (railL r = false → d.sys.lheld = false → u.dev.sys.lheld = false ∧ (d.sys.held = false → u.dev.castBegun .cpor 9) ∧
        (d.sys.held = true → u.dev.sys.cls = d.sys.cls))) ∧
    (d.sys.held = true → d.sys.cls = .por ∨ d.sys.cls = .cpor → Ends (.powerOnResetRelease t .c) s fun e => e.sys.held = false ∧
      e.now = 0 ∧ e.castBegun d.sys.cls d.sys.cause) ∧
    (d.sys.held = false → Waits (.powerOnResetRelease t .c) t s) ∧
    (d.sys.lheld = true → Ends (.powerOnResetRelease t .l) s fun e => e.sys.lheld = false ∧
      (e.pll 2).state = (if d.on 0 CLK_STAT.REFOK then 1 else 4)) ∧
    (d.sys.lheld = false → Waits (.powerOnResetRelease t .l) t s) ∧
    (d.castGoes = false ∨ d.sys.step = 0 → Waits go t s) ∧
    (step 1 → ((d.pllLocked 0 && d.pllLocked 1) = false → Waits go t s) ∧
      ((d.pllLocked 0 && d.pllLocked 1) = true → Ends go s fun e => e.sys.step = 2 ∧
        e.rd 0 RST_CAUSE.CODE = d.sys.cause % 256 ∧ e.on 0 RST_CAUSE.MERGED = d.sys.merged ∧
        e.on 0 RST_CAUSE.QFORCED = d.sys.qforced ∧ d.pended e 0 Ev.RST.CAUSE_VALID ∧
        (d.sys.cls ≠ .por → d.sys.cls ≠ .cpor → e.rd 0 (RST_HIST.CODE 0) = d.rd 0 RST_CAUSE.CODE ∧
          ∀ k < 3, e.rd 0 (RST_HIST.CODE (k + 1)) = d.rd 0 (RST_HIST.CODE k)))) ∧
    (step 2 → (d.key.lc = 4 → Ends go s fun e => e.rd 0 SYS_STAT.STOP = 2 ∧ d.pended e 0 Ev.SYS.CASTON_STOP) ∧
      (d.key.lc = 0 → d.key.root = none → 3 ≤ fails → Ends go s fun e => e.rd 0 SYS_STAT.STOP = 1 ∧ e.key.root = none) ∧
      (d.key.lc = 0 → d.key.root = none → fails < 3 → Ends go s fun e => e.key.root = some (d.drawBytes 32).1 ∧ e.key.lc = 1 ∧
        e.sys.step = 3) ∧
      (d.key.lc ≠ 4 → d.key.lc ≠ 0 ∨ d.key.root ≠ none → Ends go s fun e => e.sys.step = 3 ∧
        e.on 0 KEY_LC.DBGEN = d.key.armed ∧ e.key.armed = false ∧ e.key.root = d.key.root ∧ e.key.lc = d.key.lc)) ∧
    (step 3 → Ends go s fun e => e = { d with sys := { d.sys with step := 4 } }) ∧
    (step 4 → ((d.pickBank 0).1 = none → Ends go s fun e => e.rd 0 SYS_STAT.STOP = 3 ∧ d.pended e 0 Ev.SYS.CASTON_STOP) ∧
      (∀ b, (d.pickBank 0).1 = some b → b < 2 ∧ d.imgOk b = true ∧ d.key.minSvn ≤ d.imgSvn b ∧ Ends go s fun e =>
        e.sys.step = 5 ∧ e.sys.loadAt = d.now ∧ e.rd 0 KEY_IMG.BOOTBANK = b ∧ e.rd 0 KEY_IMGVER.VER = d.imgNum b 4 4 ∧
        (d.bank b = 2 → e.trialsOf 0 = d.trialsOf 0 + 1))) ∧
    (step 5 → ((d.pickBank 1).1 = none → Ends go s fun e => e.rd 0 SYS_STAT.STOP = 4 ∧ e.on 0 SYS_STAT.BOOTED = true) ∧
      (∀ b, (d.pickBank 1).1 = some b → b < 4 ∧ d.imgOk b = true ∧ d.key.minSvn ≤ d.imgSvn b ∧ Ends go s fun e =>
        e.sys.step = 6 ∧ e.key.cfgRun = b ∧ e.on 0 SYS_STAT.BOOTED = true ∧ e.on 0 SYS_STAT.CONFIGURED = true)) ∧
    (d.castGoes = true → d.sys.step = 5 → d.on 0 SYS_STAT.BOOTED = false → d.sys.loadAt + 2000 * ticksPerMs ≤ d.now →
      Ends (.bootWatchdog t) s fun e => e.castBegun .sys 5) ∧
    (d.castGoes = false ∨ d.sys.step ≠ 5 ∨ d.on 0 SYS_STAT.BOOTED = true ∨ d.now < d.sys.loadAt + 2000 * ticksPerMs →
      Waits (.bootWatchdog t) t s) ∧
    (step 6 → let w := d.jnlScan bad; let n (k : Nat) : Nat := (w.ope.flight.filter fun o => opReplay o.kind = k).length;
      Ends go s fun e => e.sys.step = 7 ∧ e.sys.replayed = true ∧ e.sys.pairHold = 0 ∧ d.pended e 0 Ev.OPE.REPLAY_DONE ∧
        e.rd 0 OPE_REPLAY.COMPENSATED = n 2 % 1024 ∧
        e.rd 0 OPE_REPLAY.REPLAYED = (w.ope.flight.filter fun o => opReplay o.kind = 0 && o.payloadOk s.mem.sram).length % 1024 ∧
        e.rd 0 OPE_REPLAY.INTERRUPTED = ((w.ope.flight.filter fun o => opReplay o.kind = 0 && !o.payloadOk s.mem.sram).length
          + n 1) % 1024 ∧
        e.rd 0 JNL_CRCERR.COUNT = satU 16 ((d.ope.jnl.filter fun e => bad.contains e.1).length : Nat)) ∧
    (step 7 → Ends go s fun e => e.sys.step = 8 ∧ e.sys.wakeDone = false) ∧
    (step 8 → (d.sysBlock ≠ 0 → Waits go t s) ∧ (d.sysBlock = 0 → Ends go s fun e => e.sys.step = 0 ∧
      e.rd 0 SYS_STAT.READY = 1 ∧ d.pended e 0 Ev.SYS.READY)) ∧
    (let w := Dev.arrive t p s.dev; w.reached p .sys 0 0x50 → w.passes .sys 0 0x50 v = true →
      (v.getLsbD 0 = false ∨ w.ope.quiesce.isSome = true → Takes (.sysRelease t p v) s .sys 0 0x50 fun e => e = w) ∧
      (v.getLsbD 0 = true → w.ope.quiesce = none → w.sysBlock ≠ 0 → Refuses (.sysRelease t p v) s w .sys 0 0x50 0x81) ∧
      (v.getLsbD 0 = true → w.ope.quiesce = none → w.sysBlock = 0 → Takes (.sysRelease t p v) s .sys 0 0x50 fun e =>
        e.rd 0 SYS_STAT.RELEASED = 1 ∧ w.pended e 0 Ev.SYS.RELEASED))

/-- Power domains (R149, R178, R391, R393, R395 to R397, R399, R400): a match at the management port, a change at a safety
input, the PCI Express lanes and a Skein port wake the domains they name or map, each where it is enabled and the domain
it names is not ON, a Skein port with its event and its cause; a domain entry passes its abort points in order, stops at
one for a wake or a reset that is pending, with the lowered domains ON again, or times out; it ends with every domain in
its target. A wake ends with the raised domains ON and their targets set, PLL-F and PLL-T locked where they are needed,
and the retained banks that fail their check recorded and cleared; CORE from OFF goes through cast-on. The refresh of the
eDRAM changes nothing. A die shutdown stops every strand, drops the pairs, abandons the entry, and takes CORE and what is
below it OFF after 10 ms; the part starts again once it has stayed cool. -/
def Obligations.PowerEntryWakeAndShutdown : Prop :=
  ∀ (t addr : Nat) (fn : Option (Fin 32)) (k : Fin 12) (sensor : Fin 8) (pat : Bool) (sb eb : Nat) (s : State), let d := Dev.at t s.dev
    let ph := d.rd 0 PWR_ENTRY.PHASE; let ap := d.rd 0 PWR_ENTRY.LASTAP; let low := d.pwr.lower; let up := d.pwr.up
    let calm := d.die.shutAt = none; let st := d.domState (sknDom k); let mode := d.rd k SKN_CFG.WAKE
    let lows := ∀ x ∈ low, 2 ≤ x.1 ∧ x.1 < 18 ∧ 1 ≤ x.2 ∧ x.2 ≤ 2; let ups := ∀ i ∈ up, 2 ≤ i ∧ i < 18
    let named := d.on 0 AON_WAKEEN.SAFE = true ∧ (match fn with
      | some n => d.bit 0 AON_SAFEWAKE.FN n = true
      | none => d.on 0 AON_WAKEEN.SAFRST = true) ∧ d.srcLow 3 [2] = true
    let detected := calm ∧ d.on 0 AON_WAKEEN.SKN = true ∧ (st = 1 ∨ st = 2) ∧ (mode = 1 ∨ (mode = 2 ∧ pat = true))
    let matched := d.on 0 HIF_MGMT.WAKE_EN = true ∧ d.domOn .core = false ∧ addr = d.rd 0 HIF_MGMT.ADDR
    let pcie := d.on 0 AON_WAKEEN.PCIE = true ∧ d.domOn .hif = false
    let locked := (d.pllLocked 0 && d.pllLocked 1) = true; let coreOff := up.contains 4 = true ∧ d.domState .core = 2
    let sram := if up.contains 4 && d.domState .core = 1 then sb % 2 ^ 24 else 0
    let edram := if up.contains 16 && d.domState .frc = 1 then eb % 2 ^ 16 else 0
    let aborted (e : Dev) (n : Nat) : Prop := e.rd 0 AON_WAKEABORT.AP = n ∧ e.rd 0 AON_WAKEABORT.SRC = d.pwr.pend % 32 ∧
      e.rd 0 AON_WAKEABORT.COUNT = (d.rd 0 AON_WAKEABORT.COUNT + 1) % 65536 ∧ e.rd 0 PWR_ENTRY.RESULT = 2 ∧ e.pwr.lower = [] ∧
      d.pended e 0 Ev.AON.WAKE_ABORT ∧ (∀ x ∈ low, x.1 < 18 → d.domState (domAt x.1) = 3 → e.domOn (domAt x.1) = true)
    let keeps (c : Instr) (P : State → Prop) : Prop :=
      ∃ u, exec c s = .next u ∧ u.pending = s.pending ∧ u.mem.mram = s.mem.mram ∧ P u;
    (matched → Ends (.mgmtWakeMatch t addr) s fun e => d.woke e 1 0 [17]) ∧ (¬matched → Waits (.mgmtWakeMatch t addr) t s) ∧
    (named → Ends (.safePinWake t fn) s fun e => d.woke e 3 0 [2]) ∧ (¬named → Waits (.safePinWake t fn) t s) ∧
    (pcie → Ends (.pcieWake t) s fun e => d.woke e 4 0 [17]) ∧ (¬pcie → Waits (.pcieWake t) t s) ∧
    (detected → Ends (.sknWakeDetect t k pat) s fun e => d.pended e k Ev.SKN.WAKE ∧ e.rd k SKN_WAKE.CAUSE = mode ∧
      ((d.wr k SKN_WAKE.CAUSE mode).raise k Ev.SKN.WAKE).woke e 0 (2 ^ k.val) [(sknDom k).ix]) ∧
    (¬detected → Waits (.sknWakeDetect t k pat) t s) ∧
    (ph ≠ 1 ∨ ¬calm → Waits (.pwrEntryAdvance t) t s) ∧
    (ph = 1 → calm → lows →
      (d.pwrPending = true → d.pwr.pendAt ≤ d.pwr.apAt → Ends (.pwrEntryAdvance t) s fun e => aborted e ap) ∧
      (ap < 5 → d.pwrPending = false → d.stepDone ap = true → Ends (.pwrEntryAdvance t) s fun e =>
        e.rd 0 PWR_ENTRY.LASTAP = ap + 1 ∧ e.rd 0 PWR_ENTRY.PHASE = 1 ∧ e.pwr = { d.pwr with apAt := d.now } ∧
        (ap = 0 → ∀ x ∈ low, e.domOn (domAt x.1) = false)) ∧
      (ap < 5 → d.pwrPending = true → d.pwr.apAt < d.pwr.pendAt → d.stepDone ap = true →
        Ends (.pwrEntryAdvance t) s fun e => aborted e (ap + 1)) ∧
      (ap < 5 → d.pwrPending = true → d.pwr.apAt < d.pwr.pendAt → d.stepDone ap = false → Waits (.pwrEntryAdvance t) t s) ∧
      (ap < 5 → d.pwrPending = false → d.stepDone ap = false → Waits (.pwrEntryAdvance t) t s) ∧
      (ap = 5 → d.pwrPending = false → (low.map (·.1)).Nodup → keeps (.pwrEntryAdvance t) fun u =>
        u.dev.rd 0 PWR_ENTRY.RESULT = 1 ∧ u.dev.pwr.endAt = some d.now ∧ u.dev.pwr.lower = [] ∧
        d.pended u.dev 0 Ev.PWR.ENTRY_DONE ∧ (∀ x ∈ low, u.dev.domState (domAt x.1) = x.2) ∧
        u.mem.sram = (if d.domState .core ≠ 2 ∧ u.dev.domState .core = 2 then [] else s.mem.sram))) ∧
    (let late := ph = 1 ∧ ap = 0 ∧ d.pwr.startAt + d.rd 0 PWR_CFG.QTMO_MS * ticksPerMs ≤ d.now;
      (late → Ends (.pwrQtmo t) s fun e => e.rd 0 PWR_ENTRY.RESULT = 3 ∧ e.pwr.lower = [] ∧ d.pended e 0 Ev.PWR.QTMO) ∧
      (¬late → Waits (.pwrQtmo t) t s)) ∧
    (ph ≠ 2 ∨ ¬calm ∨ (up.any (4 ≤ ·) = true ∧ ¬locked) → Waits (.domainWake t sb eb) t s) ∧
    (ph = 2 → calm → ups → locked →
      (coreOff → keeps (.domainWake t sb eb) fun u => u.mem.sram = [] ∧ u.dev.sys.step = 1 ∧ u.dev.sys.cls = .wake ∧
        u.dev.sys.cause = 7 ∧ u.dev.sys.wakeDone = true ∧ (∀ i ∈ up, u.dev.domOn (domAt i) = true ∧ u.dev.pwrTarget i = 0)) ∧
      (¬coreOff → 16 ≤ sram → keeps (.domainWake t sb eb) fun u => u.mem.sram = [] ∧ u.dev.castBegun .retfail 8 ∧
        u.dev.rd 0 AON_RETFAIL_SRAM.BANKS = Nat.lor (d.rd 0 AON_RETFAIL_SRAM.BANKS) sram) ∧
      (¬coreOff → sram < 16 → d.sys.pend = none → keeps (.domainWake t sb eb) fun u =>
        (∀ i ∈ up, u.dev.domOn (domAt i) = true ∧ u.dev.pwrTarget i = 0) ∧ u.dev.rd 0 PWR_ENTRY.PHASE = 0 ∧ u.dev.pwr.up = [] ∧
        d.pended u.dev 0 Ev.PWR.WAKE_DONE ∧
        (edram ≠ 0 → u.dev.rd 0 AON_RETFAIL_EDRAM.BANKS = Nat.lor (d.rd 0 AON_RETFAIL_EDRAM.BANKS) edram) ∧
        (∀ a, u.sramByte a = if a / 2 ^ 20 < 4 ∧ sram.testBit (a / 2 ^ 20) = true then 0#8 else s.sramByte a))) ∧
    Waits (.edramRefresh t) t s ∧
    (calm → Ends (.dieShutdownTrip t sensor) s fun e => e.die = { d.die with shutAt := some d.now, sensor := sensor, coolAt := none } ∧
      (∀ n < 48, (e.strand n).stopped = true) ∧ (∀ q < 8, d.pairOn q = true → (e.safPair q).tripAt.isSome = true) ∧
      (ph ≠ 0 → e.rd 0 PWR_ENTRY.RESULT = 4 ∧ e.rd 0 PWR_ENTRY.PHASE = 0 ∧ e.pwr.up = [] ∧ e.pwr.lower = [])) ∧
    (¬calm → Ends (.dieShutdownTrip t sensor) s fun e => e = { d with die := { d.die with coolAt := none } }) ∧
    (∀ t0, d.die.shutAt = some t0 → d.die.off = false → t0 + 10 * ticksPerMs ≤ d.now → keeps (.dieShutdownDomainsOff t) fun u =>
      u.dev.die = { d.die with off := true } ∧ u.mem.sram = [] ∧ u.dev.edram = [] ∧ (u.dev.pll 0).state = 0 ∧
      (u.dev.pll 1).state = 0 ∧ (∀ x, 4 ≤ x.ix → u.dev.domState x = 2)) ∧
    (calm ∨ d.die.off = true ∨ (∃ t0, d.die.shutAt = some t0 ∧ d.now < t0 + 10 * ticksPerMs) →
      Waits (.dieShutdownDomainsOff t) t s) ∧
    (∀ c, d.die.coolAt = some c → d.die.off = true → c + d.rd 0 DTM_SD.REL_S * ticksPerS ≤ d.now →
      keeps (.thermalRestart t) fun u => u.dev.castBegun .thermal 6 ∧ u.dev.sys.sensor = d.die.sensor ∧ u.dev.die = {} ∧
        u.mem.sram = []) ∧
    (d.die.coolAt = none ∨ d.die.off = false ∨ (∃ c, d.die.coolAt = some c ∧ d.now < c + d.rd 0 DTM_SD.REL_S * ticksPerS) →
      Waits (.thermalRestart t) t s)

/-- Clocks (R378 to R387): the loss of the reference, or of PLL-F or PLL-T, is counted, timed and stops the outputs, and
ends every session that is starting with cause DEVICE; PLL-M concerns metrology alone. A search finds a band or fails, up
to three times again; a lock ends it. A clock output is driven low without its source and runs again 100 µs after. -/
def Obligations.ClocksAndPlls : Prop :=
  ∀ (t band : Nat) (k : PllId) (n : Fin 8) (s : State), let d := Dev.at t s.dev; let i := pllIx k
    let begun (e : Dev) (i : Nat) : Prop := (e.pll i).state = (if d.on 0 CLK_STAT.REFOK then 1 else 4) ∧ (e.pll i).fails = 0
    let lost (e : Dev) : Prop := e.rd 0 CLK_LOSSCNT.COUNT = (d.rd 0 CLK_LOSSCNT.COUNT + 1) % 2 ^ 32 ∧
      e.rd64 0 CLK_LOSSTIME_LO.TICKS CLK_LOSSTIME_HI.TICKS = d.now % 2 ^ 64 ∧ e.clk.lossAt = some (d.clk.lossAt.getD d.now) ∧
      e.on 0 CLK_STAT.FB = true ∧
      (∀ n < 8, e.ckoSource n = false → e.rd 0 (CLK_CKO.FMT n) ≠ 0 → e.bit 0 CLK_CKOSTAT.GATED n = true ∧
        e.bit 0 CLK_CKOSTAT.RUN n = false)
    let stops (e : Dev) (c : Nat) : Prop := e.rd 0 CLK_LASTLOSS.CAUSE = c ∧ d.pended e 0 Ev.CLK.CLK_STOP ∧
      (∀ p < 32, 5 ≤ e.ptState p → e.ptState p ≤ 7 → (e.point p).lossAt.isSome = true ∧ (e.point p).reverse = false) ∧
      (∀ m < 64, d.sesState m = 3 → e.rd 0 (SES_STAT.CAUSE m) = 8 ∧ (e.sesState m = 5 ∨ e.sesState m = 6));
    (d.on 0 CLK_STAT.REFOK = false → Waits (.refclkLost t) t s) ∧
    (d.on 0 CLK_STAT.REFOK = true → Ends (.refclkLost t) s fun e => e.rd 0 CLK_STAT.REFOK = 0 ∧ lost e ∧
      d.pended e 0 Ev.CLK.REF_LOST ∧ e.rd 0 MTR_STAT.CLKOK = 0 ∧
      (∀ j < 3, (e.pll j).state = (if (d.pll j).state = 5 then 5 else 4)) ∧
      ((d.pllLocked 0 || d.pllLocked 1) = true → stops e 1) ∧
      ((d.pllLocked 0 || d.pllLocked 1) = false → e.ses = d.ses)) ∧
    (d.on 0 CLK_STAT.REFOK = true → Waits (.refclkValid t) t s) ∧
    (d.on 0 CLK_STAT.REFOK = false → Ends (.refclkValid t) s fun e => e.rd 0 CLK_STAT.REFOK = 1 ∧ d.pended e 0 Ev.CLK.REF_OK ∧
      e.clk.refAt = d.now ∧ (∀ j < 3, (e.pll j).state = 1 ∧ (e.pll j).fails = 0)) ∧
    ((d.pll i).state ≠ 1 → Waits (.bandSearchComplete t k band) t s) ∧
    ((d.pll i).state = 1 → Ends (.bandSearchComplete t k band) s fun e => (∀ j, j ≠ i → e.pll j = d.pll j) ∧
      (band < 64 → (e.pll i).state = 2 ∧ (e.pll i).band = band) ∧
      (64 ≤ band → (e.pll i).fails = (d.pll i).fails + 1 ∧ (e.pll i).state = (if 3 ≤ (d.pll i).fails then 5 else 1) ∧
        (i < 2 → d.pended e 0 Ev.CLK.BAND_FAIL))) ∧
    ((d.pll i).state ≠ 2 → Waits (.pllLock t k) t s) ∧
    ((d.pll i).state = 2 → Ends (.pllLock t k) s fun e => (e.pll i).state = 3 ∧ (e.pll i).lockAt = d.now ∧
      (∀ j, j ≠ i → e.pll j = d.pll j) ∧ d.pended e 0 (lockEv i) ∧ e.on 0 CLK_STAT.FB = !(e.pllLocked 0 && e.pllLocked 1) ∧
      (i = 2 → e.rd 0 MTR_STAT.CLKOK = 1) ∧
      (∀ t0, i < 2 → d.clk.lossAt = some t0 → (e.pllLocked 0 && e.pllLocked 1) = true → e.clk.lossAt = none ∧
        e.rd 0 CLK_LASTLOSS.MS = min (d.msSince t0) 65535)) ∧
    (d.pllLocked i = false → Waits (.pllUnlock t k) t s) ∧
    (d.pllLocked i = true → Ends (.pllUnlock t k) s fun e => begun e i ∧ d.pended e 0 (unlockEv i) ∧
      (i = 2 → e.rd 0 MTR_STAT.CLKOK = 0 ∧ e.ses = d.ses ∧ e.clk.lossAt = d.clk.lossAt) ∧ (i < 2 → lost e ∧ stops e (i + 2))) ∧
    (let due := d.bit 0 CLK_CKOSTAT.GATED n = true ∧ d.ckoSource n = true ∧ d.ckoLockAt n + 100 * ticksPerUs ≤ d.now;
      (due → Ends (.clockOutputRestart t n) s fun e => e.bit 0 CLK_CKOSTAT.GATED n = false ∧ e.bit 0 CLK_CKOSTAT.RUN n = true ∧
        SameRegs (fun a => a = pageIx .clk 0 * 4096 + 0x448) d e ∧ RegsOnly d e) ∧ (¬due → Waits (.clockOutputRestart t n) t s))

/-! ### Ply -/

/-- Links, frames and what they carry (R330 to R332, R347, R348, R371, R372, R20): an intact frame counts once, in a Ply loss
only HELLO; without the pair only HELLO and HEARTBEAT act; a bad CRC only counts. HELLO forms or ends the pair, TIME
aligns it, markers, seconds' powers and triggers go to the island, the cross-check and the recorder. Frames of an
interval leave when due; a link's lock and the loss of Ply are taken as they come; the second's feed, after the row
boundary of its instant (R26), shows the time, and rings the RTC alarm, which wakes what is mapped (R397). -/
def Obligations.PlyLinksFramesAndMetering : Prop :=
  ∀ (t : Nat) (link : Fin 2) (ok start : Bool) (seq a b c x y z : Nat) (ps : List Int) (f : PlyFrame) (mp : Fin 36)
      (slot : Fin 384) (o : Op) (s : State), let d := Dev.at t s.dev; let type := plyType f; let mode := d.rd 0 PLY_CFG.MODE
    let seen : Dev := { d with ply := { d.ply with rxAt := some d.now } }
    let acts (k : Nat) : Prop := d.opAt slot = some o ∧ o.kind = k ∧ o.phase = .issued
    let due (last : Option Nat) (ticks : Nat) : Prop := ∀ t0, last = some t0 → t0 + ticks ≤ d.now
    let ready := d.plyUp = true ∧ d.domOn .ply = true;
    (d.plyUp = false → (∀ i, plyRx t link seq f i → Waits i t s) ∧ Waits (.plyFrameRx t link ok seq f) t s) ∧
    (d.plyUp = true → ok = false → Ends (.plyFrameRx t link ok seq f) s fun e => e = d.inc link PLY_CRCERR.COUNT) ∧
    (d.plyUp = true → type ≠ 2 → (d.ply.lost = true ∧ type ≠ 1) ∨ plyNewer (d.ply.last.get (fun _ => 0) type) seq = false →
      ∀ i, plyRx t link seq f i → Ends i s fun e => e = seen) ∧
    (d.plyFresh type seq → 3 ≤ type → d.on 0 PLY_STAT.PAIRED = false → ∀ i, plyRx t link seq f i →
      Ends i s fun e => e = d.plyGot type seq) ∧
    (∀ i, plyRx t link seq f i → exec i s = exec (.plyFrameRx t link true seq f) s) ∧
    (∀ k g, exec (.sknfwdRx t link seq k g) s = exec (.plyFrameRx t link true seq (.sknfwd k.val g)) s) ∧
    (d.plyUp = true → plyNewer (d.ply.last.get (fun _ => 0) 1) seq = true →
      let own := a = d.rd 0 PLY_PAIRID.ID ∧ x = mode ∧ z = d.rd 0 PLY_CFG.PREF ∧ y + d.rd 0 PLY_CFG.ROLE = 1;
      Ends (.helloRx t link seq a b x y z c) s fun e => e.ply.lost = false ∧ e.ply.signAt = d.now ∧
        (own → e.rd 0 PLY_STAT.PAIRED = 1 ∧ e.rd 0 PLY_PARTNER.SERIAL = b % 2 ^ 32 ∧ e.ply.pcrc = c ∧
          (d.on 0 PLY_STAT.PAIRED = false → d.pended e 0 Ev.PLY.PAIRED ∧
            (mode = 2 → d.plySt = 5 → d.ply.pstate ≠ 0 → d.ply.pstate ≠ 4 → d.ply.pstate ≠ 6 → d.plyPref = true → e.plySt = 4) ∧
            (mode = 2 → d.plySt = 5 → d.plyPref = false → e.plySt = 5))) ∧
        (¬own → e.rd 0 PLY_STAT.PAIRED = 0 ∧ e.rd 0 PLY_STAT.ALIGNED = 0 ∧ e.rd 0 PLY_STAT.MIRROR_OK = 0 ∧
          d.pended e 0 Ev.PLY.PAIR_MISMATCH)) ∧
    (d.plyHears 3 seq → let off := rdiv (((b : Int) - a) - ((d.now : Int) - c)) 2; let shift : Nat := ((d.now : Int) + off).toNat;
      (a = 0 → Ends (.timeRx t link seq c a b x y) s fun e => e.ply.tSent = c ∧ e.ply.tGot = d.now ∧ e.regs = d.regs ∧ e.now = d.now) ∧
      (a ≠ 0 → d.plyMaster = true ∨ d.ply.stepped = true → Ends (.timeRx t link seq c a b x y) s fun e => e.now = d.now ∧
        e.on 0 PLY_STAT.ALIGNED = decide (off.natAbs ≤ 25)) ∧
      (a ≠ 0 → d.plyMaster = false → d.ply.stepped = false → Ends (.timeRx t link seq c a b x y) s fun e => e.now = shift ∧
        e.ply.stepped = true ∧ e.on 0 PLY_STAT.ALIGNED = true ∧ (d.alc.started = true → e.alc.rowAt = y))) ∧
    (d.plyHears 0x30 seq → Ends (.markRx t link seq start a b c) s fun e => e.sent = .marker start a b c :: d.sent ∧ e.regs = d.regs) ∧
    (d.plyHears 0x31 seq → mode = 2 → Ends (.mtrsecRx t link seq ps) s fun e => ∀ mp < 36,
      let used := d.mpUsed mp = true ∧ d.par MP.HOME mp = 0; let i := d.mtrP mp; let j := ps.getD mp 0
      let wide := d.rd 0 PLY_GUARD.XCHK_PM * max (max i.natAbs j.natAbs) 1000 < (i - j).natAbs * 1000
      let n (q : Ply → AMap Nat) (e : Dev) := (q e.ply).get (fun _ => 0) mp;
      (used → wide → n Ply.bad e = n Ply.bad d + 1 ∧ n Ply.good e = 0 ∧ e.xchkBit mp = d.xchkBit mp) ∧
      (used → ¬wide → n Ply.bad e = 0 ∧ n Ply.good e = n Ply.good d + 1 ∧
        e.xchkBit mp = (d.xchkBit mp && decide (n Ply.good d < 59))) ∧
      (¬used → n Ply.bad e = n Ply.bad d ∧ n Ply.good e = n Ply.good d ∧ e.xchkBit mp = d.xchkBit mp)) ∧
    (d.plyHears 0x40 seq → d.domOn .frc = true →
      (Ends (.trigRx t link seq 0 x y z) s fun e => e = (d.plyGot 0x40 seq).frcArm z) ∧
      (Ends (.trigRx t link seq 1 x y z) s fun e => e = (d.plyGot 0x40 seq).frcDisarm) ∧
      (d.bit 0 FRC_CFG.SRCEN 3 = true → Ends (.trigRx t link seq 2 x y z) s fun e => e = (d.plyGot 0x40 seq).frcTrigger 4 y) ∧
      (d.bit 0 FRC_CFG.SRCEN 3 = false → Ends (.trigRx t link seq 2 x y z) s fun e => e = d.plyGot 0x40 seq)) ∧
    (let wide := 60 ≤ d.ply.bad.get (fun _ => 0) mp.val ∧ d.xchkBit mp = false;
      (wide → Ends (.xchkDiff t mp) s fun e => e.xchkBit mp = true ∧ d.pended e 0 Ev.PLY.XCHK_DIFF) ∧ (¬wide → Waits (.xchkDiff t mp) t s)) ∧
    (mode ≠ 0 → d.domOn .ply = true →
      (Ends (.blockLockGained t link) s fun e => e.rd link PLY_LINK.BLOCKLOCK = 1 ∧
        e.ply.lockAt.get (fun _ => none) link.val = some d.now ∧ e.ply.hb.get (fun _ => false) link.val = false) ∧
      (Ends (.blockLockLost t link) s fun e => e.rd link PLY_LINK.BLOCKLOCK = 0 ∧
        e.ply.lockAt.get (fun _ => none) link.val = none ∧ e.ply.hb.get (fun _ => false) link.val = false)) ∧
    (mode = 0 ∨ d.domOn .ply = false → Waits (.blockLockGained t link) t s ∧ Waits (.blockLockLost t link) t s) ∧
    (let own := PlyFrame.heartbeat d.plySt (d.rd 0 ALC_ROWCNT.ROWS) d.ply.chkOwn;
      (ready → due d.ply.hbTx (100 * ticksPerUs) → Ends (.heartbeatSend t) s fun e => d.plySent e own ∧ e.ply.hbTx = some d.now)) ∧
    (let own := PlyFrame.hello (d.rd 0 PLY_PAIRID.ID) (d.rd64 0 KEY_SERIAL_LO.SN KEY_SERIAL_HI.SN) mode (d.rd 0 PLY_CFG.ROLE)
        (d.rd 0 PLY_CFG.PREF) d.plyCfgCrc
      let every := if d.on 0 PLY_STAT.PAIRED then ticksPerS else 10 * ticksPerMs;
      (ready → due d.ply.helloTx every → Ends (.helloSend t) s fun e => d.plySent e own ∧ e.ply.helloTx = some d.now)) ∧
    (let own := PlyFrame.time d.now d.ply.tSent d.ply.tGot (d.rd 0 ALC_ROWCNT.ROWS) d.alc.rowAt;
      (ready → d.on 0 PLY_STAT.PAIRED = true → due d.ply.timeTx ticksPerMs → Ends (.timeSend t) s fun e => d.plySent e own ∧
        e.ply.timeTx = some d.now) ∧
      (d.on 0 PLY_STAT.PAIRED = false → Waits (.timeSend t) t s)) ∧
    (d.plyUp = false → Waits (.heartbeatSend t) t s ∧ Waits (.helloSend t) t s ∧ Waits (.timeSend t) t s) ∧
    (let far := d.par MP.HOME (o.arg 10 1) = 1 ∧ mode = 2
      let mark (go : Bool) (e : Dev) : Prop := e.opEnds slot 0 ∧
        (¬far → e.sent = .marker go (o.arg 8 1) (o.arg 9 1) (o.arg 10 1) :: d.sent) ∧
        (far → d.plyPaired = true → d.domOn .ply = true →
          e.sent = .ply (d.ply.txSeq.get (fun _ => 0) 0x30) (.mark go (o.arg 8 1) (o.arg 9 1) (o.arg 10 1)) :: d.sent) ∧
        (far → d.plyPaired = false → e.sent = d.sent);
      (acts OK.MARK_START → Ends (.markStart t slot) s (mark true)) ∧ (acts OK.MARK_END → Ends (.markEnd t slot) s (mark false)) ∧
      (d.opAt slot = none → Waits (.markStart t slot) t s ∧ Waits (.markEnd t slot) t s)) ∧
    (d.plyUp = false ∨ d.ply.lost = true ∨ d.plySilentFor = false → Waits (.plyLoss t) t s) ∧
    (d.plyUp = true → d.ply.lost = false → d.plySilentFor = true → Ends (.plyLoss t) s fun e => e.ply.lost = true ∧
      e.rd 0 PLY_STAT.PAIRED = 0 ∧ e.rd 0 PLY_STAT.ALIGNED = 0 ∧ e.rd 0 PLY_STAT.MIRROR_OK = 0 ∧ d.pended e 0 Ev.PLY.PLY_LOST ∧
      (mode = 1 → e.plySt = 3 ∧ (d.plySt ≠ 3 → e.ply.joint = false ∧ d.pended e 0 Ev.PLY.SPLIT)) ∧
      (mode = 2 → d.plySt = 5 → d.on 0 PLY_STAT.SELFCHK_FAIL = false → d.ringSeen = false → d.domOn .ply = true → d.tookOver e 1) ∧
      (mode = 2 → d.plySt ≠ 5 ∨ d.on 0 PLY_STAT.SELFCHK_FAIL = true ∨ d.ringSeen = true → e.plySt = d.plySt)) ∧
    (d.lglUp = false → Waits (.lToCSecondFeed t) t s) ∧
    (d.lglUp = true → Ends (.lToCSecondFeed t) s fun e => let w := d.rowCatch; let r := w.lgl.rtc; let sec := r.sec % 2 ^ 32
      let rings := w.on 0 RTC_ALMCTL.EN = true ∧ w.rd 0 RTC_ALARM.SEC ≤ sec;
      e.rd 0 RTC_SEC.SEC = sec ∧ e.on 0 RTC_STAT.VALID = r.valid ∧ e.rd 0 RTC_HWM.SEC = w.lgl.tot.h / 2 ^ 32 % 2 ^ 32 ∧
      (rings → e.rd 0 RTC_ALMCTL.EN = 0 ∧ w.pended e 0 Ev.RTC.ALARM ∧ (w.on 0 AON_WAKEEN.RTC = true → w.srcLow 2 [] = true →
        w.die.shutAt = none → e.bit 0 AON_WAKECAUSE.SRC 2 = true ∧ w.pended e 0 Ev.AON.WAKE)) ∧
      (¬rings → e.on 0 RTC_ALMCTL.EN = w.on 0 RTC_ALMCTL.EN) ∧
      (w.rd 0 PLY_CFG.MODE = 2 → w.on 0 PLY_STAT.PAIRED = true → w.plyUp = true → w.domOn .ply = true →
        ∃ k, .ply k (.mtrsec ((List.range 36).map w.mtrP)) ∈ e.sent))

/-- The pair at work (R333 to R346): PLY-A computes the pair's row on the SNAP of PLY-B or, when that is 200 µs late, on the
last one; PLY-B takes the ALLOC and compares it with its own; the pair splits on a loss or after 8 late rows. A standby
takes what is mirrored, compares each PUBLISH, forwards ring frames, runs self-checks, goes solo after 2 s of silence,
takes over and returns; a non-preferred active unit that sees another unit's ring frame stands down. -/
def Obligations.PlyPairControl : Prop :=
  ∀ (t : Nat) (link : Fin 2) (seq row cause tb : Nat) (x : AlcSnap) (res : AlcRes) (rejoin : Option Nat) (k : Fin 12)
      (g bytes : List Byte) (words : List (Nat × Word)) (sets : List Int) (asg coils saf : List Nat) (own pass : Bool)
      (p : Port) (v : Word) (s : State), let d := Dev.at t s.dev; let mode := d.rd 0 PLY_CFG.MODE; let rows := d.rd 0 ALC_ROWCNT.ROWS
    let stby := mode = 2 ∧ d.plySt = 5; let run := d.rd 0 PLY_MISROWS.RUN; let only (type : Nat) (e : Dev) : Prop := e = d.plyGot type seq
    let sentAlloc (e : Dev) : Prop := ∃ q, e.sent.head? = some (.ply q (.alloc (rows + 1) (e.alc.next.getD {}) d.ply.rejoin));
    (d.plyHears 0x10 seq → (mode ≠ 1 → Ends (.snapRx t link seq row x) s (only 0x10)) ∧
      (mode = 1 → d.domOn .ply = true → Ends (.snapRx t link seq row x) s fun e => e.ply.snapIn = some (row, x) ∧
        (d.ply.waiting = true → row = rows → e.ply.waiting = false ∧ e.ply.lateN = 0 ∧ sentAlloc e) ∧
        (d.ply.waiting = false ∨ row ≠ rows → e.ply.waiting = d.ply.waiting ∧ e.sent = d.sent ∧ e.alc = d.alc))) ∧
    (let late := d.plyUp = true ∧ d.ply.waiting = true ∧ d.alc.rowAt + 200 * ticksPerUs ≤ d.now;
      (late → d.domOn .ply = true → Ends (.snapLate t) s fun e => e.ply.lateN = d.ply.lateN + 1 ∧ e.ply.waiting = false ∧ sentAlloc e ∧
        d.pended e 0 Ev.PLY.SNAP_LATE) ∧ (¬late → Waits (.snapLate t) t s)) ∧
    (d.plyHears 0x11 seq → (mode ≠ 1 ∨ d.plyA = true → Ends (.allocRx t link seq row res rejoin) s (only 0x11)) ∧
      (mode = 1 → d.plyA = false → Ends (.allocRx t link seq row res rejoin) s fun e => e.ply.allocIn = some (row, res) ∧
        e.ply.rejoin = (if d.ply.joint then none else rejoin) ∧
        (∀ a, d.ply.snapIn = some (d.alc.snap.row, a) → d.ply.joint = true → d.alc.snap.row + 1 = row →
          (allocate a.site (joinPts a d.alc.snap) ≠ res → d.pended e 0 Ev.PLY.SHADOW_MISMATCH ∧
            e.rd 0 PLY_SHADOWERR.COUNT = (d.rd 0 PLY_SHADOWERR.COUNT + 1) % 2 ^ 32) ∧
          (allocate a.site (joinPts a d.alc.snap) = res → e.regs = d.regs)))) ∧
    (let parts := d.plyUp = true ∧ (d.ply.lost = true ∨ 8 ≤ d.ply.lateN) ∧ mode = 1 ∧ d.plySt ≠ 3;
      (parts → Ends (.split t) s fun e => e.plySt = 3 ∧ e.ply.joint = false ∧ e.ply.rejoin = none ∧ d.pended e 0 Ev.PLY.SPLIT) ∧
      (¬parts → Waits (.split t) t s)) ∧
    (d.plyHears 0x20 seq → (¬stby → ∀ m, Ends (.mirrorRx t link seq m) s (only 0x20)) ∧
      (stby → (Ends (.mirrorRx t link seq (.safety words)) s fun e => e.ply.mirSaf = words ∧ e.regs = d.regs ∧
          (e.ply.safBad = 0 ∨ e.ply.safBad = d.ply.safBad + 1)) ∧
        (∀ b n, pageOf row = some (b, n) → plyOwn b = false → hasStaged b n = true →
          Ends (.mirrorRx t link seq (.commit row words)) s fun e =>
            e.on 0 PLY_STAT.MIRROR_OK = (d.on 0 PLY_STAT.MIRROR_OK && decide (e.rd n (STAGE_STAT.STATE b) ≠ 3))) ∧
        (Ends (.mirrorRx t link seq (.load [])) s fun e => e.rd 0 PLY_STAT.MIRROR_OK = 1 ∧ e.ply.mirRow = none ∧ e.ope.used = 0 ∧
          e.rd 0 JNL_TAIL.IDX = d.rd 0 JNL_HEAD.IDX ∧ ∀ i, 64 ≤ i → e.jrec i = none) ∧
        (∀ m < 64, ∀ w, Ends (.mirrorRx t link seq (.row row [(fieldAddr 0 (SES_STAT.STATE m), w)] [] [] [] x res [bytes])) s
          fun e => e.atAddr (fieldAddr 0 (SES_STAT.STATE m)) = w ∧ e.jrec (d.rd 0 JNL_HEAD.IDX) = some (recOfBytes bytes) ∧
            e.rd 0 JNL_HEAD.IDX = ringNext (d.rd 0 JNL_HEAD.IDX) % 2 ^ 16 ∧ ∃ r, e.ply.mirRow = some (row, x, r)))) ∧
    (d.plyHears 0x21 seq → (¬stby → Ends (.publishRx t link seq row sets asg coils saf) s (only 0x21)) ∧
      (stby → let bad := d.publishDiffers row sets asg coils; Ends (.publishRx t link seq row sets asg coils saf) s fun e =>
        e.ply.prow = row ∧
        (d.plyElig = true → bad = true → e.rd 0 PLY_MISROWS.TOTAL = (d.rd 0 PLY_MISROWS.TOTAL + 1) % 2 ^ 16 ∧
          e.rd 0 PLY_MISROWS.RUN = min (run + 1) 255) ∧
        (d.plyElig = false ∨ bad = false → e.rd 0 PLY_MISROWS.RUN = 0 ∧ e.rd 0 PLY_MISROWS.TOTAL = d.rd 0 PLY_MISROWS.TOTAL))) ∧
    (d.plyHears 0x22 seq → let off := if leAt g 0 1 = 1 then 12 else 24; let corr := leAt g 0 1 = 1 ∨ leAt g 0 1 = 5;
      (¬(stby ∧ d.rd k SKN_CFG.TOPO = 2) → Ends (.sknfwdRx t link seq k g) s (only 0x22)) ∧
      (stby → d.rd k SKN_CFG.TOPO = 2 → Ends (.sknfwdRx t link seq k g) s fun e => e.regs = d.regs ∧
        ∃ f, e.sent = sentWith (.skein k d.now f) d.sent ∧ (¬corr → f = g) ∧
          (corr → off + 8 ≤ g.length → crcOk f = true ∧ f.length = g.length ∧
            ∃ r ≤ 64 * ticksPerUs, leAt f off 4 = (leAt g off 4 + r) % 2 ^ 32))) ∧
    (d.plyHears 0x23 seq →
      (d.plyActive = true → d.ply.chkAt = none → Ends (.checkRx t link seq none) s fun e => e.ply.chkAt = some d.now ∧
        e.ply.chkOwn = none ∧ e.ply.chkPeer = none) ∧
      (d.plyActive = false ∨ d.ply.chkAt.isSome = true → Ends (.checkRx t link seq none) s (only 0x23)) ∧
      (d.ply.chkAt = none ∨ d.ply.chkOwn = none → Ends (.checkRx t link seq (some pass)) s fun e => e.ply.chkPeer = some pass ∧
        e.regs = d.regs ∧ e.sent = d.sent) ∧
      (d.ply.chkAt.isSome = true → d.ply.chkOwn = some own → d.chkMutual = true →
        Ends (.checkRx t link seq (some pass)) s fun e => d.chkSettled e own (some pass))) ∧
    (let idle := d.plyUp = true ∧ stby ∧ d.on 0 PLY_STAT.PAIRED = true ∧ d.ply.chkAt = none;
      (idle → 3 ≤ run → d.domOn .ply = true → Ends (.selfCheckStart t) s fun e => e.ply.chkAt = some d.now ∧ e.ply.chkOwn = none ∧
        e.ply.chkPeer = none ∧ ∃ q, .ply q (.check none) ∈ e.sent) ∧
      (idle → run < 3 → d.plyPref = true → d.on 0 PLY_STAT.MIRROR_OK = true → d.ply.passed = false →
        Ends (.selfCheckStart t) s fun e => e.ply.chkAt = some d.now) ∧
      (¬idle ∨ (run < 3 ∧ (d.plyPref = false ∨ d.on 0 PLY_STAT.MIRROR_OK = false ∨ d.ply.passed = true)) →
        Waits (.selfCheckStart t) t s)) ∧
    (d.ply.chkAt = none ∨ d.ply.chkOwn.isSome = true → Waits (.selfCheckDone t pass) t s) ∧
    (d.ply.chkAt.isSome = true → d.ply.chkOwn = none → Ends (.selfCheckDone t pass) s fun e => d.pended e 0 Ev.PLY.SELFCHK_DONE ∧
      (pass = false → e.rd 0 PLY_STAT.SELFCHK_FAIL = 1) ∧
      (mode ≠ 0 → d.domOn .ply = true → ∃ q, .ply q (.check (some pass)) ∈ e.sent) ∧
      (d.chkMutual = true → d.ply.chkPeer = none → e.ply.chkOwn = some pass ∧ e.ply.chkAt = d.ply.chkAt) ∧
      (d.chkMutual = false → e.ply.chkAt = none ∧ e.ply.passed = (d.ply.passed || pass))) ∧
    (let over' := d.chkMutual = true ∧ d.ply.chkPeer = none ∧ ∃ t0, d.ply.chkAt = some t0 ∧ t0 + 3 * ticksPerMs ≤ d.now;
      (over' → d.ply.chkOwn = some own → Ends (.selfCheckTimeout t) s fun e => d.chkSettled e own none) ∧
      (over' → d.ply.chkOwn = none → Ends (.selfCheckTimeout t) s fun e => e.ply.chkAt = none ∧ e.plySt = d.plySt) ∧
      (¬over' → Waits (.selfCheckTimeout t) t s)) ∧
    (let alone := d.plyUp = true ∧ stby ∧ d.ply.signAt + 2 * ticksPerS ≤ d.now;
      (alone → Ends (.solo t) s fun e => e.plySt = 6 ∧ e.ply.mirRow = none) ∧ (¬alone → Waits (.solo t) t s)) ∧
    (let other := d.plyUp = true ∧ mode = 2 ∧ d.rd k SKN_CFG.TOPO = 2 ∧ d.sknOn k = true
      let yields := d.plyActive = true ∧ d.plyPref = false ∧ ¬(d.on 0 PLY_STAT.PAIRED = true ∧ d.ply.pstate = 5);
      (¬other → Waits (.ringFrameRx t k) t s) ∧
      (other → ¬yields → Ends (.ringFrameRx t k) s fun e =>
        e = { d with ply := { d.ply with ringAt := some d.now, signAt := d.now } }) ∧
      (other → yields → Ends (.ringFrameRx t k) s fun e => e.plySt = 5 ∧ e.ope.flight = [] ∧ e.ply.ringAt = some d.now ∧
        ∀ m < 64, 1 ≤ d.sesState m → d.sesState m ≤ 4 → e.rd 0 (SES_STAT.CAUSE m) = 8 ∧ (e.sesState m = 5 ∨ e.sesState m = 6))) ∧
    (let due := d.plyUp = true ∧ d.plyElig = true ∧ d.ply.ret = none ∧
        ∃ h, d.ply.holdAt = some h ∧ h + d.rd 0 PLY_GUARD.HOLDOFF_S * ticksPerS ≤ d.now;
      (due → d.domOn .ply = true → Ends (.returnStart t) s fun e => e.ply.ret = some (rows + 2, 0, 3) ∧
        d.plySent e (.take (rows + 2) 3)) ∧ (¬due → Waits (.returnStart t) t s)) ∧
    (d.plyHears 0x24 seq → (mode ≠ 2 → Ends (.takeRx t link seq tb cause) s (only 0x24)) ∧
      (mode = 2 → cause = 1 ∨ cause = 2 → d.plyActive = false → Ends (.takeRx t link seq tb cause) s (only 0x24)) ∧
      (mode = 2 → cause = 1 ∨ cause = 2 → d.plyActive = true → Ends (.takeRx t link seq tb cause) s fun e => e.plySt = 5 ∧
        e.rd 0 PLY_STAT.MIRROR_OK = 0 ∧ e.ope.flight = [] ∧ e.ply.ret = none) ∧
      (mode = 2 → cause ≠ 1 → cause ≠ 2 → Ends (.takeRx t link seq tb cause) s fun e => e.regs = d.regs ∧
        (∃ n, e.ply.ret = some (tb, n, cause)) ∧ e.ply.yieldAt = (if d.plyActive then some tb else d.ply.yieldAt))) ∧
    (let w := Dev.arrive t p s.dev; w.reached p .ply 0 0x45C → w.passes .ply 0 0x45C v = true → let r := w.rd 0 ALC_ROWCNT.ROWS
      let may := w.plyActive = true ∧ w.on 0 PLY_STAT.PAIRED = true ∧ w.on 0 PLY_STAT.ALIGNED = true ∧ w.ply.pstate = 5 ∧
        w.ply.chkPeer ≠ some false ∧ w.ply.ret = none;
      (v.toNat % 16 ≠ 1 → Refuses (.plySwitch t p v) s w .ply 0 0x45C RC.RANGE) ∧
      (v.toNat % 16 = 1 → v.toNat < 2 ^ 31 → Takes (.plySwitch t p v) s .ply 0 0x45C fun e => e = w) ∧
      (v.toNat % 16 = 1 → 2 ^ 31 ≤ v.toNat → ¬may → Refuses (.plySwitch t p v) s w .ply 0 0x45C 0x82) ∧
      (v.toNat % 16 = 1 → 2 ^ 31 ≤ v.toNat → may → w.domOn .ply = true → Takes (.plySwitch t p v) s .ply 0 0x45C fun e =>
        e.ply.ret = some (r + 2, 0, 4) ∧ e.ply.yieldAt = some (r + 2) ∧ w.plySent e (.take (r + 2) 4)))
end

