-- ==== Sys2Proof/Laws/AMap.lean ====
section
/-!
SUPPORT. The laws of sparse tables: reading what was written, every other key unchanged, and the canonical form, which
every operation keeps.
-/

namespace Sys2Proof.Machine

variable {α : Type}

/-! ### Reading after writing -/

theorem AMap.get_erase_ne (d : Nat → α) (m : AMap α) {k j : Nat} (h : j ≠ k) : AMap.get d (m.erase k) j = AMap.get d m j := by
  induction m with
  | nil => rfl
  | cons e m ih =>
    obtain ⟨k', v⟩ := e
    by_cases hk : k' = k
    · subst hk
      have : (AMap.erase ((k', v) :: m) k') = AMap.erase m k' := by simp [AMap.erase]
      rw [this, ih]
      simp [AMap.get, Ne.symm h]
    · have : (AMap.erase ((k', v) :: m) k) = (k', v) :: AMap.erase m k := by simp [AMap.erase, hk]
      rw [this]
      simp only [AMap.get, ih]

theorem AMap.get_erase_same (d : Nat → α) (m : AMap α) (k : Nat) : AMap.get d (m.erase k) k = d k := by
  induction m with
  | nil => rfl
  | cons e m ih =>
    obtain ⟨k', v⟩ := e
    by_cases hk : k' = k
    · subst hk
      have : (AMap.erase ((k', v) :: m) k') = AMap.erase m k' := by simp [AMap.erase]
      rw [this, ih]
    · have : (AMap.erase ((k', v) :: m) k) = (k', v) :: AMap.erase m k := by simp [AMap.erase, hk]
      rw [this]
      simp only [AMap.get, hk, if_false, ih]

theorem AMap.get_insert_ne (d : Nat → α) (m : AMap α) (v : α) {k j : Nat} (h : j ≠ k) :
    AMap.get d (AMap.insert k v m) j = AMap.get d m j := by
  induction m with
  | nil => simp [AMap.insert, AMap.get, Ne.symm h]
  | cons e m ih =>
    obtain ⟨k', v'⟩ := e
    simp only [AMap.insert]
    split
    · simp [AMap.get, Ne.symm h]
    · simp only [AMap.get, ih]

theorem AMap.get_insert_same (d : Nat → α) (m : AMap α) (v : α) (k : Nat) (h : ∀ e ∈ m, e.1 ≠ k) :
    AMap.get d (AMap.insert k v m) k = v := by
  induction m with
  | nil => simp [AMap.insert, AMap.get]
  | cons e m ih =>
    obtain ⟨k', v'⟩ := e
    have hk : k' ≠ k := h (k', v') (by simp)
    simp only [AMap.insert]
    split
    · simp [AMap.get]
    · simp only [AMap.get, hk, if_false]
      exact ih fun e he => h e (by simp [he])

/-- What was written at a key is read there. -/
@[simp] theorem AMap.get_set_same [DecidableEq α] (d : Nat → α) (m : AMap α) (k : Nat) (v : α) :
    AMap.get d (AMap.set d m k v) k = v := by
  unfold AMap.set
  split
  · next h => rw [AMap.get_erase_same, h]
  · exact AMap.get_insert_same d _ v k (by simp [AMap.erase])

/-- Every other key reads as before. -/
theorem AMap.get_set_ne [DecidableEq α] (d : Nat → α) (m : AMap α) {k j : Nat} (v : α) (h : j ≠ k) :
    AMap.get d (AMap.set d m k v) j = AMap.get d m j := by
  unfold AMap.set
  split
  · exact AMap.get_erase_ne d m h
  · rw [AMap.get_insert_ne d _ v h, AMap.get_erase_ne d m h]

/-- A key of a cleared range reads as unlisted. -/
theorem AMap.get_clearRange_in (d : Nat → α) (m : AMap α) {a n j : Nat} (h : a ≤ j) (h' : j < a + n) :
    AMap.get d (m.clearRange a n) j = d j := by
  induction m with
  | nil => rfl
  | cons e m ih =>
    obtain ⟨k', v⟩ := e
    by_cases hk : k' < a ∨ a + n ≤ k'
    · have : AMap.clearRange ((k', v) :: m) a n = (k', v) :: AMap.clearRange m a n := by
        simp only [AMap.clearRange, List.filter_cons]; simp [hk]
      rw [this]
      have hne : k' ≠ j := by omega
      simp only [AMap.get, hne, if_false, ih]
    · have : AMap.clearRange ((k', v) :: m) a n = AMap.clearRange m a n := by
        simp only [AMap.clearRange, List.filter_cons]; simp [hk]
      rw [this, ih]

/-- A key outside a cleared range reads as before. -/
theorem AMap.get_clearRange_out (d : Nat → α) (m : AMap α) {a n j : Nat} (h : j < a ∨ a + n ≤ j) :
    AMap.get d (m.clearRange a n) j = AMap.get d m j := by
  induction m with
  | nil => rfl
  | cons e m ih =>
    obtain ⟨k', v⟩ := e
    by_cases hk : k' < a ∨ a + n ≤ k'
    · have : AMap.clearRange ((k', v) :: m) a n = (k', v) :: AMap.clearRange m a n := by
        simp only [AMap.clearRange, List.filter_cons]; simp [hk]
      rw [this]
      simp only [AMap.get, ih]
    · have : AMap.clearRange ((k', v) :: m) a n = AMap.clearRange m a n := by
        simp only [AMap.clearRange, List.filter_cons]; simp [hk]
      rw [this, ih]
      have hne : k' ≠ j := by omega
      simp only [AMap.get, hne, if_false]

/-! ### Bytes -/

/-- A byte outside the bytes written reads as before. -/
theorem AMap.get_setBytes_out (m : AMap Byte) (a : Nat) (bs : List Byte) {j : Nat} (h : j < a ∨ a + bs.length ≤ j) :
    AMap.get (fun _ => 0#8) (m.setBytes a bs) j = AMap.get (fun _ => 0#8) m j := by
  induction bs generalizing m a with
  | nil => rfl
  | cons b bs ih =>
    simp only [AMap.setBytes]
    rw [ih _ _ (by simp at h; omega), AMap.get_set_ne _ _ _ (by simp at h; omega)]

/-- A byte inside the bytes written reads as written. -/
theorem AMap.get_setBytes_in (m : AMap Byte) (a : Nat) (bs : List Byte) (i : Nat) (h : i < bs.length) :
    AMap.get (fun _ => 0#8) (m.setBytes a bs) (a + i) = bs[i] := by
  induction bs generalizing m a i with
  | nil => simp at h
  | cons b bs ih =>
    simp only [AMap.setBytes]
    cases i with
    | zero => rw [AMap.get_setBytes_out _ _ _ (by omega)]; simp
    | succ i =>
      have := ih (AMap.set (fun _ => 0#8) m a b) (a + 1) i (by simpa using h)
      simpa [Nat.add_assoc, Nat.add_comm 1 i] using this

@[simp] theorem AMap.length_getBytes (m : AMap Byte) (a n : Nat) : (m.getBytes a n).length = n := by
  induction n generalizing a with
  | zero => rfl
  | succ n ih => simp [AMap.getBytes, ih]

/-- Reading back what was written. -/
theorem AMap.getBytes_setBytes (m : AMap Byte) (a : Nat) (bs : List Byte) : (m.setBytes a bs).getBytes a bs.length = bs := by
  induction bs generalizing m a with
  | nil => rfl
  | cons b bs ih =>
    simp only [AMap.setBytes, List.length_cons, AMap.getBytes]
    rw [ih, AMap.get_setBytes_out _ _ _ (by omega)]
    simp

@[simp] theorem leBytes_length (n v : Nat) : (leBytes n v).length = n := by
  induction n generalizing v with
  | zero => rfl
  | succ n ih => simp [leBytes, ih]

/-- A number of n bytes is read back from its little-endian bytes. -/
theorem leNat_leBytes (n v : Nat) : leNat (leBytes n v) = v % 256 ^ n := by
  induction n generalizing v with
  | zero => simp [leBytes, leNat, Nat.mod_one]
  | succ n ih =>
    simp only [leBytes, leNat, ih, BitVec.toNat_ofNat]
    have h : 256 ^ (n + 1) = 256 * 256 ^ n := by rw [Nat.pow_succ, Nat.mul_comm]
    have h8 : (2 : Nat) ^ 8 = 256 := rfl
    rw [h, h8, Nat.mod_mul]

/-! ### The canonical form -/

/-- Every key is above a bound. -/
def AMap.above (m : AMap α) (k : Nat) : Prop := ∀ e ∈ m, k < e.1

theorem AMap.wf_cons [DecidableEq α] (d : Nat → α) (k : Nat) (v : α) (m : AMap α) :
    AMap.wf d ((k, v) :: m) = true ↔ v ≠ d k ∧ m.above k ∧ AMap.wf d m = true := by
  induction m generalizing k v with
  | nil => simp [AMap.wf, AMap.above]
  | cons e m ih =>
    obtain ⟨k', v'⟩ := e
    simp only [AMap.wf, Bool.and_eq_true, decide_eq_true_eq]
    rw [ih k' v']
    constructor
    · rintro ⟨⟨h1, h2⟩, h3, h4, h5⟩
      refine ⟨h1, ?_, h3, h4, h5⟩
      intro e he
      rcases List.mem_cons.1 he with rfl | he
      · exact h2
      · exact Nat.lt_trans h2 (h4 e he)
    · rintro ⟨h1, h2, h3, h4, h5⟩
      exact ⟨⟨h1, h2 (k', v') (by simp)⟩, h3, h4, h5⟩

theorem AMap.wf_filter [DecidableEq α] (d : Nat → α) (p : Nat × α → Bool) (m : AMap α) (h : AMap.wf d m = true) :
    AMap.wf d (m.filter p) = true := by
  induction m with
  | nil => rfl
  | cons e m ih =>
    obtain ⟨k, v⟩ := e
    obtain ⟨h1, h2, h3⟩ := (AMap.wf_cons d k v m).1 h
    simp only [List.filter_cons]
    split
    · exact (AMap.wf_cons d k v _).2 ⟨h1, fun e he => h2 e (List.mem_filter.1 he).1, ih h3⟩
    · exact ih h3

theorem AMap.mem_insert (k : Nat) (v : α) (m : AMap α) (e : Nat × α) : e ∈ AMap.insert k v m ↔ e = (k, v) ∨ e ∈ m := by
  induction m with
  | nil => simp [AMap.insert]
  | cons x m ih =>
    obtain ⟨k', v'⟩ := x
    simp only [AMap.insert]
    split
    · simp
    · simp only [List.mem_cons, ih]; tauto

theorem AMap.wf_insert [DecidableEq α] (d : Nat → α) (k : Nat) (v : α) (m : AMap α) (h : AMap.wf d m = true) (hv : v ≠ d k)
    (hk : ∀ e ∈ m, e.1 ≠ k) : AMap.wf d (AMap.insert k v m) = true := by
  induction m with
  | nil => simp [AMap.insert, AMap.wf, hv]
  | cons e m ih =>
    obtain ⟨k', v'⟩ := e
    obtain ⟨h1, h2, h3⟩ := (AMap.wf_cons d k' v' m).1 h
    have hne : k' ≠ k := hk (k', v') (by simp)
    simp only [AMap.insert]
    split
    · next hlt =>
      refine (AMap.wf_cons d k v _).2 ⟨hv, ?_, h⟩
      intro e he
      rcases List.mem_cons.1 he with rfl | he
      · exact hlt
      · exact Nat.lt_trans hlt (h2 e he)
    · next hlt =>
      refine (AMap.wf_cons d k' v' _).2 ⟨h1, ?_, ih h3 fun e he => hk e (by simp [he])⟩
      intro e he
      rcases (AMap.mem_insert k v m e).1 he with rfl | he
      · show k' < k; omega
      · exact h2 e he

/-- Writing keeps the canonical form. -/
theorem AMap.wf_set [DecidableEq α] (d : Nat → α) (m : AMap α) (k : Nat) (v : α) (h : AMap.wf d m = true) :
    AMap.wf d (AMap.set d m k v) = true := by
  unfold AMap.set AMap.erase
  split
  · exact AMap.wf_filter d _ m h
  · next hv => exact AMap.wf_insert d k v _ (AMap.wf_filter d _ m h) hv (by simp)

/-- Clearing a range keeps the canonical form. -/
theorem AMap.wf_clearRange [DecidableEq α] (d : Nat → α) (m : AMap α) (a n : Nat) (h : AMap.wf d m = true) :
    AMap.wf d (m.clearRange a n) = true := AMap.wf_filter d _ m h

/-- Writing bytes keeps the canonical form. -/
theorem AMap.wf_setBytes (m : AMap Byte) (a : Nat) (bs : List Byte) (h : AMap.wf (fun _ => 0#8) m = true) :
    AMap.wf (fun _ => 0#8) (m.setBytes a bs) = true := by
  induction bs generalizing m a with
  | nil => exact h
  | cons b bs ih => exact ih _ _ (AMap.wf_set _ m a b h)

end Sys2Proof.Machine
end

