-- ==== Sys2Proof/Laws/Regs.lean ====
section
/-!
SUPPORT. The laws of fields and registers: a field reads as written, every other field and every other register reads
as before. They are what every statement about a register rests on.
-/

namespace Sys2Proof.Machine

/-! ### Words -/

theorem fget_testBit (hi lo : Nat) (w : Word) (i : Nat) :
    (fget hi lo w).testBit i = (decide (i < hi + 1 - lo) && w.toNat.testBit (lo + i)) := by
  simp [fget, Nat.testBit_mod_two_pow, Nat.testBit_div_two_pow, Nat.add_comm]

theorem fget_lt (hi lo : Nat) (w : Word) : fget hi lo w < 2 ^ (hi + 1 - lo) := Nat.mod_lt _ (by positivity)

/-- The bits of a word with a field replaced. -/
theorem fset_testBit (hi lo : Nat) (w : Word) (v j : Nat) (hl : lo ≤ hi) (hh : hi < 32) :
    (fset hi lo w v).toNat.testBit j =
      (if lo ≤ j ∧ j ≤ hi then v.testBit (j - lo) else w.toNat.testBit j) := by
  have hw : w.toNat < 2 ^ 32 := w.isLt
  have e : w.toNat % 2 ^ lo + (v % 2 ^ (hi + 1 - lo)) * 2 ^ lo + w.toNat / 2 ^ (hi + 1) * 2 ^ (hi + 1) =
      2 ^ (hi + 1) * (w.toNat / 2 ^ (hi + 1)) + (2 ^ lo * (v % 2 ^ (hi + 1 - lo)) + w.toNat % 2 ^ lo) := by ring
  have hlo : w.toNat % 2 ^ lo < 2 ^ lo := Nat.mod_lt _ (by positivity)
  have hmid : 2 ^ lo * (v % 2 ^ (hi + 1 - lo)) + w.toNat % 2 ^ lo < 2 ^ (hi + 1) := by
    have h1 : v % 2 ^ (hi + 1 - lo) + 1 ≤ 2 ^ (hi + 1 - lo) := Nat.mod_lt _ (by positivity)
    have h2 : 2 ^ lo * (v % 2 ^ (hi + 1 - lo) + 1) ≤ 2 ^ lo * 2 ^ (hi + 1 - lo) := Nat.mul_le_mul_left _ h1
    have h3 : 2 ^ lo * 2 ^ (hi + 1 - lo) = 2 ^ (hi + 1) := by rw [← Nat.pow_add]; congr 1; omega
    rw [Nat.mul_add, Nat.mul_one] at h2; omega
  have hb := fun j => Nat.testBit_two_pow_mul_add (w.toNat / 2 ^ (hi + 1)) hmid j
  have hlt : 2 ^ (hi + 1) * (w.toNat / 2 ^ (hi + 1)) + (2 ^ lo * (v % 2 ^ (hi + 1 - lo)) + w.toNat % 2 ^ lo) < 2 ^ 32 := by
    refine Nat.lt_pow_two_of_testBit _ fun j hj => ?_
    rw [hb]
    rw [if_neg (by omega), Nat.testBit_div_two_pow]
    exact Nat.testBit_eq_false_of_lt (Nat.lt_of_lt_of_le hw (Nat.pow_le_pow_right (by decide) (by omega)))
  rw [fset, e, BitVec.toNat_ofNat, Nat.mod_eq_of_lt hlt, hb, Nat.testBit_two_pow_mul_add _ hlo]
  by_cases h1 : j < hi + 1
  · by_cases h2 : j < lo
    · rw [if_pos h1, if_pos h2, if_neg (by omega), Nat.testBit_mod_two_pow]
      simp [h2]
    · rw [if_pos h1, if_neg h2, if_pos (by omega), Nat.testBit_mod_two_pow]
      simp; omega
  · rw [if_neg h1, if_neg (by omega), Nat.testBit_div_two_pow]
    congr 1; omega

/-- A field reads as it was set, modulo its width. -/
theorem fget_fset_same (hi lo : Nat) (w : Word) (v : Nat) (hl : lo ≤ hi) (hh : hi < 32) :
    fget hi lo (fset hi lo w v) = v % 2 ^ (hi + 1 - lo) := by
  refine Nat.eq_of_testBit_eq fun i => ?_
  rw [fget_testBit, fset_testBit _ _ _ _ _ hl hh, Nat.testBit_mod_two_pow]
  by_cases h : i < hi + 1 - lo
  · rw [if_pos (by omega)]; simp [h]
  · simp [h]

/-- A field that shares no bit with the one set reads as before. -/
theorem fget_fset_disj (hi lo hi' lo' : Nat) (w : Word) (v : Nat) (hl : lo ≤ hi) (hh : hi < 32)
    (h : hi < lo' ∨ hi' < lo) : fget hi' lo' (fset hi lo w v) = fget hi' lo' w := by
  refine Nat.eq_of_testBit_eq fun i => ?_
  rw [fget_testBit, fget_testBit, fset_testBit _ _ _ _ _ hl hh]
  by_cases hi : i < hi' + 1 - lo'
  · rw [if_neg (by omega)]
  · simp [hi]

/-! ### Registers -/

/-- A field is well placed: its bits lie in a word, its register in a page. -/
def Field.ok (f : Field) : Bool := f.lo ≤ f.hi && f.hi < 32 && f.off < 4096

/-- Two fields share no bit, whatever the instances: another register offset, or other bits. -/
def Field.apart (f g : Field) : Bool := f.off ≠ g.off || f.hi < g.lo || g.hi < f.lo

@[simp] theorem Dev.word_setWord_same (d : Dev) (t : Tag) (n off : Nat) (w : Word) : (d.setWord t n off w).word t n off = w := by
  simp [Dev.word, Dev.setWord]

theorem Dev.word_setWord_ne (d : Dev) (t t' : Tag) (n n' off off' : Nat) (w : Word)
    (h : pageIx t' n' * 4096 + off' ≠ pageIx t n * 4096 + off) :
    (d.setWord t n off w).word t' n' off' = d.word t' n' off' := AMap.get_set_ne _ _ _ h

theorem Field.ok_iff (f : Field) : f.ok = true ↔ f.lo ≤ f.hi ∧ f.hi < 32 ∧ f.off < 4096 := by
  simp [Field.ok, and_assoc]

/-- A field reads as written, modulo its width. -/
theorem Dev.rd_wr_same (d : Dev) (n : Nat) (f : Field) (v : Nat) (h : f.ok = true) :
    (d.wr n f v).rd n f = v % 2 ^ f.width := by
  rw [Field.ok_iff] at h
  simp only [Dev.rd, Dev.wr, Dev.word_setWord_same]
  rw [fget_fset_same _ _ _ _ h.1 h.2.1]; rfl

/-- A register of another address reads as before. -/
theorem Dev.rd_wr_addr (d : Dev) (n m : Nat) (f g : Field) (v : Nat)
    (h : pageIx g.tag m * 4096 + g.off ≠ pageIx f.tag n * 4096 + f.off) : (d.wr n f v).rd m g = d.rd m g := by
  simp only [Dev.rd, Dev.wr]
  rw [Dev.word_setWord_ne _ _ _ _ _ _ _ _ h]

/-- A field that shares no bit with the one written reads as before. -/
theorem Dev.rd_wr_apart (d : Dev) (n m : Nat) (f g : Field) (v : Nat) (hf : f.ok = true) (hg : g.ok = true)
    (h : f.apart g = true) : (d.wr n f v).rd m g = d.rd m g := by
  rw [Field.ok_iff] at hf hg
  by_cases e : pageIx g.tag m * 4096 + g.off = pageIx f.tag n * 4096 + f.off
  · have ho : g.off = f.off := by omega
    simp only [Field.apart, ho, ne_eq, not_true, decide_false, Bool.false_or, Bool.or_eq_true, decide_eq_true_eq] at h
    have hw : ∀ w : Word, (d.setWord f.tag n f.off w).word g.tag m g.off = w := fun w => by
      simp [Dev.word, Dev.setWord, e]
    simp only [Dev.rd, Dev.wr, hw]
    rw [fget_fset_disj _ _ _ _ _ _ hf.1 hf.2.1 h]
    simp [Dev.word, e]
  · exact Dev.rd_wr_addr d n m f g v e

/-- A register of another address keeps its word. -/
theorem Dev.regs_wr_ne (d : Dev) (n : Nat) (f : Field) (v a : Nat) (h : a ≠ pageIx f.tag n * 4096 + f.off) :
    (d.wr n f v).regs.get resetWord a = d.regs.get resetWord a := AMap.get_set_ne _ _ _ h

theorem Dev.regs_setWord_ne (d : Dev) (t : Tag) (n off : Nat) (w : Word) (a : Nat) (h : a ≠ pageIx t n * 4096 + off) :
    (d.setWord t n off w).regs.get resetWord a = d.regs.get resetWord a := AMap.get_set_ne _ _ _ h

/-- A field of another instance of the same block reads as before. -/
theorem Dev.rd_wr_inst (d : Dev) {n m : Nat} (f g : Field) (v : Nat) (hf : f.ok = true) (hg : g.ok = true)
    (ht : f.tag = g.tag) (h : m ≠ n) : (d.wr n f v).rd m g = d.rd m g := by
  rw [Field.ok_iff] at hf hg
  refine Dev.rd_wr_addr d n m f g v ?_
  rw [ht]; simp only [pageIx]; omega

theorem Dev.rd_lt (d : Dev) (n : Nat) (f : Field) : d.rd n f < 2 ^ f.width := fget_lt _ _ _

/-- A one-bit field reads as set. -/
theorem Dev.on_wrB_same (d : Dev) (n : Nat) (f : Field) (b : Bool) (h : f.ok = true) : (d.wrB n f b).on n f = b := by
  have hw : 2 ^ f.width ≥ 2 := by
    rw [Field.ok_iff] at h
    have : 1 ≤ f.width := by simp only [Field.width]; omega
    calc 2 = 2 ^ 1 := rfl
      _ ≤ 2 ^ f.width := Nat.pow_le_pow_right (by decide) this
  simp only [Dev.on, Dev.wrB, Dev.rd_wr_same _ _ _ _ h]
  cases b
  · simp
  · rw [if_pos rfl, Nat.mod_eq_of_lt (by omega)]; rfl

/-- A counter that wraps. -/
theorem Dev.rd_inc_same (d : Dev) (n : Nat) (f : Field) (k : Nat) (h : f.ok = true) :
    (d.inc n f k).rd n f = (d.rd n f + k) % 2 ^ f.width := Dev.rd_wr_same _ _ _ _ h

theorem satU_lt (w : Nat) (v : Int) : satU w v < 2 ^ w := by
  have h2 : 0 < 2 ^ w := by positivity
  unfold satU
  split
  · exact h2
  · split
    · omega
    · next h1 h3 =>
      generalize 2 ^ w = m at *
      omega

/-- An unsigned field reads as written, saturated (R10). -/
theorem Dev.rd_wrU_same (d : Dev) (n : Nat) (f : Field) (v : Int) (h : f.ok = true) :
    (d.wrU n f v).rd n f = satU f.width v := by
  rw [Dev.wrU, Dev.rd_wr_same _ _ _ _ h, Nat.mod_eq_of_lt (satU_lt _ _)]

/-- A counter that saturates. -/
theorem Dev.rd_incSat_same (d : Dev) (n : Nat) (f : Field) (k : Nat) (h : f.ok = true) :
    (d.incSat n f k).rd n f = min (d.rd n f + k) (2 ^ f.width - 1) := by
  rw [Dev.incSat, Dev.rd_wrU_same _ _ _ _ h]
  have h2 : 0 < 2 ^ f.width := by positivity
  unfold satU
  rw [if_neg (by omega)]
  split
  · next h1 => have : 2 ^ f.width ≤ d.rd n f + k := by exact_mod_cast h1
               omega
  · next h1 => have : ¬ 2 ^ f.width ≤ d.rd n f + k := by
                 intro h3; exact h1 (by exact_mod_cast h3)
               simp only [Int.toNat_natCast]; omega

/-- The bits of a number with bit i set or cleared. -/
theorem testBit_setBit (x i j : Nat) (b : Bool) :
    (if b then (if x.testBit i then x else x + 2 ^ i) else (if x.testBit i then x - 2 ^ i else x)).testBit j =
      (if j = i then b else x.testBit j) := by
  have hm : x % 2 ^ i < 2 ^ i := Nat.mod_lt _ (by positivity)
  obtain ⟨q, c, hc, hq⟩ : ∃ q c, c < 2 ∧ x / 2 ^ i = 2 * q + c :=
    ⟨x / 2 ^ i / 2, x / 2 ^ i % 2, Nat.mod_lt _ (by decide), (Nat.div_add_mod _ _).symm⟩
  have hx : x = 2 ^ i * (2 * q + c) + x % 2 ^ i := by rw [← hq]; exact (Nat.div_add_mod _ _).symm
  have key : ∀ a < 2, (2 ^ i * (2 * q + a) + x % 2 ^ i).testBit j =
      (if j = i then decide (a = 1) else x.testBit j) := by
    intro a ha
    rw [Nat.testBit_two_pow_mul_add _ hm]
    by_cases h1 : j < i
    · rw [if_pos h1, if_neg (by omega), Nat.testBit_mod_two_pow]; simp [h1]
    · rw [if_neg h1]
      by_cases h2 : j = i
      · subst h2
        rw [Nat.sub_self, Nat.testBit_zero, if_pos rfl]
        have : (2 * q + a) % 2 = a := by omega
        rw [this]
      · rw [if_neg h2]
        obtain ⟨k, hk⟩ : ∃ k, j - i = k + 1 := ⟨j - i - 1, by omega⟩
        rw [hx, Nat.testBit_two_pow_mul_add _ hm, if_neg h1, hk, Nat.testBit_succ, Nat.testBit_succ]
        congr 1; omega
  have hb : x.testBit i = decide (c = 1) := by
    rw [hx, Nat.testBit_two_pow_mul_add _ hm, if_neg (by omega), Nat.sub_self, Nat.testBit_zero]
    congr 1
    have : (2 * q + c) % 2 = c := by omega
    rw [this]
  have e0 : c = 0 → x + 2 ^ i = 2 ^ i * (2 * q + 1) + x % 2 ^ i := by
    rintro rfl
    have h := hx
    rw [Nat.mul_add, Nat.mul_zero] at h
    rw [Nat.mul_add, Nat.mul_one]; omega
  have e1 : c = 1 → x - 2 ^ i = 2 ^ i * (2 * q + 0) + x % 2 ^ i := by
    rintro rfl
    have h := hx
    rw [Nat.mul_add, Nat.mul_one] at h
    rw [Nat.mul_add, Nat.mul_zero]; omega
  have hc' : c = 0 ∨ c = 1 := by omega
  rcases hc' with rfl | rfl <;> cases b <;> simp only [hb, if_true, Bool.false_eq_true, if_false, decide_true,
    show decide ((0 : Nat) = 1) = false from rfl]
  · rw [show x.testBit j = (2 ^ i * (2 * q + 0) + x % 2 ^ i).testBit j from congrArg (Nat.testBit · j) hx, key 0 (by omega)]
    split <;> rfl
  · rw [e0 rfl, key 1 (by omega)]; rfl
  · rw [e1 rfl, key 0 (by omega)]; rfl
  · rw [show x.testBit j = (2 ^ i * (2 * q + 1) + x % 2 ^ i).testBit j from congrArg (Nat.testBit · j) hx, key 1 (by omega)]
    split <;> rfl

/-- The bits of a field with bit i set or cleared. -/
theorem Dev.bit_wrBit (d : Dev) (n : Nat) (f : Field) (i j : Nat) (b : Bool) (h : f.ok = true) (hi : i < f.width) :
    (d.wrBit n f i b).bit n f j = (if j = i then b else d.bit n f j) := by
  have hlt := d.rd_lt n f
  simp only [Dev.bit, Dev.wrBit, Dev.rd_wr_same _ _ _ _ h, Nat.testBit_mod_two_pow, testBit_setBit]
  by_cases hj : j < f.width
  · simp [hj]
  · rw [if_neg (by omega)]
    simp only [hj, decide_false, Bool.false_and]
    exact (Nat.testBit_eq_false_of_lt (Nat.lt_of_lt_of_le hlt (Nat.pow_le_pow_right (by decide) (by omega)))).symm

/-- A bit of a field reads as set. -/
theorem Dev.bit_wrBit_same (d : Dev) (n : Nat) (f : Field) (i : Nat) (b : Bool) (h : f.ok = true) (hi : i < f.width) :
    (d.wrBit n f i b).bit n f i = b := by rw [Dev.bit_wrBit _ _ _ _ _ _ h hi, if_pos rfl]

end Sys2Proof.Machine
end

