-- ==== Sys2Proof/Laws/State.lean ====
section
/-!
SUPPORT. The laws of updates: what each register write and each update of a record leaves alone, one lemma per update
and field, and a record reads as replaced. No proof needs to unfold a record update.
-/

namespace Sys2Proof.Machine

variable (d : Dev)

/-! ### Register writes leave everything but the registers alone -/

@[simp] theorem Dev.now_setWord (t : Tag) (n off : Nat) (w : Word) : (d.setWord t n off w).now = d.now := rfl
@[simp] theorem Dev.freeCnt_setWord (t : Tag) (n off : Nat) (w : Word) : (d.setWord t n off w).freeCnt = d.freeCnt := rfl
@[simp] theorem Dev.sent_setWord (t : Tag) (n off : Nat) (w : Word) : (d.setWord t n off w).sent = d.sent := rfl
@[simp] theorem Dev.edram_setWord (t : Tag) (n off : Nat) (w : Word) : (d.setWord t n off w).edram = d.edram := rfl
@[simp] theorem Dev.host_setWord (t : Tag) (n off : Nat) (w : Word) : (d.setWord t n off w).host = d.host := rfl
@[simp] theorem Dev.frc_setWord (t : Tag) (n off : Nat) (w : Word) : (d.setWord t n off w).frc = d.frc := rfl
@[simp] theorem Dev.skn_setWord (t : Tag) (n off : Nat) (w : Word) : (d.setWord t n off w).skn = d.skn := rfl
@[simp] theorem Dev.ctm_setWord (t : Tag) (n off : Nat) (w : Word) : (d.setWord t n off w).ctm = d.ctm := rfl
@[simp] theorem Dev.ope_setWord (t : Tag) (n off : Nat) (w : Word) : (d.setWord t n off w).ope = d.ope := rfl
@[simp] theorem Dev.str_setWord (t : Tag) (n off : Nat) (w : Word) : (d.setWord t n off w).str = d.str := rfl
@[simp] theorem Dev.pt_setWord (t : Tag) (n off : Nat) (w : Word) : (d.setWord t n off w).pt = d.pt := rfl
@[simp] theorem Dev.ses_setWord (t : Tag) (n off : Nat) (w : Word) : (d.setWord t n off w).ses = d.ses := rfl
@[simp] theorem Dev.vcm_setWord (t : Tag) (n off : Nat) (w : Word) : (d.setWord t n off w).vcm = d.vcm := rfl
@[simp] theorem Dev.alc_setWord (t : Tag) (n off : Nat) (w : Word) : (d.setWord t n off w).alc = d.alc := rfl
@[simp] theorem Dev.thm_setWord (t : Tag) (n off : Nat) (w : Word) : (d.setWord t n off w).thm = d.thm := rfl
@[simp] theorem Dev.cbl_setWord (t : Tag) (n off : Nat) (w : Word) : (d.setWord t n off w).cbl = d.cbl := rfl
@[simp] theorem Dev.die_setWord (t : Tag) (n off : Nat) (w : Word) : (d.setWord t n off w).die = d.die := rfl
@[simp] theorem Dev.lsw_setWord (t : Tag) (n off : Nat) (w : Word) : (d.setWord t n off w).lsw = d.lsw := rfl
@[simp] theorem Dev.vaux_setWord (t : Tag) (n off : Nat) (w : Word) : (d.setWord t n off w).vaux = d.vaux := rfl
@[simp] theorem Dev.aux_setWord (t : Tag) (n off : Nat) (w : Word) : (d.setWord t n off w).aux = d.aux := rfl
@[simp] theorem Dev.key_setWord (t : Tag) (n off : Nat) (w : Word) : (d.setWord t n off w).key = d.key := rfl
@[simp] theorem Dev.clk_setWord (t : Tag) (n off : Nat) (w : Word) : (d.setWord t n off w).clk = d.clk := rfl
@[simp] theorem Dev.yarn_setWord (t : Tag) (n off : Nat) (w : Word) : (d.setWord t n off w).yarn = d.yarn := rfl
@[simp] theorem Dev.stageAt_setWord (t : Tag) (n off : Nat) (w : Word) : (d.setWord t n off w).stageAt = d.stageAt := rfl
@[simp] theorem Dev.saf_setWord (t : Tag) (n off : Nat) (w : Word) : (d.setWord t n off w).saf = d.saf := rfl
@[simp] theorem Dev.lgl_setWord (t : Tag) (n off : Nat) (w : Word) : (d.setWord t n off w).lgl = d.lgl := rfl
@[simp] theorem Dev.sys_setWord (t : Tag) (n off : Nat) (w : Word) : (d.setWord t n off w).sys = d.sys := rfl
@[simp] theorem Dev.pwr_setWord (t : Tag) (n off : Nat) (w : Word) : (d.setWord t n off w).pwr = d.pwr := rfl
@[simp] theorem Dev.ply_setWord (t : Tag) (n off : Nat) (w : Word) : (d.setWord t n off w).ply = d.ply := rfl

@[simp] theorem Dev.now_wr (n : Nat) (f : Field) (v : Nat) : (d.wr n f v).now = d.now := rfl
@[simp] theorem Dev.freeCnt_wr (n : Nat) (f : Field) (v : Nat) : (d.wr n f v).freeCnt = d.freeCnt := rfl
@[simp] theorem Dev.sent_wr (n : Nat) (f : Field) (v : Nat) : (d.wr n f v).sent = d.sent := rfl
@[simp] theorem Dev.edram_wr (n : Nat) (f : Field) (v : Nat) : (d.wr n f v).edram = d.edram := rfl
@[simp] theorem Dev.host_wr (n : Nat) (f : Field) (v : Nat) : (d.wr n f v).host = d.host := rfl
@[simp] theorem Dev.frc_wr (n : Nat) (f : Field) (v : Nat) : (d.wr n f v).frc = d.frc := rfl
@[simp] theorem Dev.skn_wr (n : Nat) (f : Field) (v : Nat) : (d.wr n f v).skn = d.skn := rfl
@[simp] theorem Dev.ctm_wr (n : Nat) (f : Field) (v : Nat) : (d.wr n f v).ctm = d.ctm := rfl
@[simp] theorem Dev.ope_wr (n : Nat) (f : Field) (v : Nat) : (d.wr n f v).ope = d.ope := rfl
@[simp] theorem Dev.str_wr (n : Nat) (f : Field) (v : Nat) : (d.wr n f v).str = d.str := rfl
@[simp] theorem Dev.pt_wr (n : Nat) (f : Field) (v : Nat) : (d.wr n f v).pt = d.pt := rfl
@[simp] theorem Dev.ses_wr (n : Nat) (f : Field) (v : Nat) : (d.wr n f v).ses = d.ses := rfl
@[simp] theorem Dev.vcm_wr (n : Nat) (f : Field) (v : Nat) : (d.wr n f v).vcm = d.vcm := rfl
@[simp] theorem Dev.alc_wr (n : Nat) (f : Field) (v : Nat) : (d.wr n f v).alc = d.alc := rfl
@[simp] theorem Dev.thm_wr (n : Nat) (f : Field) (v : Nat) : (d.wr n f v).thm = d.thm := rfl
@[simp] theorem Dev.cbl_wr (n : Nat) (f : Field) (v : Nat) : (d.wr n f v).cbl = d.cbl := rfl
@[simp] theorem Dev.die_wr (n : Nat) (f : Field) (v : Nat) : (d.wr n f v).die = d.die := rfl
@[simp] theorem Dev.lsw_wr (n : Nat) (f : Field) (v : Nat) : (d.wr n f v).lsw = d.lsw := rfl
@[simp] theorem Dev.vaux_wr (n : Nat) (f : Field) (v : Nat) : (d.wr n f v).vaux = d.vaux := rfl
@[simp] theorem Dev.aux_wr (n : Nat) (f : Field) (v : Nat) : (d.wr n f v).aux = d.aux := rfl
@[simp] theorem Dev.key_wr (n : Nat) (f : Field) (v : Nat) : (d.wr n f v).key = d.key := rfl
@[simp] theorem Dev.clk_wr (n : Nat) (f : Field) (v : Nat) : (d.wr n f v).clk = d.clk := rfl
@[simp] theorem Dev.yarn_wr (n : Nat) (f : Field) (v : Nat) : (d.wr n f v).yarn = d.yarn := rfl
@[simp] theorem Dev.stageAt_wr (n : Nat) (f : Field) (v : Nat) : (d.wr n f v).stageAt = d.stageAt := rfl
@[simp] theorem Dev.saf_wr (n : Nat) (f : Field) (v : Nat) : (d.wr n f v).saf = d.saf := rfl
@[simp] theorem Dev.lgl_wr (n : Nat) (f : Field) (v : Nat) : (d.wr n f v).lgl = d.lgl := rfl
@[simp] theorem Dev.sys_wr (n : Nat) (f : Field) (v : Nat) : (d.wr n f v).sys = d.sys := rfl
@[simp] theorem Dev.pwr_wr (n : Nat) (f : Field) (v : Nat) : (d.wr n f v).pwr = d.pwr := rfl
@[simp] theorem Dev.ply_wr (n : Nat) (f : Field) (v : Nat) : (d.wr n f v).ply = d.ply := rfl

@[simp] theorem Dev.now_wrU (n : Nat) (f : Field) (v : Int) : (d.wrU n f v).now = d.now := rfl
@[simp] theorem Dev.freeCnt_wrU (n : Nat) (f : Field) (v : Int) : (d.wrU n f v).freeCnt = d.freeCnt := rfl
@[simp] theorem Dev.sent_wrU (n : Nat) (f : Field) (v : Int) : (d.wrU n f v).sent = d.sent := rfl
@[simp] theorem Dev.edram_wrU (n : Nat) (f : Field) (v : Int) : (d.wrU n f v).edram = d.edram := rfl
@[simp] theorem Dev.host_wrU (n : Nat) (f : Field) (v : Int) : (d.wrU n f v).host = d.host := rfl
@[simp] theorem Dev.frc_wrU (n : Nat) (f : Field) (v : Int) : (d.wrU n f v).frc = d.frc := rfl
@[simp] theorem Dev.skn_wrU (n : Nat) (f : Field) (v : Int) : (d.wrU n f v).skn = d.skn := rfl
@[simp] theorem Dev.ctm_wrU (n : Nat) (f : Field) (v : Int) : (d.wrU n f v).ctm = d.ctm := rfl
@[simp] theorem Dev.ope_wrU (n : Nat) (f : Field) (v : Int) : (d.wrU n f v).ope = d.ope := rfl
@[simp] theorem Dev.str_wrU (n : Nat) (f : Field) (v : Int) : (d.wrU n f v).str = d.str := rfl
@[simp] theorem Dev.pt_wrU (n : Nat) (f : Field) (v : Int) : (d.wrU n f v).pt = d.pt := rfl
@[simp] theorem Dev.ses_wrU (n : Nat) (f : Field) (v : Int) : (d.wrU n f v).ses = d.ses := rfl
@[simp] theorem Dev.vcm_wrU (n : Nat) (f : Field) (v : Int) : (d.wrU n f v).vcm = d.vcm := rfl
@[simp] theorem Dev.alc_wrU (n : Nat) (f : Field) (v : Int) : (d.wrU n f v).alc = d.alc := rfl
@[simp] theorem Dev.thm_wrU (n : Nat) (f : Field) (v : Int) : (d.wrU n f v).thm = d.thm := rfl
@[simp] theorem Dev.cbl_wrU (n : Nat) (f : Field) (v : Int) : (d.wrU n f v).cbl = d.cbl := rfl
@[simp] theorem Dev.die_wrU (n : Nat) (f : Field) (v : Int) : (d.wrU n f v).die = d.die := rfl
@[simp] theorem Dev.lsw_wrU (n : Nat) (f : Field) (v : Int) : (d.wrU n f v).lsw = d.lsw := rfl
@[simp] theorem Dev.vaux_wrU (n : Nat) (f : Field) (v : Int) : (d.wrU n f v).vaux = d.vaux := rfl
@[simp] theorem Dev.aux_wrU (n : Nat) (f : Field) (v : Int) : (d.wrU n f v).aux = d.aux := rfl
@[simp] theorem Dev.key_wrU (n : Nat) (f : Field) (v : Int) : (d.wrU n f v).key = d.key := rfl
@[simp] theorem Dev.clk_wrU (n : Nat) (f : Field) (v : Int) : (d.wrU n f v).clk = d.clk := rfl
@[simp] theorem Dev.yarn_wrU (n : Nat) (f : Field) (v : Int) : (d.wrU n f v).yarn = d.yarn := rfl
@[simp] theorem Dev.stageAt_wrU (n : Nat) (f : Field) (v : Int) : (d.wrU n f v).stageAt = d.stageAt := rfl
@[simp] theorem Dev.saf_wrU (n : Nat) (f : Field) (v : Int) : (d.wrU n f v).saf = d.saf := rfl
@[simp] theorem Dev.lgl_wrU (n : Nat) (f : Field) (v : Int) : (d.wrU n f v).lgl = d.lgl := rfl
@[simp] theorem Dev.sys_wrU (n : Nat) (f : Field) (v : Int) : (d.wrU n f v).sys = d.sys := rfl
@[simp] theorem Dev.pwr_wrU (n : Nat) (f : Field) (v : Int) : (d.wrU n f v).pwr = d.pwr := rfl
@[simp] theorem Dev.ply_wrU (n : Nat) (f : Field) (v : Int) : (d.wrU n f v).ply = d.ply := rfl

@[simp] theorem Dev.now_wrI (n : Nat) (f : Field) (v : Int) : (d.wrI n f v).now = d.now := rfl
@[simp] theorem Dev.freeCnt_wrI (n : Nat) (f : Field) (v : Int) : (d.wrI n f v).freeCnt = d.freeCnt := rfl
@[simp] theorem Dev.sent_wrI (n : Nat) (f : Field) (v : Int) : (d.wrI n f v).sent = d.sent := rfl
@[simp] theorem Dev.edram_wrI (n : Nat) (f : Field) (v : Int) : (d.wrI n f v).edram = d.edram := rfl
@[simp] theorem Dev.host_wrI (n : Nat) (f : Field) (v : Int) : (d.wrI n f v).host = d.host := rfl
@[simp] theorem Dev.frc_wrI (n : Nat) (f : Field) (v : Int) : (d.wrI n f v).frc = d.frc := rfl
@[simp] theorem Dev.skn_wrI (n : Nat) (f : Field) (v : Int) : (d.wrI n f v).skn = d.skn := rfl
@[simp] theorem Dev.ctm_wrI (n : Nat) (f : Field) (v : Int) : (d.wrI n f v).ctm = d.ctm := rfl
@[simp] theorem Dev.ope_wrI (n : Nat) (f : Field) (v : Int) : (d.wrI n f v).ope = d.ope := rfl
@[simp] theorem Dev.str_wrI (n : Nat) (f : Field) (v : Int) : (d.wrI n f v).str = d.str := rfl
@[simp] theorem Dev.pt_wrI (n : Nat) (f : Field) (v : Int) : (d.wrI n f v).pt = d.pt := rfl
@[simp] theorem Dev.ses_wrI (n : Nat) (f : Field) (v : Int) : (d.wrI n f v).ses = d.ses := rfl
@[simp] theorem Dev.vcm_wrI (n : Nat) (f : Field) (v : Int) : (d.wrI n f v).vcm = d.vcm := rfl
@[simp] theorem Dev.alc_wrI (n : Nat) (f : Field) (v : Int) : (d.wrI n f v).alc = d.alc := rfl
@[simp] theorem Dev.thm_wrI (n : Nat) (f : Field) (v : Int) : (d.wrI n f v).thm = d.thm := rfl
@[simp] theorem Dev.cbl_wrI (n : Nat) (f : Field) (v : Int) : (d.wrI n f v).cbl = d.cbl := rfl
@[simp] theorem Dev.die_wrI (n : Nat) (f : Field) (v : Int) : (d.wrI n f v).die = d.die := rfl
@[simp] theorem Dev.lsw_wrI (n : Nat) (f : Field) (v : Int) : (d.wrI n f v).lsw = d.lsw := rfl
@[simp] theorem Dev.vaux_wrI (n : Nat) (f : Field) (v : Int) : (d.wrI n f v).vaux = d.vaux := rfl
@[simp] theorem Dev.aux_wrI (n : Nat) (f : Field) (v : Int) : (d.wrI n f v).aux = d.aux := rfl
@[simp] theorem Dev.key_wrI (n : Nat) (f : Field) (v : Int) : (d.wrI n f v).key = d.key := rfl
@[simp] theorem Dev.clk_wrI (n : Nat) (f : Field) (v : Int) : (d.wrI n f v).clk = d.clk := rfl
@[simp] theorem Dev.yarn_wrI (n : Nat) (f : Field) (v : Int) : (d.wrI n f v).yarn = d.yarn := rfl
@[simp] theorem Dev.stageAt_wrI (n : Nat) (f : Field) (v : Int) : (d.wrI n f v).stageAt = d.stageAt := rfl
@[simp] theorem Dev.saf_wrI (n : Nat) (f : Field) (v : Int) : (d.wrI n f v).saf = d.saf := rfl
@[simp] theorem Dev.lgl_wrI (n : Nat) (f : Field) (v : Int) : (d.wrI n f v).lgl = d.lgl := rfl
@[simp] theorem Dev.sys_wrI (n : Nat) (f : Field) (v : Int) : (d.wrI n f v).sys = d.sys := rfl
@[simp] theorem Dev.pwr_wrI (n : Nat) (f : Field) (v : Int) : (d.wrI n f v).pwr = d.pwr := rfl
@[simp] theorem Dev.ply_wrI (n : Nat) (f : Field) (v : Int) : (d.wrI n f v).ply = d.ply := rfl

@[simp] theorem Dev.now_wrB (n : Nat) (f : Field) (b : Bool) : (d.wrB n f b).now = d.now := rfl
@[simp] theorem Dev.freeCnt_wrB (n : Nat) (f : Field) (b : Bool) : (d.wrB n f b).freeCnt = d.freeCnt := rfl
@[simp] theorem Dev.sent_wrB (n : Nat) (f : Field) (b : Bool) : (d.wrB n f b).sent = d.sent := rfl
@[simp] theorem Dev.edram_wrB (n : Nat) (f : Field) (b : Bool) : (d.wrB n f b).edram = d.edram := rfl
@[simp] theorem Dev.host_wrB (n : Nat) (f : Field) (b : Bool) : (d.wrB n f b).host = d.host := rfl
@[simp] theorem Dev.frc_wrB (n : Nat) (f : Field) (b : Bool) : (d.wrB n f b).frc = d.frc := rfl
@[simp] theorem Dev.skn_wrB (n : Nat) (f : Field) (b : Bool) : (d.wrB n f b).skn = d.skn := rfl
@[simp] theorem Dev.ctm_wrB (n : Nat) (f : Field) (b : Bool) : (d.wrB n f b).ctm = d.ctm := rfl
@[simp] theorem Dev.ope_wrB (n : Nat) (f : Field) (b : Bool) : (d.wrB n f b).ope = d.ope := rfl
@[simp] theorem Dev.str_wrB (n : Nat) (f : Field) (b : Bool) : (d.wrB n f b).str = d.str := rfl
@[simp] theorem Dev.pt_wrB (n : Nat) (f : Field) (b : Bool) : (d.wrB n f b).pt = d.pt := rfl
@[simp] theorem Dev.ses_wrB (n : Nat) (f : Field) (b : Bool) : (d.wrB n f b).ses = d.ses := rfl
@[simp] theorem Dev.vcm_wrB (n : Nat) (f : Field) (b : Bool) : (d.wrB n f b).vcm = d.vcm := rfl
@[simp] theorem Dev.alc_wrB (n : Nat) (f : Field) (b : Bool) : (d.wrB n f b).alc = d.alc := rfl
@[simp] theorem Dev.thm_wrB (n : Nat) (f : Field) (b : Bool) : (d.wrB n f b).thm = d.thm := rfl
@[simp] theorem Dev.cbl_wrB (n : Nat) (f : Field) (b : Bool) : (d.wrB n f b).cbl = d.cbl := rfl
@[simp] theorem Dev.die_wrB (n : Nat) (f : Field) (b : Bool) : (d.wrB n f b).die = d.die := rfl
@[simp] theorem Dev.lsw_wrB (n : Nat) (f : Field) (b : Bool) : (d.wrB n f b).lsw = d.lsw := rfl
@[simp] theorem Dev.vaux_wrB (n : Nat) (f : Field) (b : Bool) : (d.wrB n f b).vaux = d.vaux := rfl
@[simp] theorem Dev.aux_wrB (n : Nat) (f : Field) (b : Bool) : (d.wrB n f b).aux = d.aux := rfl
@[simp] theorem Dev.key_wrB (n : Nat) (f : Field) (b : Bool) : (d.wrB n f b).key = d.key := rfl
@[simp] theorem Dev.clk_wrB (n : Nat) (f : Field) (b : Bool) : (d.wrB n f b).clk = d.clk := rfl
@[simp] theorem Dev.yarn_wrB (n : Nat) (f : Field) (b : Bool) : (d.wrB n f b).yarn = d.yarn := rfl
@[simp] theorem Dev.stageAt_wrB (n : Nat) (f : Field) (b : Bool) : (d.wrB n f b).stageAt = d.stageAt := rfl
@[simp] theorem Dev.saf_wrB (n : Nat) (f : Field) (b : Bool) : (d.wrB n f b).saf = d.saf := rfl
@[simp] theorem Dev.lgl_wrB (n : Nat) (f : Field) (b : Bool) : (d.wrB n f b).lgl = d.lgl := rfl
@[simp] theorem Dev.sys_wrB (n : Nat) (f : Field) (b : Bool) : (d.wrB n f b).sys = d.sys := rfl
@[simp] theorem Dev.pwr_wrB (n : Nat) (f : Field) (b : Bool) : (d.wrB n f b).pwr = d.pwr := rfl
@[simp] theorem Dev.ply_wrB (n : Nat) (f : Field) (b : Bool) : (d.wrB n f b).ply = d.ply := rfl

@[simp] theorem Dev.now_wrBit (n : Nat) (f : Field) (i : Nat) (b : Bool) : (d.wrBit n f i b).now = d.now := rfl
@[simp] theorem Dev.freeCnt_wrBit (n : Nat) (f : Field) (i : Nat) (b : Bool) : (d.wrBit n f i b).freeCnt = d.freeCnt := rfl
@[simp] theorem Dev.sent_wrBit (n : Nat) (f : Field) (i : Nat) (b : Bool) : (d.wrBit n f i b).sent = d.sent := rfl
@[simp] theorem Dev.edram_wrBit (n : Nat) (f : Field) (i : Nat) (b : Bool) : (d.wrBit n f i b).edram = d.edram := rfl
@[simp] theorem Dev.host_wrBit (n : Nat) (f : Field) (i : Nat) (b : Bool) : (d.wrBit n f i b).host = d.host := rfl
@[simp] theorem Dev.frc_wrBit (n : Nat) (f : Field) (i : Nat) (b : Bool) : (d.wrBit n f i b).frc = d.frc := rfl
@[simp] theorem Dev.skn_wrBit (n : Nat) (f : Field) (i : Nat) (b : Bool) : (d.wrBit n f i b).skn = d.skn := rfl
@[simp] theorem Dev.ctm_wrBit (n : Nat) (f : Field) (i : Nat) (b : Bool) : (d.wrBit n f i b).ctm = d.ctm := rfl
@[simp] theorem Dev.ope_wrBit (n : Nat) (f : Field) (i : Nat) (b : Bool) : (d.wrBit n f i b).ope = d.ope := rfl
@[simp] theorem Dev.str_wrBit (n : Nat) (f : Field) (i : Nat) (b : Bool) : (d.wrBit n f i b).str = d.str := rfl
@[simp] theorem Dev.pt_wrBit (n : Nat) (f : Field) (i : Nat) (b : Bool) : (d.wrBit n f i b).pt = d.pt := rfl
@[simp] theorem Dev.ses_wrBit (n : Nat) (f : Field) (i : Nat) (b : Bool) : (d.wrBit n f i b).ses = d.ses := rfl
@[simp] theorem Dev.vcm_wrBit (n : Nat) (f : Field) (i : Nat) (b : Bool) : (d.wrBit n f i b).vcm = d.vcm := rfl
@[simp] theorem Dev.alc_wrBit (n : Nat) (f : Field) (i : Nat) (b : Bool) : (d.wrBit n f i b).alc = d.alc := rfl
@[simp] theorem Dev.thm_wrBit (n : Nat) (f : Field) (i : Nat) (b : Bool) : (d.wrBit n f i b).thm = d.thm := rfl
@[simp] theorem Dev.cbl_wrBit (n : Nat) (f : Field) (i : Nat) (b : Bool) : (d.wrBit n f i b).cbl = d.cbl := rfl
@[simp] theorem Dev.die_wrBit (n : Nat) (f : Field) (i : Nat) (b : Bool) : (d.wrBit n f i b).die = d.die := rfl
@[simp] theorem Dev.lsw_wrBit (n : Nat) (f : Field) (i : Nat) (b : Bool) : (d.wrBit n f i b).lsw = d.lsw := rfl
@[simp] theorem Dev.vaux_wrBit (n : Nat) (f : Field) (i : Nat) (b : Bool) : (d.wrBit n f i b).vaux = d.vaux := rfl
@[simp] theorem Dev.aux_wrBit (n : Nat) (f : Field) (i : Nat) (b : Bool) : (d.wrBit n f i b).aux = d.aux := rfl
@[simp] theorem Dev.key_wrBit (n : Nat) (f : Field) (i : Nat) (b : Bool) : (d.wrBit n f i b).key = d.key := rfl
@[simp] theorem Dev.clk_wrBit (n : Nat) (f : Field) (i : Nat) (b : Bool) : (d.wrBit n f i b).clk = d.clk := rfl
@[simp] theorem Dev.yarn_wrBit (n : Nat) (f : Field) (i : Nat) (b : Bool) : (d.wrBit n f i b).yarn = d.yarn := rfl
@[simp] theorem Dev.stageAt_wrBit (n : Nat) (f : Field) (i : Nat) (b : Bool) : (d.wrBit n f i b).stageAt = d.stageAt := rfl
@[simp] theorem Dev.saf_wrBit (n : Nat) (f : Field) (i : Nat) (b : Bool) : (d.wrBit n f i b).saf = d.saf := rfl
@[simp] theorem Dev.lgl_wrBit (n : Nat) (f : Field) (i : Nat) (b : Bool) : (d.wrBit n f i b).lgl = d.lgl := rfl
@[simp] theorem Dev.sys_wrBit (n : Nat) (f : Field) (i : Nat) (b : Bool) : (d.wrBit n f i b).sys = d.sys := rfl
@[simp] theorem Dev.pwr_wrBit (n : Nat) (f : Field) (i : Nat) (b : Bool) : (d.wrBit n f i b).pwr = d.pwr := rfl
@[simp] theorem Dev.ply_wrBit (n : Nat) (f : Field) (i : Nat) (b : Bool) : (d.wrBit n f i b).ply = d.ply := rfl

@[simp] theorem Dev.now_inc (n : Nat) (f : Field) (k : Nat) : (d.inc n f k).now = d.now := rfl
@[simp] theorem Dev.freeCnt_inc (n : Nat) (f : Field) (k : Nat) : (d.inc n f k).freeCnt = d.freeCnt := rfl
@[simp] theorem Dev.sent_inc (n : Nat) (f : Field) (k : Nat) : (d.inc n f k).sent = d.sent := rfl
@[simp] theorem Dev.edram_inc (n : Nat) (f : Field) (k : Nat) : (d.inc n f k).edram = d.edram := rfl
@[simp] theorem Dev.host_inc (n : Nat) (f : Field) (k : Nat) : (d.inc n f k).host = d.host := rfl
@[simp] theorem Dev.frc_inc (n : Nat) (f : Field) (k : Nat) : (d.inc n f k).frc = d.frc := rfl
@[simp] theorem Dev.skn_inc (n : Nat) (f : Field) (k : Nat) : (d.inc n f k).skn = d.skn := rfl
@[simp] theorem Dev.ctm_inc (n : Nat) (f : Field) (k : Nat) : (d.inc n f k).ctm = d.ctm := rfl
@[simp] theorem Dev.ope_inc (n : Nat) (f : Field) (k : Nat) : (d.inc n f k).ope = d.ope := rfl
@[simp] theorem Dev.str_inc (n : Nat) (f : Field) (k : Nat) : (d.inc n f k).str = d.str := rfl
@[simp] theorem Dev.pt_inc (n : Nat) (f : Field) (k : Nat) : (d.inc n f k).pt = d.pt := rfl
@[simp] theorem Dev.ses_inc (n : Nat) (f : Field) (k : Nat) : (d.inc n f k).ses = d.ses := rfl
@[simp] theorem Dev.vcm_inc (n : Nat) (f : Field) (k : Nat) : (d.inc n f k).vcm = d.vcm := rfl
@[simp] theorem Dev.alc_inc (n : Nat) (f : Field) (k : Nat) : (d.inc n f k).alc = d.alc := rfl
@[simp] theorem Dev.thm_inc (n : Nat) (f : Field) (k : Nat) : (d.inc n f k).thm = d.thm := rfl
@[simp] theorem Dev.cbl_inc (n : Nat) (f : Field) (k : Nat) : (d.inc n f k).cbl = d.cbl := rfl
@[simp] theorem Dev.die_inc (n : Nat) (f : Field) (k : Nat) : (d.inc n f k).die = d.die := rfl
@[simp] theorem Dev.lsw_inc (n : Nat) (f : Field) (k : Nat) : (d.inc n f k).lsw = d.lsw := rfl
@[simp] theorem Dev.vaux_inc (n : Nat) (f : Field) (k : Nat) : (d.inc n f k).vaux = d.vaux := rfl
@[simp] theorem Dev.aux_inc (n : Nat) (f : Field) (k : Nat) : (d.inc n f k).aux = d.aux := rfl
@[simp] theorem Dev.key_inc (n : Nat) (f : Field) (k : Nat) : (d.inc n f k).key = d.key := rfl
@[simp] theorem Dev.clk_inc (n : Nat) (f : Field) (k : Nat) : (d.inc n f k).clk = d.clk := rfl
@[simp] theorem Dev.yarn_inc (n : Nat) (f : Field) (k : Nat) : (d.inc n f k).yarn = d.yarn := rfl
@[simp] theorem Dev.stageAt_inc (n : Nat) (f : Field) (k : Nat) : (d.inc n f k).stageAt = d.stageAt := rfl
@[simp] theorem Dev.saf_inc (n : Nat) (f : Field) (k : Nat) : (d.inc n f k).saf = d.saf := rfl
@[simp] theorem Dev.lgl_inc (n : Nat) (f : Field) (k : Nat) : (d.inc n f k).lgl = d.lgl := rfl
@[simp] theorem Dev.sys_inc (n : Nat) (f : Field) (k : Nat) : (d.inc n f k).sys = d.sys := rfl
@[simp] theorem Dev.pwr_inc (n : Nat) (f : Field) (k : Nat) : (d.inc n f k).pwr = d.pwr := rfl
@[simp] theorem Dev.ply_inc (n : Nat) (f : Field) (k : Nat) : (d.inc n f k).ply = d.ply := rfl

@[simp] theorem Dev.now_incSat (n : Nat) (f : Field) (k : Nat) : (d.incSat n f k).now = d.now := rfl
@[simp] theorem Dev.freeCnt_incSat (n : Nat) (f : Field) (k : Nat) : (d.incSat n f k).freeCnt = d.freeCnt := rfl
@[simp] theorem Dev.sent_incSat (n : Nat) (f : Field) (k : Nat) : (d.incSat n f k).sent = d.sent := rfl
@[simp] theorem Dev.edram_incSat (n : Nat) (f : Field) (k : Nat) : (d.incSat n f k).edram = d.edram := rfl
@[simp] theorem Dev.host_incSat (n : Nat) (f : Field) (k : Nat) : (d.incSat n f k).host = d.host := rfl
@[simp] theorem Dev.frc_incSat (n : Nat) (f : Field) (k : Nat) : (d.incSat n f k).frc = d.frc := rfl
@[simp] theorem Dev.skn_incSat (n : Nat) (f : Field) (k : Nat) : (d.incSat n f k).skn = d.skn := rfl
@[simp] theorem Dev.ctm_incSat (n : Nat) (f : Field) (k : Nat) : (d.incSat n f k).ctm = d.ctm := rfl
@[simp] theorem Dev.ope_incSat (n : Nat) (f : Field) (k : Nat) : (d.incSat n f k).ope = d.ope := rfl
@[simp] theorem Dev.str_incSat (n : Nat) (f : Field) (k : Nat) : (d.incSat n f k).str = d.str := rfl
@[simp] theorem Dev.pt_incSat (n : Nat) (f : Field) (k : Nat) : (d.incSat n f k).pt = d.pt := rfl
@[simp] theorem Dev.ses_incSat (n : Nat) (f : Field) (k : Nat) : (d.incSat n f k).ses = d.ses := rfl
@[simp] theorem Dev.vcm_incSat (n : Nat) (f : Field) (k : Nat) : (d.incSat n f k).vcm = d.vcm := rfl
@[simp] theorem Dev.alc_incSat (n : Nat) (f : Field) (k : Nat) : (d.incSat n f k).alc = d.alc := rfl
@[simp] theorem Dev.thm_incSat (n : Nat) (f : Field) (k : Nat) : (d.incSat n f k).thm = d.thm := rfl
@[simp] theorem Dev.cbl_incSat (n : Nat) (f : Field) (k : Nat) : (d.incSat n f k).cbl = d.cbl := rfl
@[simp] theorem Dev.die_incSat (n : Nat) (f : Field) (k : Nat) : (d.incSat n f k).die = d.die := rfl
@[simp] theorem Dev.lsw_incSat (n : Nat) (f : Field) (k : Nat) : (d.incSat n f k).lsw = d.lsw := rfl
@[simp] theorem Dev.vaux_incSat (n : Nat) (f : Field) (k : Nat) : (d.incSat n f k).vaux = d.vaux := rfl
@[simp] theorem Dev.aux_incSat (n : Nat) (f : Field) (k : Nat) : (d.incSat n f k).aux = d.aux := rfl
@[simp] theorem Dev.key_incSat (n : Nat) (f : Field) (k : Nat) : (d.incSat n f k).key = d.key := rfl
@[simp] theorem Dev.clk_incSat (n : Nat) (f : Field) (k : Nat) : (d.incSat n f k).clk = d.clk := rfl
@[simp] theorem Dev.yarn_incSat (n : Nat) (f : Field) (k : Nat) : (d.incSat n f k).yarn = d.yarn := rfl
@[simp] theorem Dev.stageAt_incSat (n : Nat) (f : Field) (k : Nat) : (d.incSat n f k).stageAt = d.stageAt := rfl
@[simp] theorem Dev.saf_incSat (n : Nat) (f : Field) (k : Nat) : (d.incSat n f k).saf = d.saf := rfl
@[simp] theorem Dev.lgl_incSat (n : Nat) (f : Field) (k : Nat) : (d.incSat n f k).lgl = d.lgl := rfl
@[simp] theorem Dev.sys_incSat (n : Nat) (f : Field) (k : Nat) : (d.incSat n f k).sys = d.sys := rfl
@[simp] theorem Dev.pwr_incSat (n : Nat) (f : Field) (k : Nat) : (d.incSat n f k).pwr = d.pwr := rfl
@[simp] theorem Dev.ply_incSat (n : Nat) (f : Field) (k : Nat) : (d.incSat n f k).ply = d.ply := rfl

@[simp] theorem Dev.now_wr64 (n : Nat) (f g : Field) (v : Nat) : (d.wr64 n f g v).now = d.now := rfl
@[simp] theorem Dev.freeCnt_wr64 (n : Nat) (f g : Field) (v : Nat) : (d.wr64 n f g v).freeCnt = d.freeCnt := rfl
@[simp] theorem Dev.sent_wr64 (n : Nat) (f g : Field) (v : Nat) : (d.wr64 n f g v).sent = d.sent := rfl
@[simp] theorem Dev.edram_wr64 (n : Nat) (f g : Field) (v : Nat) : (d.wr64 n f g v).edram = d.edram := rfl
@[simp] theorem Dev.host_wr64 (n : Nat) (f g : Field) (v : Nat) : (d.wr64 n f g v).host = d.host := rfl
@[simp] theorem Dev.frc_wr64 (n : Nat) (f g : Field) (v : Nat) : (d.wr64 n f g v).frc = d.frc := rfl
@[simp] theorem Dev.skn_wr64 (n : Nat) (f g : Field) (v : Nat) : (d.wr64 n f g v).skn = d.skn := rfl
@[simp] theorem Dev.ctm_wr64 (n : Nat) (f g : Field) (v : Nat) : (d.wr64 n f g v).ctm = d.ctm := rfl
@[simp] theorem Dev.ope_wr64 (n : Nat) (f g : Field) (v : Nat) : (d.wr64 n f g v).ope = d.ope := rfl
@[simp] theorem Dev.str_wr64 (n : Nat) (f g : Field) (v : Nat) : (d.wr64 n f g v).str = d.str := rfl
@[simp] theorem Dev.pt_wr64 (n : Nat) (f g : Field) (v : Nat) : (d.wr64 n f g v).pt = d.pt := rfl
@[simp] theorem Dev.ses_wr64 (n : Nat) (f g : Field) (v : Nat) : (d.wr64 n f g v).ses = d.ses := rfl
@[simp] theorem Dev.vcm_wr64 (n : Nat) (f g : Field) (v : Nat) : (d.wr64 n f g v).vcm = d.vcm := rfl
@[simp] theorem Dev.alc_wr64 (n : Nat) (f g : Field) (v : Nat) : (d.wr64 n f g v).alc = d.alc := rfl
@[simp] theorem Dev.thm_wr64 (n : Nat) (f g : Field) (v : Nat) : (d.wr64 n f g v).thm = d.thm := rfl
@[simp] theorem Dev.cbl_wr64 (n : Nat) (f g : Field) (v : Nat) : (d.wr64 n f g v).cbl = d.cbl := rfl
@[simp] theorem Dev.die_wr64 (n : Nat) (f g : Field) (v : Nat) : (d.wr64 n f g v).die = d.die := rfl
@[simp] theorem Dev.lsw_wr64 (n : Nat) (f g : Field) (v : Nat) : (d.wr64 n f g v).lsw = d.lsw := rfl
@[simp] theorem Dev.vaux_wr64 (n : Nat) (f g : Field) (v : Nat) : (d.wr64 n f g v).vaux = d.vaux := rfl
@[simp] theorem Dev.aux_wr64 (n : Nat) (f g : Field) (v : Nat) : (d.wr64 n f g v).aux = d.aux := rfl
@[simp] theorem Dev.key_wr64 (n : Nat) (f g : Field) (v : Nat) : (d.wr64 n f g v).key = d.key := rfl
@[simp] theorem Dev.clk_wr64 (n : Nat) (f g : Field) (v : Nat) : (d.wr64 n f g v).clk = d.clk := rfl
@[simp] theorem Dev.yarn_wr64 (n : Nat) (f g : Field) (v : Nat) : (d.wr64 n f g v).yarn = d.yarn := rfl
@[simp] theorem Dev.stageAt_wr64 (n : Nat) (f g : Field) (v : Nat) : (d.wr64 n f g v).stageAt = d.stageAt := rfl
@[simp] theorem Dev.saf_wr64 (n : Nat) (f g : Field) (v : Nat) : (d.wr64 n f g v).saf = d.saf := rfl
@[simp] theorem Dev.lgl_wr64 (n : Nat) (f g : Field) (v : Nat) : (d.wr64 n f g v).lgl = d.lgl := rfl
@[simp] theorem Dev.sys_wr64 (n : Nat) (f g : Field) (v : Nat) : (d.wr64 n f g v).sys = d.sys := rfl
@[simp] theorem Dev.pwr_wr64 (n : Nat) (f g : Field) (v : Nat) : (d.wr64 n f g v).pwr = d.pwr := rfl
@[simp] theorem Dev.ply_wr64 (n : Nat) (f g : Field) (v : Nat) : (d.wr64 n f g v).ply = d.ply := rfl

/-! ### Advancing the timebase -/

@[simp] theorem Dev.freeCnt_at (t : Nat) : (Dev.at t d).freeCnt = d.freeCnt := rfl
@[simp] theorem Dev.sent_at (t : Nat) : (Dev.at t d).sent = d.sent := rfl
@[simp] theorem Dev.edram_at (t : Nat) : (Dev.at t d).edram = d.edram := rfl
@[simp] theorem Dev.host_at (t : Nat) : (Dev.at t d).host = d.host := rfl
@[simp] theorem Dev.frc_at (t : Nat) : (Dev.at t d).frc = d.frc := rfl
@[simp] theorem Dev.skn_at (t : Nat) : (Dev.at t d).skn = d.skn := rfl
@[simp] theorem Dev.ctm_at (t : Nat) : (Dev.at t d).ctm = d.ctm := rfl
@[simp] theorem Dev.ope_at (t : Nat) : (Dev.at t d).ope = d.ope := rfl
@[simp] theorem Dev.str_at (t : Nat) : (Dev.at t d).str = d.str := rfl
@[simp] theorem Dev.pt_at (t : Nat) : (Dev.at t d).pt = d.pt := rfl
@[simp] theorem Dev.ses_at (t : Nat) : (Dev.at t d).ses = d.ses := rfl
@[simp] theorem Dev.vcm_at (t : Nat) : (Dev.at t d).vcm = d.vcm := rfl
@[simp] theorem Dev.alc_at (t : Nat) : (Dev.at t d).alc = d.alc := rfl
@[simp] theorem Dev.thm_at (t : Nat) : (Dev.at t d).thm = d.thm := rfl
@[simp] theorem Dev.cbl_at (t : Nat) : (Dev.at t d).cbl = d.cbl := rfl
@[simp] theorem Dev.die_at (t : Nat) : (Dev.at t d).die = d.die := rfl
@[simp] theorem Dev.lsw_at (t : Nat) : (Dev.at t d).lsw = d.lsw := rfl
@[simp] theorem Dev.vaux_at (t : Nat) : (Dev.at t d).vaux = d.vaux := rfl
@[simp] theorem Dev.aux_at (t : Nat) : (Dev.at t d).aux = d.aux := rfl
@[simp] theorem Dev.key_at (t : Nat) : (Dev.at t d).key = d.key := rfl
@[simp] theorem Dev.clk_at (t : Nat) : (Dev.at t d).clk = d.clk := rfl
@[simp] theorem Dev.yarn_at (t : Nat) : (Dev.at t d).yarn = d.yarn := rfl
@[simp] theorem Dev.stageAt_at (t : Nat) : (Dev.at t d).stageAt = d.stageAt := rfl
@[simp] theorem Dev.saf_at (t : Nat) : (Dev.at t d).saf = d.saf := rfl
@[simp] theorem Dev.lgl_at (t : Nat) : (Dev.at t d).lgl = d.lgl := rfl
@[simp] theorem Dev.sys_at (t : Nat) : (Dev.at t d).sys = d.sys := rfl
@[simp] theorem Dev.pwr_at (t : Nat) : (Dev.at t d).pwr = d.pwr := rfl
@[simp] theorem Dev.ply_at (t : Nat) : (Dev.at t d).ply = d.ply := rfl
@[simp] theorem Dev.regs_at (t : Nat) : (Dev.at t d).regs = d.regs := rfl
@[simp] theorem Dev.now_at (t : Nat) : (Dev.at t d).now = max d.now t := rfl
@[simp] theorem Dev.rd_at (t m : Nat) (g : Field) : (Dev.at t d).rd m g = d.rd m g := rfl

/-! ### Updates of records leave the registers alone, and a record reads as replaced -/

@[simp] theorem Dev.rd_modAux (n m : Nat) (f : AuxLoop → AuxLoop) (g : Field) : (d.modAux n f).rd m g = d.rd m g := rfl
@[simp] theorem Dev.regs_modAux (n : Nat) (f : AuxLoop → AuxLoop) : (d.modAux n f).regs = d.regs := rfl
theorem Dev.auxRec_modAux_same (n : Nat) (f : AuxLoop → AuxLoop) : (d.modAux n f).auxRec n = f (d.auxRec n) :=
  AMap.get_set_same _ _ _ _
theorem Dev.auxRec_modAux_ne {n m : Nat} (f : AuxLoop → AuxLoop) (h : m ≠ n) : (d.modAux n f).auxRec m = d.auxRec m :=
  AMap.get_set_ne _ _ _ h
@[simp] theorem Dev.now_modAux (n : Nat) (f : AuxLoop → AuxLoop) : (d.modAux n f).now = d.now := rfl
@[simp] theorem Dev.freeCnt_modAux (n : Nat) (f : AuxLoop → AuxLoop) : (d.modAux n f).freeCnt = d.freeCnt := rfl
@[simp] theorem Dev.sent_modAux (n : Nat) (f : AuxLoop → AuxLoop) : (d.modAux n f).sent = d.sent := rfl
@[simp] theorem Dev.edram_modAux (n : Nat) (f : AuxLoop → AuxLoop) : (d.modAux n f).edram = d.edram := rfl
@[simp] theorem Dev.host_modAux (n : Nat) (f : AuxLoop → AuxLoop) : (d.modAux n f).host = d.host := rfl
@[simp] theorem Dev.frc_modAux (n : Nat) (f : AuxLoop → AuxLoop) : (d.modAux n f).frc = d.frc := rfl
@[simp] theorem Dev.skn_modAux (n : Nat) (f : AuxLoop → AuxLoop) : (d.modAux n f).skn = d.skn := rfl
@[simp] theorem Dev.ctm_modAux (n : Nat) (f : AuxLoop → AuxLoop) : (d.modAux n f).ctm = d.ctm := rfl
@[simp] theorem Dev.ope_modAux (n : Nat) (f : AuxLoop → AuxLoop) : (d.modAux n f).ope = d.ope := rfl
@[simp] theorem Dev.str_modAux (n : Nat) (f : AuxLoop → AuxLoop) : (d.modAux n f).str = d.str := rfl
@[simp] theorem Dev.pt_modAux (n : Nat) (f : AuxLoop → AuxLoop) : (d.modAux n f).pt = d.pt := rfl
@[simp] theorem Dev.ses_modAux (n : Nat) (f : AuxLoop → AuxLoop) : (d.modAux n f).ses = d.ses := rfl
@[simp] theorem Dev.vcm_modAux (n : Nat) (f : AuxLoop → AuxLoop) : (d.modAux n f).vcm = d.vcm := rfl
@[simp] theorem Dev.alc_modAux (n : Nat) (f : AuxLoop → AuxLoop) : (d.modAux n f).alc = d.alc := rfl
@[simp] theorem Dev.thm_modAux (n : Nat) (f : AuxLoop → AuxLoop) : (d.modAux n f).thm = d.thm := rfl
@[simp] theorem Dev.cbl_modAux (n : Nat) (f : AuxLoop → AuxLoop) : (d.modAux n f).cbl = d.cbl := rfl
@[simp] theorem Dev.die_modAux (n : Nat) (f : AuxLoop → AuxLoop) : (d.modAux n f).die = d.die := rfl
@[simp] theorem Dev.lsw_modAux (n : Nat) (f : AuxLoop → AuxLoop) : (d.modAux n f).lsw = d.lsw := rfl
@[simp] theorem Dev.vaux_modAux (n : Nat) (f : AuxLoop → AuxLoop) : (d.modAux n f).vaux = d.vaux := rfl
@[simp] theorem Dev.key_modAux (n : Nat) (f : AuxLoop → AuxLoop) : (d.modAux n f).key = d.key := rfl
@[simp] theorem Dev.clk_modAux (n : Nat) (f : AuxLoop → AuxLoop) : (d.modAux n f).clk = d.clk := rfl
@[simp] theorem Dev.yarn_modAux (n : Nat) (f : AuxLoop → AuxLoop) : (d.modAux n f).yarn = d.yarn := rfl
@[simp] theorem Dev.stageAt_modAux (n : Nat) (f : AuxLoop → AuxLoop) : (d.modAux n f).stageAt = d.stageAt := rfl
@[simp] theorem Dev.saf_modAux (n : Nat) (f : AuxLoop → AuxLoop) : (d.modAux n f).saf = d.saf := rfl
@[simp] theorem Dev.lgl_modAux (n : Nat) (f : AuxLoop → AuxLoop) : (d.modAux n f).lgl = d.lgl := rfl
@[simp] theorem Dev.sys_modAux (n : Nat) (f : AuxLoop → AuxLoop) : (d.modAux n f).sys = d.sys := rfl
@[simp] theorem Dev.pwr_modAux (n : Nat) (f : AuxLoop → AuxLoop) : (d.modAux n f).pwr = d.pwr := rfl
@[simp] theorem Dev.ply_modAux (n : Nat) (f : AuxLoop → AuxLoop) : (d.modAux n f).ply = d.ply := rfl
@[simp] theorem Dev.auxRec_setWord (i : Nat) (t : Tag) (n off : Nat) (w : Word) : (d.setWord t n off w).auxRec i = d.auxRec i := rfl
@[simp] theorem Dev.auxRec_wr (i : Nat) (n : Nat) (f : Field) (v : Nat) : (d.wr n f v).auxRec i = d.auxRec i := rfl
@[simp] theorem Dev.auxRec_wrB (i : Nat) (n : Nat) (f : Field) (b : Bool) : (d.wrB n f b).auxRec i = d.auxRec i := rfl

@[simp] theorem Dev.rd_modThm (n m : Nat) (f : Thm → Thm) (g : Field) : (d.modThm n f).rd m g = d.rd m g := rfl
@[simp] theorem Dev.regs_modThm (n : Nat) (f : Thm → Thm) : (d.modThm n f).regs = d.regs := rfl
theorem Dev.thmRec_modThm_same (n : Nat) (f : Thm → Thm) : (d.modThm n f).thmRec n = f (d.thmRec n) :=
  AMap.get_set_same _ _ _ _
theorem Dev.thmRec_modThm_ne {n m : Nat} (f : Thm → Thm) (h : m ≠ n) : (d.modThm n f).thmRec m = d.thmRec m :=
  AMap.get_set_ne _ _ _ h
@[simp] theorem Dev.now_modThm (n : Nat) (f : Thm → Thm) : (d.modThm n f).now = d.now := rfl
@[simp] theorem Dev.freeCnt_modThm (n : Nat) (f : Thm → Thm) : (d.modThm n f).freeCnt = d.freeCnt := rfl
@[simp] theorem Dev.sent_modThm (n : Nat) (f : Thm → Thm) : (d.modThm n f).sent = d.sent := rfl
@[simp] theorem Dev.edram_modThm (n : Nat) (f : Thm → Thm) : (d.modThm n f).edram = d.edram := rfl
@[simp] theorem Dev.host_modThm (n : Nat) (f : Thm → Thm) : (d.modThm n f).host = d.host := rfl
@[simp] theorem Dev.frc_modThm (n : Nat) (f : Thm → Thm) : (d.modThm n f).frc = d.frc := rfl
@[simp] theorem Dev.skn_modThm (n : Nat) (f : Thm → Thm) : (d.modThm n f).skn = d.skn := rfl
@[simp] theorem Dev.ctm_modThm (n : Nat) (f : Thm → Thm) : (d.modThm n f).ctm = d.ctm := rfl
@[simp] theorem Dev.ope_modThm (n : Nat) (f : Thm → Thm) : (d.modThm n f).ope = d.ope := rfl
@[simp] theorem Dev.str_modThm (n : Nat) (f : Thm → Thm) : (d.modThm n f).str = d.str := rfl
@[simp] theorem Dev.pt_modThm (n : Nat) (f : Thm → Thm) : (d.modThm n f).pt = d.pt := rfl
@[simp] theorem Dev.ses_modThm (n : Nat) (f : Thm → Thm) : (d.modThm n f).ses = d.ses := rfl
@[simp] theorem Dev.vcm_modThm (n : Nat) (f : Thm → Thm) : (d.modThm n f).vcm = d.vcm := rfl
@[simp] theorem Dev.alc_modThm (n : Nat) (f : Thm → Thm) : (d.modThm n f).alc = d.alc := rfl
@[simp] theorem Dev.cbl_modThm (n : Nat) (f : Thm → Thm) : (d.modThm n f).cbl = d.cbl := rfl
@[simp] theorem Dev.die_modThm (n : Nat) (f : Thm → Thm) : (d.modThm n f).die = d.die := rfl
@[simp] theorem Dev.lsw_modThm (n : Nat) (f : Thm → Thm) : (d.modThm n f).lsw = d.lsw := rfl
@[simp] theorem Dev.vaux_modThm (n : Nat) (f : Thm → Thm) : (d.modThm n f).vaux = d.vaux := rfl
@[simp] theorem Dev.aux_modThm (n : Nat) (f : Thm → Thm) : (d.modThm n f).aux = d.aux := rfl
@[simp] theorem Dev.key_modThm (n : Nat) (f : Thm → Thm) : (d.modThm n f).key = d.key := rfl
@[simp] theorem Dev.clk_modThm (n : Nat) (f : Thm → Thm) : (d.modThm n f).clk = d.clk := rfl
@[simp] theorem Dev.yarn_modThm (n : Nat) (f : Thm → Thm) : (d.modThm n f).yarn = d.yarn := rfl
@[simp] theorem Dev.stageAt_modThm (n : Nat) (f : Thm → Thm) : (d.modThm n f).stageAt = d.stageAt := rfl
@[simp] theorem Dev.saf_modThm (n : Nat) (f : Thm → Thm) : (d.modThm n f).saf = d.saf := rfl
@[simp] theorem Dev.lgl_modThm (n : Nat) (f : Thm → Thm) : (d.modThm n f).lgl = d.lgl := rfl
@[simp] theorem Dev.sys_modThm (n : Nat) (f : Thm → Thm) : (d.modThm n f).sys = d.sys := rfl
@[simp] theorem Dev.pwr_modThm (n : Nat) (f : Thm → Thm) : (d.modThm n f).pwr = d.pwr := rfl
@[simp] theorem Dev.ply_modThm (n : Nat) (f : Thm → Thm) : (d.modThm n f).ply = d.ply := rfl
@[simp] theorem Dev.thmRec_setWord (i : Nat) (t : Tag) (n off : Nat) (w : Word) : (d.setWord t n off w).thmRec i = d.thmRec i := rfl
@[simp] theorem Dev.thmRec_wr (i : Nat) (n : Nat) (f : Field) (v : Nat) : (d.wr n f v).thmRec i = d.thmRec i := rfl
@[simp] theorem Dev.thmRec_wrB (i : Nat) (n : Nat) (f : Field) (b : Bool) : (d.wrB n f b).thmRec i = d.thmRec i := rfl

@[simp] theorem Dev.rd_modCbl (n m : Nat) (f : Cbl → Cbl) (g : Field) : (d.modCbl n f).rd m g = d.rd m g := rfl
@[simp] theorem Dev.regs_modCbl (n : Nat) (f : Cbl → Cbl) : (d.modCbl n f).regs = d.regs := rfl
theorem Dev.cblRec_modCbl_same (n : Nat) (f : Cbl → Cbl) : (d.modCbl n f).cblRec n = f (d.cblRec n) :=
  AMap.get_set_same _ _ _ _
theorem Dev.cblRec_modCbl_ne {n m : Nat} (f : Cbl → Cbl) (h : m ≠ n) : (d.modCbl n f).cblRec m = d.cblRec m :=
  AMap.get_set_ne _ _ _ h
@[simp] theorem Dev.now_modCbl (n : Nat) (f : Cbl → Cbl) : (d.modCbl n f).now = d.now := rfl
@[simp] theorem Dev.freeCnt_modCbl (n : Nat) (f : Cbl → Cbl) : (d.modCbl n f).freeCnt = d.freeCnt := rfl
@[simp] theorem Dev.sent_modCbl (n : Nat) (f : Cbl → Cbl) : (d.modCbl n f).sent = d.sent := rfl
@[simp] theorem Dev.edram_modCbl (n : Nat) (f : Cbl → Cbl) : (d.modCbl n f).edram = d.edram := rfl
@[simp] theorem Dev.host_modCbl (n : Nat) (f : Cbl → Cbl) : (d.modCbl n f).host = d.host := rfl
@[simp] theorem Dev.frc_modCbl (n : Nat) (f : Cbl → Cbl) : (d.modCbl n f).frc = d.frc := rfl
@[simp] theorem Dev.skn_modCbl (n : Nat) (f : Cbl → Cbl) : (d.modCbl n f).skn = d.skn := rfl
@[simp] theorem Dev.ctm_modCbl (n : Nat) (f : Cbl → Cbl) : (d.modCbl n f).ctm = d.ctm := rfl
@[simp] theorem Dev.ope_modCbl (n : Nat) (f : Cbl → Cbl) : (d.modCbl n f).ope = d.ope := rfl
@[simp] theorem Dev.str_modCbl (n : Nat) (f : Cbl → Cbl) : (d.modCbl n f).str = d.str := rfl
@[simp] theorem Dev.pt_modCbl (n : Nat) (f : Cbl → Cbl) : (d.modCbl n f).pt = d.pt := rfl
@[simp] theorem Dev.ses_modCbl (n : Nat) (f : Cbl → Cbl) : (d.modCbl n f).ses = d.ses := rfl
@[simp] theorem Dev.vcm_modCbl (n : Nat) (f : Cbl → Cbl) : (d.modCbl n f).vcm = d.vcm := rfl
@[simp] theorem Dev.alc_modCbl (n : Nat) (f : Cbl → Cbl) : (d.modCbl n f).alc = d.alc := rfl
@[simp] theorem Dev.thm_modCbl (n : Nat) (f : Cbl → Cbl) : (d.modCbl n f).thm = d.thm := rfl
@[simp] theorem Dev.die_modCbl (n : Nat) (f : Cbl → Cbl) : (d.modCbl n f).die = d.die := rfl
@[simp] theorem Dev.lsw_modCbl (n : Nat) (f : Cbl → Cbl) : (d.modCbl n f).lsw = d.lsw := rfl
@[simp] theorem Dev.vaux_modCbl (n : Nat) (f : Cbl → Cbl) : (d.modCbl n f).vaux = d.vaux := rfl
@[simp] theorem Dev.aux_modCbl (n : Nat) (f : Cbl → Cbl) : (d.modCbl n f).aux = d.aux := rfl
@[simp] theorem Dev.key_modCbl (n : Nat) (f : Cbl → Cbl) : (d.modCbl n f).key = d.key := rfl
@[simp] theorem Dev.clk_modCbl (n : Nat) (f : Cbl → Cbl) : (d.modCbl n f).clk = d.clk := rfl
@[simp] theorem Dev.yarn_modCbl (n : Nat) (f : Cbl → Cbl) : (d.modCbl n f).yarn = d.yarn := rfl
@[simp] theorem Dev.stageAt_modCbl (n : Nat) (f : Cbl → Cbl) : (d.modCbl n f).stageAt = d.stageAt := rfl
@[simp] theorem Dev.saf_modCbl (n : Nat) (f : Cbl → Cbl) : (d.modCbl n f).saf = d.saf := rfl
@[simp] theorem Dev.lgl_modCbl (n : Nat) (f : Cbl → Cbl) : (d.modCbl n f).lgl = d.lgl := rfl
@[simp] theorem Dev.sys_modCbl (n : Nat) (f : Cbl → Cbl) : (d.modCbl n f).sys = d.sys := rfl
@[simp] theorem Dev.pwr_modCbl (n : Nat) (f : Cbl → Cbl) : (d.modCbl n f).pwr = d.pwr := rfl
@[simp] theorem Dev.ply_modCbl (n : Nat) (f : Cbl → Cbl) : (d.modCbl n f).ply = d.ply := rfl
@[simp] theorem Dev.cblRec_setWord (i : Nat) (t : Tag) (n off : Nat) (w : Word) : (d.setWord t n off w).cblRec i = d.cblRec i := rfl
@[simp] theorem Dev.cblRec_wr (i : Nat) (n : Nat) (f : Field) (v : Nat) : (d.wr n f v).cblRec i = d.cblRec i := rfl
@[simp] theorem Dev.cblRec_wrB (i : Nat) (n : Nat) (f : Field) (b : Bool) : (d.wrB n f b).cblRec i = d.cblRec i := rfl

@[simp] theorem Dev.rd_modLsw (n m : Nat) (f : Lsw → Lsw) (g : Field) : (d.modLsw n f).rd m g = d.rd m g := rfl
@[simp] theorem Dev.regs_modLsw (n : Nat) (f : Lsw → Lsw) : (d.modLsw n f).regs = d.regs := rfl
theorem Dev.lswRec_modLsw_same (n : Nat) (f : Lsw → Lsw) : (d.modLsw n f).lswRec n = f (d.lswRec n) :=
  AMap.get_set_same _ _ _ _
theorem Dev.lswRec_modLsw_ne {n m : Nat} (f : Lsw → Lsw) (h : m ≠ n) : (d.modLsw n f).lswRec m = d.lswRec m :=
  AMap.get_set_ne _ _ _ h
@[simp] theorem Dev.now_modLsw (n : Nat) (f : Lsw → Lsw) : (d.modLsw n f).now = d.now := rfl
@[simp] theorem Dev.freeCnt_modLsw (n : Nat) (f : Lsw → Lsw) : (d.modLsw n f).freeCnt = d.freeCnt := rfl
@[simp] theorem Dev.sent_modLsw (n : Nat) (f : Lsw → Lsw) : (d.modLsw n f).sent = d.sent := rfl
@[simp] theorem Dev.edram_modLsw (n : Nat) (f : Lsw → Lsw) : (d.modLsw n f).edram = d.edram := rfl
@[simp] theorem Dev.host_modLsw (n : Nat) (f : Lsw → Lsw) : (d.modLsw n f).host = d.host := rfl
@[simp] theorem Dev.frc_modLsw (n : Nat) (f : Lsw → Lsw) : (d.modLsw n f).frc = d.frc := rfl
@[simp] theorem Dev.skn_modLsw (n : Nat) (f : Lsw → Lsw) : (d.modLsw n f).skn = d.skn := rfl
@[simp] theorem Dev.ctm_modLsw (n : Nat) (f : Lsw → Lsw) : (d.modLsw n f).ctm = d.ctm := rfl
@[simp] theorem Dev.ope_modLsw (n : Nat) (f : Lsw → Lsw) : (d.modLsw n f).ope = d.ope := rfl
@[simp] theorem Dev.str_modLsw (n : Nat) (f : Lsw → Lsw) : (d.modLsw n f).str = d.str := rfl
@[simp] theorem Dev.pt_modLsw (n : Nat) (f : Lsw → Lsw) : (d.modLsw n f).pt = d.pt := rfl
@[simp] theorem Dev.ses_modLsw (n : Nat) (f : Lsw → Lsw) : (d.modLsw n f).ses = d.ses := rfl
@[simp] theorem Dev.vcm_modLsw (n : Nat) (f : Lsw → Lsw) : (d.modLsw n f).vcm = d.vcm := rfl
@[simp] theorem Dev.alc_modLsw (n : Nat) (f : Lsw → Lsw) : (d.modLsw n f).alc = d.alc := rfl
@[simp] theorem Dev.thm_modLsw (n : Nat) (f : Lsw → Lsw) : (d.modLsw n f).thm = d.thm := rfl
@[simp] theorem Dev.cbl_modLsw (n : Nat) (f : Lsw → Lsw) : (d.modLsw n f).cbl = d.cbl := rfl
@[simp] theorem Dev.die_modLsw (n : Nat) (f : Lsw → Lsw) : (d.modLsw n f).die = d.die := rfl
@[simp] theorem Dev.vaux_modLsw (n : Nat) (f : Lsw → Lsw) : (d.modLsw n f).vaux = d.vaux := rfl
@[simp] theorem Dev.aux_modLsw (n : Nat) (f : Lsw → Lsw) : (d.modLsw n f).aux = d.aux := rfl
@[simp] theorem Dev.key_modLsw (n : Nat) (f : Lsw → Lsw) : (d.modLsw n f).key = d.key := rfl
@[simp] theorem Dev.clk_modLsw (n : Nat) (f : Lsw → Lsw) : (d.modLsw n f).clk = d.clk := rfl
@[simp] theorem Dev.yarn_modLsw (n : Nat) (f : Lsw → Lsw) : (d.modLsw n f).yarn = d.yarn := rfl
@[simp] theorem Dev.stageAt_modLsw (n : Nat) (f : Lsw → Lsw) : (d.modLsw n f).stageAt = d.stageAt := rfl
@[simp] theorem Dev.saf_modLsw (n : Nat) (f : Lsw → Lsw) : (d.modLsw n f).saf = d.saf := rfl
@[simp] theorem Dev.lgl_modLsw (n : Nat) (f : Lsw → Lsw) : (d.modLsw n f).lgl = d.lgl := rfl
@[simp] theorem Dev.sys_modLsw (n : Nat) (f : Lsw → Lsw) : (d.modLsw n f).sys = d.sys := rfl
@[simp] theorem Dev.pwr_modLsw (n : Nat) (f : Lsw → Lsw) : (d.modLsw n f).pwr = d.pwr := rfl
@[simp] theorem Dev.ply_modLsw (n : Nat) (f : Lsw → Lsw) : (d.modLsw n f).ply = d.ply := rfl
@[simp] theorem Dev.lswRec_setWord (i : Nat) (t : Tag) (n off : Nat) (w : Word) : (d.setWord t n off w).lswRec i = d.lswRec i := rfl
@[simp] theorem Dev.lswRec_wr (i : Nat) (n : Nat) (f : Field) (v : Nat) : (d.wr n f v).lswRec i = d.lswRec i := rfl
@[simp] theorem Dev.lswRec_wrB (i : Nat) (n : Nat) (f : Field) (b : Bool) : (d.wrB n f b).lswRec i = d.lswRec i := rfl

@[simp] theorem Dev.rd_modStrand (n m : Nat) (f : Strand → Strand) (g : Field) : (d.modStrand n f).rd m g = d.rd m g := rfl
@[simp] theorem Dev.regs_modStrand (n : Nat) (f : Strand → Strand) : (d.modStrand n f).regs = d.regs := rfl
theorem Dev.strand_modStrand_same (n : Nat) (f : Strand → Strand) : (d.modStrand n f).strand n = f (d.strand n) :=
  AMap.get_set_same _ _ _ _
theorem Dev.strand_modStrand_ne {n m : Nat} (f : Strand → Strand) (h : m ≠ n) : (d.modStrand n f).strand m = d.strand m :=
  AMap.get_set_ne _ _ _ h
@[simp] theorem Dev.now_modStrand (n : Nat) (f : Strand → Strand) : (d.modStrand n f).now = d.now := rfl
@[simp] theorem Dev.freeCnt_modStrand (n : Nat) (f : Strand → Strand) : (d.modStrand n f).freeCnt = d.freeCnt := rfl
@[simp] theorem Dev.sent_modStrand (n : Nat) (f : Strand → Strand) : (d.modStrand n f).sent = d.sent := rfl
@[simp] theorem Dev.edram_modStrand (n : Nat) (f : Strand → Strand) : (d.modStrand n f).edram = d.edram := rfl
@[simp] theorem Dev.host_modStrand (n : Nat) (f : Strand → Strand) : (d.modStrand n f).host = d.host := rfl
@[simp] theorem Dev.frc_modStrand (n : Nat) (f : Strand → Strand) : (d.modStrand n f).frc = d.frc := rfl
@[simp] theorem Dev.skn_modStrand (n : Nat) (f : Strand → Strand) : (d.modStrand n f).skn = d.skn := rfl
@[simp] theorem Dev.ctm_modStrand (n : Nat) (f : Strand → Strand) : (d.modStrand n f).ctm = d.ctm := rfl
@[simp] theorem Dev.ope_modStrand (n : Nat) (f : Strand → Strand) : (d.modStrand n f).ope = d.ope := rfl
@[simp] theorem Dev.pt_modStrand (n : Nat) (f : Strand → Strand) : (d.modStrand n f).pt = d.pt := rfl
@[simp] theorem Dev.ses_modStrand (n : Nat) (f : Strand → Strand) : (d.modStrand n f).ses = d.ses := rfl
@[simp] theorem Dev.vcm_modStrand (n : Nat) (f : Strand → Strand) : (d.modStrand n f).vcm = d.vcm := rfl
@[simp] theorem Dev.alc_modStrand (n : Nat) (f : Strand → Strand) : (d.modStrand n f).alc = d.alc := rfl
@[simp] theorem Dev.thm_modStrand (n : Nat) (f : Strand → Strand) : (d.modStrand n f).thm = d.thm := rfl
@[simp] theorem Dev.cbl_modStrand (n : Nat) (f : Strand → Strand) : (d.modStrand n f).cbl = d.cbl := rfl
@[simp] theorem Dev.die_modStrand (n : Nat) (f : Strand → Strand) : (d.modStrand n f).die = d.die := rfl
@[simp] theorem Dev.lsw_modStrand (n : Nat) (f : Strand → Strand) : (d.modStrand n f).lsw = d.lsw := rfl
@[simp] theorem Dev.vaux_modStrand (n : Nat) (f : Strand → Strand) : (d.modStrand n f).vaux = d.vaux := rfl
@[simp] theorem Dev.aux_modStrand (n : Nat) (f : Strand → Strand) : (d.modStrand n f).aux = d.aux := rfl
@[simp] theorem Dev.key_modStrand (n : Nat) (f : Strand → Strand) : (d.modStrand n f).key = d.key := rfl
@[simp] theorem Dev.clk_modStrand (n : Nat) (f : Strand → Strand) : (d.modStrand n f).clk = d.clk := rfl
@[simp] theorem Dev.yarn_modStrand (n : Nat) (f : Strand → Strand) : (d.modStrand n f).yarn = d.yarn := rfl
@[simp] theorem Dev.stageAt_modStrand (n : Nat) (f : Strand → Strand) : (d.modStrand n f).stageAt = d.stageAt := rfl
@[simp] theorem Dev.saf_modStrand (n : Nat) (f : Strand → Strand) : (d.modStrand n f).saf = d.saf := rfl
@[simp] theorem Dev.lgl_modStrand (n : Nat) (f : Strand → Strand) : (d.modStrand n f).lgl = d.lgl := rfl
@[simp] theorem Dev.sys_modStrand (n : Nat) (f : Strand → Strand) : (d.modStrand n f).sys = d.sys := rfl
@[simp] theorem Dev.pwr_modStrand (n : Nat) (f : Strand → Strand) : (d.modStrand n f).pwr = d.pwr := rfl
@[simp] theorem Dev.ply_modStrand (n : Nat) (f : Strand → Strand) : (d.modStrand n f).ply = d.ply := rfl
@[simp] theorem Dev.strand_setWord (i : Nat) (t : Tag) (n off : Nat) (w : Word) : (d.setWord t n off w).strand i = d.strand i := rfl
@[simp] theorem Dev.strand_wr (i : Nat) (n : Nat) (f : Field) (v : Nat) : (d.wr n f v).strand i = d.strand i := rfl
@[simp] theorem Dev.strand_wrB (i : Nat) (n : Nat) (f : Field) (b : Bool) : (d.wrB n f b).strand i = d.strand i := rfl

@[simp] theorem Dev.rd_modPoint (n m : Nat) (f : Point → Point) (g : Field) : (d.modPoint n f).rd m g = d.rd m g := rfl
@[simp] theorem Dev.regs_modPoint (n : Nat) (f : Point → Point) : (d.modPoint n f).regs = d.regs := rfl
theorem Dev.point_modPoint_same (n : Nat) (f : Point → Point) : (d.modPoint n f).point n = f (d.point n) :=
  AMap.get_set_same _ _ _ _
theorem Dev.point_modPoint_ne {n m : Nat} (f : Point → Point) (h : m ≠ n) : (d.modPoint n f).point m = d.point m :=
  AMap.get_set_ne _ _ _ h
@[simp] theorem Dev.now_modPoint (n : Nat) (f : Point → Point) : (d.modPoint n f).now = d.now := rfl
@[simp] theorem Dev.freeCnt_modPoint (n : Nat) (f : Point → Point) : (d.modPoint n f).freeCnt = d.freeCnt := rfl
@[simp] theorem Dev.sent_modPoint (n : Nat) (f : Point → Point) : (d.modPoint n f).sent = d.sent := rfl
@[simp] theorem Dev.edram_modPoint (n : Nat) (f : Point → Point) : (d.modPoint n f).edram = d.edram := rfl
@[simp] theorem Dev.host_modPoint (n : Nat) (f : Point → Point) : (d.modPoint n f).host = d.host := rfl
@[simp] theorem Dev.frc_modPoint (n : Nat) (f : Point → Point) : (d.modPoint n f).frc = d.frc := rfl
@[simp] theorem Dev.skn_modPoint (n : Nat) (f : Point → Point) : (d.modPoint n f).skn = d.skn := rfl
@[simp] theorem Dev.ctm_modPoint (n : Nat) (f : Point → Point) : (d.modPoint n f).ctm = d.ctm := rfl
@[simp] theorem Dev.ope_modPoint (n : Nat) (f : Point → Point) : (d.modPoint n f).ope = d.ope := rfl
@[simp] theorem Dev.str_modPoint (n : Nat) (f : Point → Point) : (d.modPoint n f).str = d.str := rfl
@[simp] theorem Dev.ses_modPoint (n : Nat) (f : Point → Point) : (d.modPoint n f).ses = d.ses := rfl
@[simp] theorem Dev.vcm_modPoint (n : Nat) (f : Point → Point) : (d.modPoint n f).vcm = d.vcm := rfl
@[simp] theorem Dev.alc_modPoint (n : Nat) (f : Point → Point) : (d.modPoint n f).alc = d.alc := rfl
@[simp] theorem Dev.thm_modPoint (n : Nat) (f : Point → Point) : (d.modPoint n f).thm = d.thm := rfl
@[simp] theorem Dev.cbl_modPoint (n : Nat) (f : Point → Point) : (d.modPoint n f).cbl = d.cbl := rfl
@[simp] theorem Dev.die_modPoint (n : Nat) (f : Point → Point) : (d.modPoint n f).die = d.die := rfl
@[simp] theorem Dev.lsw_modPoint (n : Nat) (f : Point → Point) : (d.modPoint n f).lsw = d.lsw := rfl
@[simp] theorem Dev.vaux_modPoint (n : Nat) (f : Point → Point) : (d.modPoint n f).vaux = d.vaux := rfl
@[simp] theorem Dev.aux_modPoint (n : Nat) (f : Point → Point) : (d.modPoint n f).aux = d.aux := rfl
@[simp] theorem Dev.key_modPoint (n : Nat) (f : Point → Point) : (d.modPoint n f).key = d.key := rfl
@[simp] theorem Dev.clk_modPoint (n : Nat) (f : Point → Point) : (d.modPoint n f).clk = d.clk := rfl
@[simp] theorem Dev.yarn_modPoint (n : Nat) (f : Point → Point) : (d.modPoint n f).yarn = d.yarn := rfl
@[simp] theorem Dev.stageAt_modPoint (n : Nat) (f : Point → Point) : (d.modPoint n f).stageAt = d.stageAt := rfl
@[simp] theorem Dev.saf_modPoint (n : Nat) (f : Point → Point) : (d.modPoint n f).saf = d.saf := rfl
@[simp] theorem Dev.lgl_modPoint (n : Nat) (f : Point → Point) : (d.modPoint n f).lgl = d.lgl := rfl
@[simp] theorem Dev.sys_modPoint (n : Nat) (f : Point → Point) : (d.modPoint n f).sys = d.sys := rfl
@[simp] theorem Dev.pwr_modPoint (n : Nat) (f : Point → Point) : (d.modPoint n f).pwr = d.pwr := rfl
@[simp] theorem Dev.ply_modPoint (n : Nat) (f : Point → Point) : (d.modPoint n f).ply = d.ply := rfl
@[simp] theorem Dev.point_setWord (i : Nat) (t : Tag) (n off : Nat) (w : Word) : (d.setWord t n off w).point i = d.point i := rfl
@[simp] theorem Dev.point_wr (i : Nat) (n : Nat) (f : Field) (v : Nat) : (d.wr n f v).point i = d.point i := rfl
@[simp] theorem Dev.point_wrB (i : Nat) (n : Nat) (f : Field) (b : Bool) : (d.wrB n f b).point i = d.point i := rfl

@[simp] theorem Dev.rd_modSes (n m : Nat) (f : Ses → Ses) (g : Field) : (d.modSes n f).rd m g = d.rd m g := rfl
@[simp] theorem Dev.regs_modSes (n : Nat) (f : Ses → Ses) : (d.modSes n f).regs = d.regs := rfl
theorem Dev.sesRec_modSes_same (n : Nat) (f : Ses → Ses) : (d.modSes n f).sesRec n = f (d.sesRec n) :=
  AMap.get_set_same _ _ _ _
theorem Dev.sesRec_modSes_ne {n m : Nat} (f : Ses → Ses) (h : m ≠ n) : (d.modSes n f).sesRec m = d.sesRec m :=
  AMap.get_set_ne _ _ _ h
@[simp] theorem Dev.now_modSes (n : Nat) (f : Ses → Ses) : (d.modSes n f).now = d.now := rfl
@[simp] theorem Dev.freeCnt_modSes (n : Nat) (f : Ses → Ses) : (d.modSes n f).freeCnt = d.freeCnt := rfl
@[simp] theorem Dev.sent_modSes (n : Nat) (f : Ses → Ses) : (d.modSes n f).sent = d.sent := rfl
@[simp] theorem Dev.edram_modSes (n : Nat) (f : Ses → Ses) : (d.modSes n f).edram = d.edram := rfl
@[simp] theorem Dev.host_modSes (n : Nat) (f : Ses → Ses) : (d.modSes n f).host = d.host := rfl
@[simp] theorem Dev.frc_modSes (n : Nat) (f : Ses → Ses) : (d.modSes n f).frc = d.frc := rfl
@[simp] theorem Dev.skn_modSes (n : Nat) (f : Ses → Ses) : (d.modSes n f).skn = d.skn := rfl
@[simp] theorem Dev.ctm_modSes (n : Nat) (f : Ses → Ses) : (d.modSes n f).ctm = d.ctm := rfl
@[simp] theorem Dev.ope_modSes (n : Nat) (f : Ses → Ses) : (d.modSes n f).ope = d.ope := rfl
@[simp] theorem Dev.str_modSes (n : Nat) (f : Ses → Ses) : (d.modSes n f).str = d.str := rfl
@[simp] theorem Dev.pt_modSes (n : Nat) (f : Ses → Ses) : (d.modSes n f).pt = d.pt := rfl
@[simp] theorem Dev.vcm_modSes (n : Nat) (f : Ses → Ses) : (d.modSes n f).vcm = d.vcm := rfl
@[simp] theorem Dev.alc_modSes (n : Nat) (f : Ses → Ses) : (d.modSes n f).alc = d.alc := rfl
@[simp] theorem Dev.thm_modSes (n : Nat) (f : Ses → Ses) : (d.modSes n f).thm = d.thm := rfl
@[simp] theorem Dev.cbl_modSes (n : Nat) (f : Ses → Ses) : (d.modSes n f).cbl = d.cbl := rfl
@[simp] theorem Dev.die_modSes (n : Nat) (f : Ses → Ses) : (d.modSes n f).die = d.die := rfl
@[simp] theorem Dev.lsw_modSes (n : Nat) (f : Ses → Ses) : (d.modSes n f).lsw = d.lsw := rfl
@[simp] theorem Dev.vaux_modSes (n : Nat) (f : Ses → Ses) : (d.modSes n f).vaux = d.vaux := rfl
@[simp] theorem Dev.aux_modSes (n : Nat) (f : Ses → Ses) : (d.modSes n f).aux = d.aux := rfl
@[simp] theorem Dev.key_modSes (n : Nat) (f : Ses → Ses) : (d.modSes n f).key = d.key := rfl
@[simp] theorem Dev.clk_modSes (n : Nat) (f : Ses → Ses) : (d.modSes n f).clk = d.clk := rfl
@[simp] theorem Dev.yarn_modSes (n : Nat) (f : Ses → Ses) : (d.modSes n f).yarn = d.yarn := rfl
@[simp] theorem Dev.stageAt_modSes (n : Nat) (f : Ses → Ses) : (d.modSes n f).stageAt = d.stageAt := rfl
@[simp] theorem Dev.saf_modSes (n : Nat) (f : Ses → Ses) : (d.modSes n f).saf = d.saf := rfl
@[simp] theorem Dev.lgl_modSes (n : Nat) (f : Ses → Ses) : (d.modSes n f).lgl = d.lgl := rfl
@[simp] theorem Dev.sys_modSes (n : Nat) (f : Ses → Ses) : (d.modSes n f).sys = d.sys := rfl
@[simp] theorem Dev.pwr_modSes (n : Nat) (f : Ses → Ses) : (d.modSes n f).pwr = d.pwr := rfl
@[simp] theorem Dev.ply_modSes (n : Nat) (f : Ses → Ses) : (d.modSes n f).ply = d.ply := rfl
@[simp] theorem Dev.sesRec_setWord (i : Nat) (t : Tag) (n off : Nat) (w : Word) : (d.setWord t n off w).sesRec i = d.sesRec i := rfl
@[simp] theorem Dev.sesRec_wr (i : Nat) (n : Nat) (f : Field) (v : Nat) : (d.wr n f v).sesRec i = d.sesRec i := rfl
@[simp] theorem Dev.sesRec_wrB (i : Nat) (n : Nat) (f : Field) (b : Bool) : (d.wrB n f b).sesRec i = d.sesRec i := rfl

@[simp] theorem Dev.rd_modEntry (n m : Nat) (f : Entry → Entry) (g : Field) : (d.modEntry n f).rd m g = d.rd m g := rfl
@[simp] theorem Dev.regs_modEntry (n : Nat) (f : Entry → Entry) : (d.modEntry n f).regs = d.regs := rfl
theorem Dev.entry_modEntry_same (n : Nat) (f : Entry → Entry) : (d.modEntry n f).entry n = f (d.entry n) :=
  AMap.get_set_same _ _ _ _
theorem Dev.entry_modEntry_ne {n m : Nat} (f : Entry → Entry) (h : m ≠ n) : (d.modEntry n f).entry m = d.entry m :=
  AMap.get_set_ne _ _ _ h
@[simp] theorem Dev.now_modEntry (n : Nat) (f : Entry → Entry) : (d.modEntry n f).now = d.now := rfl
@[simp] theorem Dev.freeCnt_modEntry (n : Nat) (f : Entry → Entry) : (d.modEntry n f).freeCnt = d.freeCnt := rfl
@[simp] theorem Dev.sent_modEntry (n : Nat) (f : Entry → Entry) : (d.modEntry n f).sent = d.sent := rfl
@[simp] theorem Dev.edram_modEntry (n : Nat) (f : Entry → Entry) : (d.modEntry n f).edram = d.edram := rfl
@[simp] theorem Dev.host_modEntry (n : Nat) (f : Entry → Entry) : (d.modEntry n f).host = d.host := rfl
@[simp] theorem Dev.frc_modEntry (n : Nat) (f : Entry → Entry) : (d.modEntry n f).frc = d.frc := rfl
@[simp] theorem Dev.skn_modEntry (n : Nat) (f : Entry → Entry) : (d.modEntry n f).skn = d.skn := rfl
@[simp] theorem Dev.ope_modEntry (n : Nat) (f : Entry → Entry) : (d.modEntry n f).ope = d.ope := rfl
@[simp] theorem Dev.str_modEntry (n : Nat) (f : Entry → Entry) : (d.modEntry n f).str = d.str := rfl
@[simp] theorem Dev.pt_modEntry (n : Nat) (f : Entry → Entry) : (d.modEntry n f).pt = d.pt := rfl
@[simp] theorem Dev.ses_modEntry (n : Nat) (f : Entry → Entry) : (d.modEntry n f).ses = d.ses := rfl
@[simp] theorem Dev.vcm_modEntry (n : Nat) (f : Entry → Entry) : (d.modEntry n f).vcm = d.vcm := rfl
@[simp] theorem Dev.alc_modEntry (n : Nat) (f : Entry → Entry) : (d.modEntry n f).alc = d.alc := rfl
@[simp] theorem Dev.thm_modEntry (n : Nat) (f : Entry → Entry) : (d.modEntry n f).thm = d.thm := rfl
@[simp] theorem Dev.cbl_modEntry (n : Nat) (f : Entry → Entry) : (d.modEntry n f).cbl = d.cbl := rfl
@[simp] theorem Dev.die_modEntry (n : Nat) (f : Entry → Entry) : (d.modEntry n f).die = d.die := rfl
@[simp] theorem Dev.lsw_modEntry (n : Nat) (f : Entry → Entry) : (d.modEntry n f).lsw = d.lsw := rfl
@[simp] theorem Dev.vaux_modEntry (n : Nat) (f : Entry → Entry) : (d.modEntry n f).vaux = d.vaux := rfl
@[simp] theorem Dev.aux_modEntry (n : Nat) (f : Entry → Entry) : (d.modEntry n f).aux = d.aux := rfl
@[simp] theorem Dev.key_modEntry (n : Nat) (f : Entry → Entry) : (d.modEntry n f).key = d.key := rfl
@[simp] theorem Dev.clk_modEntry (n : Nat) (f : Entry → Entry) : (d.modEntry n f).clk = d.clk := rfl
@[simp] theorem Dev.yarn_modEntry (n : Nat) (f : Entry → Entry) : (d.modEntry n f).yarn = d.yarn := rfl
@[simp] theorem Dev.stageAt_modEntry (n : Nat) (f : Entry → Entry) : (d.modEntry n f).stageAt = d.stageAt := rfl
@[simp] theorem Dev.saf_modEntry (n : Nat) (f : Entry → Entry) : (d.modEntry n f).saf = d.saf := rfl
@[simp] theorem Dev.lgl_modEntry (n : Nat) (f : Entry → Entry) : (d.modEntry n f).lgl = d.lgl := rfl
@[simp] theorem Dev.sys_modEntry (n : Nat) (f : Entry → Entry) : (d.modEntry n f).sys = d.sys := rfl
@[simp] theorem Dev.pwr_modEntry (n : Nat) (f : Entry → Entry) : (d.modEntry n f).pwr = d.pwr := rfl
@[simp] theorem Dev.ply_modEntry (n : Nat) (f : Entry → Entry) : (d.modEntry n f).ply = d.ply := rfl
@[simp] theorem Dev.entry_setWord (i : Nat) (t : Tag) (n off : Nat) (w : Word) : (d.setWord t n off w).entry i = d.entry i := rfl
@[simp] theorem Dev.entry_wr (i : Nat) (n : Nat) (f : Field) (v : Nat) : (d.wr n f v).entry i = d.entry i := rfl
@[simp] theorem Dev.entry_wrB (i : Nat) (n : Nat) (f : Field) (b : Bool) : (d.wrB n f b).entry i = d.entry i := rfl

@[simp] theorem Dev.rd_modFn (n m : Nat) (f : SafFn → SafFn) (g : Field) : (d.modFn n f).rd m g = d.rd m g := rfl
@[simp] theorem Dev.regs_modFn (n : Nat) (f : SafFn → SafFn) : (d.modFn n f).regs = d.regs := rfl
theorem Dev.safFn_modFn_same (n : Nat) (f : SafFn → SafFn) : (d.modFn n f).safFn n = f (d.safFn n) :=
  AMap.get_set_same _ _ _ _
theorem Dev.safFn_modFn_ne {n m : Nat} (f : SafFn → SafFn) (h : m ≠ n) : (d.modFn n f).safFn m = d.safFn m :=
  AMap.get_set_ne _ _ _ h
@[simp] theorem Dev.now_modFn (n : Nat) (f : SafFn → SafFn) : (d.modFn n f).now = d.now := rfl
@[simp] theorem Dev.freeCnt_modFn (n : Nat) (f : SafFn → SafFn) : (d.modFn n f).freeCnt = d.freeCnt := rfl
@[simp] theorem Dev.sent_modFn (n : Nat) (f : SafFn → SafFn) : (d.modFn n f).sent = d.sent := rfl
@[simp] theorem Dev.edram_modFn (n : Nat) (f : SafFn → SafFn) : (d.modFn n f).edram = d.edram := rfl
@[simp] theorem Dev.host_modFn (n : Nat) (f : SafFn → SafFn) : (d.modFn n f).host = d.host := rfl
@[simp] theorem Dev.frc_modFn (n : Nat) (f : SafFn → SafFn) : (d.modFn n f).frc = d.frc := rfl
@[simp] theorem Dev.skn_modFn (n : Nat) (f : SafFn → SafFn) : (d.modFn n f).skn = d.skn := rfl
@[simp] theorem Dev.ctm_modFn (n : Nat) (f : SafFn → SafFn) : (d.modFn n f).ctm = d.ctm := rfl
@[simp] theorem Dev.ope_modFn (n : Nat) (f : SafFn → SafFn) : (d.modFn n f).ope = d.ope := rfl
@[simp] theorem Dev.str_modFn (n : Nat) (f : SafFn → SafFn) : (d.modFn n f).str = d.str := rfl
@[simp] theorem Dev.pt_modFn (n : Nat) (f : SafFn → SafFn) : (d.modFn n f).pt = d.pt := rfl
@[simp] theorem Dev.ses_modFn (n : Nat) (f : SafFn → SafFn) : (d.modFn n f).ses = d.ses := rfl
@[simp] theorem Dev.vcm_modFn (n : Nat) (f : SafFn → SafFn) : (d.modFn n f).vcm = d.vcm := rfl
@[simp] theorem Dev.alc_modFn (n : Nat) (f : SafFn → SafFn) : (d.modFn n f).alc = d.alc := rfl
@[simp] theorem Dev.thm_modFn (n : Nat) (f : SafFn → SafFn) : (d.modFn n f).thm = d.thm := rfl
@[simp] theorem Dev.cbl_modFn (n : Nat) (f : SafFn → SafFn) : (d.modFn n f).cbl = d.cbl := rfl
@[simp] theorem Dev.die_modFn (n : Nat) (f : SafFn → SafFn) : (d.modFn n f).die = d.die := rfl
@[simp] theorem Dev.lsw_modFn (n : Nat) (f : SafFn → SafFn) : (d.modFn n f).lsw = d.lsw := rfl
@[simp] theorem Dev.vaux_modFn (n : Nat) (f : SafFn → SafFn) : (d.modFn n f).vaux = d.vaux := rfl
@[simp] theorem Dev.aux_modFn (n : Nat) (f : SafFn → SafFn) : (d.modFn n f).aux = d.aux := rfl
@[simp] theorem Dev.key_modFn (n : Nat) (f : SafFn → SafFn) : (d.modFn n f).key = d.key := rfl
@[simp] theorem Dev.clk_modFn (n : Nat) (f : SafFn → SafFn) : (d.modFn n f).clk = d.clk := rfl
@[simp] theorem Dev.yarn_modFn (n : Nat) (f : SafFn → SafFn) : (d.modFn n f).yarn = d.yarn := rfl
@[simp] theorem Dev.stageAt_modFn (n : Nat) (f : SafFn → SafFn) : (d.modFn n f).stageAt = d.stageAt := rfl
@[simp] theorem Dev.lgl_modFn (n : Nat) (f : SafFn → SafFn) : (d.modFn n f).lgl = d.lgl := rfl
@[simp] theorem Dev.sys_modFn (n : Nat) (f : SafFn → SafFn) : (d.modFn n f).sys = d.sys := rfl
@[simp] theorem Dev.pwr_modFn (n : Nat) (f : SafFn → SafFn) : (d.modFn n f).pwr = d.pwr := rfl
@[simp] theorem Dev.ply_modFn (n : Nat) (f : SafFn → SafFn) : (d.modFn n f).ply = d.ply := rfl
@[simp] theorem Dev.safFn_setWord (i : Nat) (t : Tag) (n off : Nat) (w : Word) : (d.setWord t n off w).safFn i = d.safFn i := rfl
@[simp] theorem Dev.safFn_wr (i : Nat) (n : Nat) (f : Field) (v : Nat) : (d.wr n f v).safFn i = d.safFn i := rfl
@[simp] theorem Dev.safFn_wrB (i : Nat) (n : Nat) (f : Field) (b : Bool) : (d.wrB n f b).safFn i = d.safFn i := rfl

@[simp] theorem Dev.rd_modPair (n m : Nat) (f : SafPair → SafPair) (g : Field) : (d.modPair n f).rd m g = d.rd m g := rfl
@[simp] theorem Dev.regs_modPair (n : Nat) (f : SafPair → SafPair) : (d.modPair n f).regs = d.regs := rfl
theorem Dev.safPair_modPair_same (n : Nat) (f : SafPair → SafPair) : (d.modPair n f).safPair n = f (d.safPair n) :=
  AMap.get_set_same _ _ _ _
theorem Dev.safPair_modPair_ne {n m : Nat} (f : SafPair → SafPair) (h : m ≠ n) : (d.modPair n f).safPair m = d.safPair m :=
  AMap.get_set_ne _ _ _ h
@[simp] theorem Dev.now_modPair (n : Nat) (f : SafPair → SafPair) : (d.modPair n f).now = d.now := rfl
@[simp] theorem Dev.freeCnt_modPair (n : Nat) (f : SafPair → SafPair) : (d.modPair n f).freeCnt = d.freeCnt := rfl
@[simp] theorem Dev.sent_modPair (n : Nat) (f : SafPair → SafPair) : (d.modPair n f).sent = d.sent := rfl
@[simp] theorem Dev.edram_modPair (n : Nat) (f : SafPair → SafPair) : (d.modPair n f).edram = d.edram := rfl
@[simp] theorem Dev.host_modPair (n : Nat) (f : SafPair → SafPair) : (d.modPair n f).host = d.host := rfl
@[simp] theorem Dev.frc_modPair (n : Nat) (f : SafPair → SafPair) : (d.modPair n f).frc = d.frc := rfl
@[simp] theorem Dev.skn_modPair (n : Nat) (f : SafPair → SafPair) : (d.modPair n f).skn = d.skn := rfl
@[simp] theorem Dev.ctm_modPair (n : Nat) (f : SafPair → SafPair) : (d.modPair n f).ctm = d.ctm := rfl
@[simp] theorem Dev.ope_modPair (n : Nat) (f : SafPair → SafPair) : (d.modPair n f).ope = d.ope := rfl
@[simp] theorem Dev.str_modPair (n : Nat) (f : SafPair → SafPair) : (d.modPair n f).str = d.str := rfl
@[simp] theorem Dev.pt_modPair (n : Nat) (f : SafPair → SafPair) : (d.modPair n f).pt = d.pt := rfl
@[simp] theorem Dev.ses_modPair (n : Nat) (f : SafPair → SafPair) : (d.modPair n f).ses = d.ses := rfl
@[simp] theorem Dev.vcm_modPair (n : Nat) (f : SafPair → SafPair) : (d.modPair n f).vcm = d.vcm := rfl
@[simp] theorem Dev.alc_modPair (n : Nat) (f : SafPair → SafPair) : (d.modPair n f).alc = d.alc := rfl
@[simp] theorem Dev.thm_modPair (n : Nat) (f : SafPair → SafPair) : (d.modPair n f).thm = d.thm := rfl
@[simp] theorem Dev.cbl_modPair (n : Nat) (f : SafPair → SafPair) : (d.modPair n f).cbl = d.cbl := rfl
@[simp] theorem Dev.die_modPair (n : Nat) (f : SafPair → SafPair) : (d.modPair n f).die = d.die := rfl
@[simp] theorem Dev.lsw_modPair (n : Nat) (f : SafPair → SafPair) : (d.modPair n f).lsw = d.lsw := rfl
@[simp] theorem Dev.vaux_modPair (n : Nat) (f : SafPair → SafPair) : (d.modPair n f).vaux = d.vaux := rfl
@[simp] theorem Dev.aux_modPair (n : Nat) (f : SafPair → SafPair) : (d.modPair n f).aux = d.aux := rfl
@[simp] theorem Dev.key_modPair (n : Nat) (f : SafPair → SafPair) : (d.modPair n f).key = d.key := rfl
@[simp] theorem Dev.clk_modPair (n : Nat) (f : SafPair → SafPair) : (d.modPair n f).clk = d.clk := rfl
@[simp] theorem Dev.yarn_modPair (n : Nat) (f : SafPair → SafPair) : (d.modPair n f).yarn = d.yarn := rfl
@[simp] theorem Dev.stageAt_modPair (n : Nat) (f : SafPair → SafPair) : (d.modPair n f).stageAt = d.stageAt := rfl
@[simp] theorem Dev.lgl_modPair (n : Nat) (f : SafPair → SafPair) : (d.modPair n f).lgl = d.lgl := rfl
@[simp] theorem Dev.sys_modPair (n : Nat) (f : SafPair → SafPair) : (d.modPair n f).sys = d.sys := rfl
@[simp] theorem Dev.pwr_modPair (n : Nat) (f : SafPair → SafPair) : (d.modPair n f).pwr = d.pwr := rfl
@[simp] theorem Dev.ply_modPair (n : Nat) (f : SafPair → SafPair) : (d.modPair n f).ply = d.ply := rfl
@[simp] theorem Dev.safPair_setWord (i : Nat) (t : Tag) (n off : Nat) (w : Word) : (d.setWord t n off w).safPair i = d.safPair i := rfl
@[simp] theorem Dev.safPair_wr (i : Nat) (n : Nat) (f : Field) (v : Nat) : (d.wr n f v).safPair i = d.safPair i := rfl
@[simp] theorem Dev.safPair_wrB (i : Nat) (n : Nat) (f : Field) (b : Bool) : (d.wrB n f b).safPair i = d.safPair i := rfl

@[simp] theorem Dev.rd_modCon (n m : Nat) (f : SfcCon → SfcCon) (g : Field) : (d.modCon n f).rd m g = d.rd m g := rfl
@[simp] theorem Dev.regs_modCon (n : Nat) (f : SfcCon → SfcCon) : (d.modCon n f).regs = d.regs := rfl
theorem Dev.sfcCon_modCon_same (n : Nat) (f : SfcCon → SfcCon) : (d.modCon n f).sfcCon n = f (d.sfcCon n) :=
  AMap.get_set_same _ _ _ _
theorem Dev.sfcCon_modCon_ne {n m : Nat} (f : SfcCon → SfcCon) (h : m ≠ n) : (d.modCon n f).sfcCon m = d.sfcCon m :=
  AMap.get_set_ne _ _ _ h
@[simp] theorem Dev.now_modCon (n : Nat) (f : SfcCon → SfcCon) : (d.modCon n f).now = d.now := rfl
@[simp] theorem Dev.freeCnt_modCon (n : Nat) (f : SfcCon → SfcCon) : (d.modCon n f).freeCnt = d.freeCnt := rfl
@[simp] theorem Dev.sent_modCon (n : Nat) (f : SfcCon → SfcCon) : (d.modCon n f).sent = d.sent := rfl
@[simp] theorem Dev.edram_modCon (n : Nat) (f : SfcCon → SfcCon) : (d.modCon n f).edram = d.edram := rfl
@[simp] theorem Dev.host_modCon (n : Nat) (f : SfcCon → SfcCon) : (d.modCon n f).host = d.host := rfl
@[simp] theorem Dev.frc_modCon (n : Nat) (f : SfcCon → SfcCon) : (d.modCon n f).frc = d.frc := rfl
@[simp] theorem Dev.skn_modCon (n : Nat) (f : SfcCon → SfcCon) : (d.modCon n f).skn = d.skn := rfl
@[simp] theorem Dev.ctm_modCon (n : Nat) (f : SfcCon → SfcCon) : (d.modCon n f).ctm = d.ctm := rfl
@[simp] theorem Dev.ope_modCon (n : Nat) (f : SfcCon → SfcCon) : (d.modCon n f).ope = d.ope := rfl
@[simp] theorem Dev.str_modCon (n : Nat) (f : SfcCon → SfcCon) : (d.modCon n f).str = d.str := rfl
@[simp] theorem Dev.pt_modCon (n : Nat) (f : SfcCon → SfcCon) : (d.modCon n f).pt = d.pt := rfl
@[simp] theorem Dev.ses_modCon (n : Nat) (f : SfcCon → SfcCon) : (d.modCon n f).ses = d.ses := rfl
@[simp] theorem Dev.vcm_modCon (n : Nat) (f : SfcCon → SfcCon) : (d.modCon n f).vcm = d.vcm := rfl
@[simp] theorem Dev.alc_modCon (n : Nat) (f : SfcCon → SfcCon) : (d.modCon n f).alc = d.alc := rfl
@[simp] theorem Dev.thm_modCon (n : Nat) (f : SfcCon → SfcCon) : (d.modCon n f).thm = d.thm := rfl
@[simp] theorem Dev.cbl_modCon (n : Nat) (f : SfcCon → SfcCon) : (d.modCon n f).cbl = d.cbl := rfl
@[simp] theorem Dev.die_modCon (n : Nat) (f : SfcCon → SfcCon) : (d.modCon n f).die = d.die := rfl
@[simp] theorem Dev.lsw_modCon (n : Nat) (f : SfcCon → SfcCon) : (d.modCon n f).lsw = d.lsw := rfl
@[simp] theorem Dev.vaux_modCon (n : Nat) (f : SfcCon → SfcCon) : (d.modCon n f).vaux = d.vaux := rfl
@[simp] theorem Dev.aux_modCon (n : Nat) (f : SfcCon → SfcCon) : (d.modCon n f).aux = d.aux := rfl
@[simp] theorem Dev.key_modCon (n : Nat) (f : SfcCon → SfcCon) : (d.modCon n f).key = d.key := rfl
@[simp] theorem Dev.clk_modCon (n : Nat) (f : SfcCon → SfcCon) : (d.modCon n f).clk = d.clk := rfl
@[simp] theorem Dev.yarn_modCon (n : Nat) (f : SfcCon → SfcCon) : (d.modCon n f).yarn = d.yarn := rfl
@[simp] theorem Dev.stageAt_modCon (n : Nat) (f : SfcCon → SfcCon) : (d.modCon n f).stageAt = d.stageAt := rfl
@[simp] theorem Dev.lgl_modCon (n : Nat) (f : SfcCon → SfcCon) : (d.modCon n f).lgl = d.lgl := rfl
@[simp] theorem Dev.sys_modCon (n : Nat) (f : SfcCon → SfcCon) : (d.modCon n f).sys = d.sys := rfl
@[simp] theorem Dev.pwr_modCon (n : Nat) (f : SfcCon → SfcCon) : (d.modCon n f).pwr = d.pwr := rfl
@[simp] theorem Dev.ply_modCon (n : Nat) (f : SfcCon → SfcCon) : (d.modCon n f).ply = d.ply := rfl
@[simp] theorem Dev.sfcCon_setWord (i : Nat) (t : Tag) (n off : Nat) (w : Word) : (d.setWord t n off w).sfcCon i = d.sfcCon i := rfl
@[simp] theorem Dev.sfcCon_wr (i : Nat) (n : Nat) (f : Field) (v : Nat) : (d.wr n f v).sfcCon i = d.sfcCon i := rfl
@[simp] theorem Dev.sfcCon_wrB (i : Nat) (n : Nat) (f : Field) (b : Bool) : (d.wrB n f b).sfcCon i = d.sfcCon i := rfl

@[simp] theorem Dev.rd_modVeh (n m : Nat) (f : Veh → Veh) (g : Field) : (d.modVeh n f).rd m g = d.rd m g := rfl
@[simp] theorem Dev.regs_modVeh (n : Nat) (f : Veh → Veh) : (d.modVeh n f).regs = d.regs := rfl
theorem Dev.veh_modVeh_same (n : Nat) (f : Veh → Veh) : (d.modVeh n f).veh n = f (d.veh n) :=
  AMap.get_set_same _ _ _ _
theorem Dev.veh_modVeh_ne {n m : Nat} (f : Veh → Veh) (h : m ≠ n) : (d.modVeh n f).veh m = d.veh m :=
  AMap.get_set_ne _ _ _ h
@[simp] theorem Dev.now_modVeh (n : Nat) (f : Veh → Veh) : (d.modVeh n f).now = d.now := rfl
@[simp] theorem Dev.freeCnt_modVeh (n : Nat) (f : Veh → Veh) : (d.modVeh n f).freeCnt = d.freeCnt := rfl
@[simp] theorem Dev.sent_modVeh (n : Nat) (f : Veh → Veh) : (d.modVeh n f).sent = d.sent := rfl
@[simp] theorem Dev.edram_modVeh (n : Nat) (f : Veh → Veh) : (d.modVeh n f).edram = d.edram := rfl
@[simp] theorem Dev.host_modVeh (n : Nat) (f : Veh → Veh) : (d.modVeh n f).host = d.host := rfl
@[simp] theorem Dev.frc_modVeh (n : Nat) (f : Veh → Veh) : (d.modVeh n f).frc = d.frc := rfl
@[simp] theorem Dev.skn_modVeh (n : Nat) (f : Veh → Veh) : (d.modVeh n f).skn = d.skn := rfl
@[simp] theorem Dev.ctm_modVeh (n : Nat) (f : Veh → Veh) : (d.modVeh n f).ctm = d.ctm := rfl
@[simp] theorem Dev.ope_modVeh (n : Nat) (f : Veh → Veh) : (d.modVeh n f).ope = d.ope := rfl
@[simp] theorem Dev.str_modVeh (n : Nat) (f : Veh → Veh) : (d.modVeh n f).str = d.str := rfl
@[simp] theorem Dev.pt_modVeh (n : Nat) (f : Veh → Veh) : (d.modVeh n f).pt = d.pt := rfl
@[simp] theorem Dev.ses_modVeh (n : Nat) (f : Veh → Veh) : (d.modVeh n f).ses = d.ses := rfl
@[simp] theorem Dev.alc_modVeh (n : Nat) (f : Veh → Veh) : (d.modVeh n f).alc = d.alc := rfl
@[simp] theorem Dev.thm_modVeh (n : Nat) (f : Veh → Veh) : (d.modVeh n f).thm = d.thm := rfl
@[simp] theorem Dev.cbl_modVeh (n : Nat) (f : Veh → Veh) : (d.modVeh n f).cbl = d.cbl := rfl
@[simp] theorem Dev.die_modVeh (n : Nat) (f : Veh → Veh) : (d.modVeh n f).die = d.die := rfl
@[simp] theorem Dev.lsw_modVeh (n : Nat) (f : Veh → Veh) : (d.modVeh n f).lsw = d.lsw := rfl
@[simp] theorem Dev.vaux_modVeh (n : Nat) (f : Veh → Veh) : (d.modVeh n f).vaux = d.vaux := rfl
@[simp] theorem Dev.aux_modVeh (n : Nat) (f : Veh → Veh) : (d.modVeh n f).aux = d.aux := rfl
@[simp] theorem Dev.key_modVeh (n : Nat) (f : Veh → Veh) : (d.modVeh n f).key = d.key := rfl
@[simp] theorem Dev.clk_modVeh (n : Nat) (f : Veh → Veh) : (d.modVeh n f).clk = d.clk := rfl
@[simp] theorem Dev.yarn_modVeh (n : Nat) (f : Veh → Veh) : (d.modVeh n f).yarn = d.yarn := rfl
@[simp] theorem Dev.stageAt_modVeh (n : Nat) (f : Veh → Veh) : (d.modVeh n f).stageAt = d.stageAt := rfl
@[simp] theorem Dev.saf_modVeh (n : Nat) (f : Veh → Veh) : (d.modVeh n f).saf = d.saf := rfl
@[simp] theorem Dev.lgl_modVeh (n : Nat) (f : Veh → Veh) : (d.modVeh n f).lgl = d.lgl := rfl
@[simp] theorem Dev.sys_modVeh (n : Nat) (f : Veh → Veh) : (d.modVeh n f).sys = d.sys := rfl
@[simp] theorem Dev.pwr_modVeh (n : Nat) (f : Veh → Veh) : (d.modVeh n f).pwr = d.pwr := rfl
@[simp] theorem Dev.ply_modVeh (n : Nat) (f : Veh → Veh) : (d.modVeh n f).ply = d.ply := rfl
@[simp] theorem Dev.veh_setWord (i : Nat) (t : Tag) (n off : Nat) (w : Word) : (d.setWord t n off w).veh i = d.veh i := rfl
@[simp] theorem Dev.veh_wr (i : Nat) (n : Nat) (f : Field) (v : Nat) : (d.wr n f v).veh i = d.veh i := rfl
@[simp] theorem Dev.veh_wrB (i : Nat) (n : Nat) (f : Field) (b : Bool) : (d.wrB n f b).veh i = d.veh i := rfl

@[simp] theorem Dev.rd_modPeer (n m : Nat) (f : YPeer → YPeer) (g : Field) : (d.modPeer n f).rd m g = d.rd m g := rfl
@[simp] theorem Dev.regs_modPeer (n : Nat) (f : YPeer → YPeer) : (d.modPeer n f).regs = d.regs := rfl
theorem Dev.ypeer_modPeer_same (n : Nat) (f : YPeer → YPeer) : (d.modPeer n f).ypeer n = f (d.ypeer n) :=
  AMap.get_set_same _ _ _ _
theorem Dev.ypeer_modPeer_ne {n m : Nat} (f : YPeer → YPeer) (h : m ≠ n) : (d.modPeer n f).ypeer m = d.ypeer m :=
  AMap.get_set_ne _ _ _ h
@[simp] theorem Dev.now_modPeer (n : Nat) (f : YPeer → YPeer) : (d.modPeer n f).now = d.now := rfl
@[simp] theorem Dev.freeCnt_modPeer (n : Nat) (f : YPeer → YPeer) : (d.modPeer n f).freeCnt = d.freeCnt := rfl
@[simp] theorem Dev.sent_modPeer (n : Nat) (f : YPeer → YPeer) : (d.modPeer n f).sent = d.sent := rfl
@[simp] theorem Dev.edram_modPeer (n : Nat) (f : YPeer → YPeer) : (d.modPeer n f).edram = d.edram := rfl
@[simp] theorem Dev.host_modPeer (n : Nat) (f : YPeer → YPeer) : (d.modPeer n f).host = d.host := rfl
@[simp] theorem Dev.frc_modPeer (n : Nat) (f : YPeer → YPeer) : (d.modPeer n f).frc = d.frc := rfl
@[simp] theorem Dev.skn_modPeer (n : Nat) (f : YPeer → YPeer) : (d.modPeer n f).skn = d.skn := rfl
@[simp] theorem Dev.ctm_modPeer (n : Nat) (f : YPeer → YPeer) : (d.modPeer n f).ctm = d.ctm := rfl
@[simp] theorem Dev.ope_modPeer (n : Nat) (f : YPeer → YPeer) : (d.modPeer n f).ope = d.ope := rfl
@[simp] theorem Dev.str_modPeer (n : Nat) (f : YPeer → YPeer) : (d.modPeer n f).str = d.str := rfl
@[simp] theorem Dev.pt_modPeer (n : Nat) (f : YPeer → YPeer) : (d.modPeer n f).pt = d.pt := rfl
@[simp] theorem Dev.ses_modPeer (n : Nat) (f : YPeer → YPeer) : (d.modPeer n f).ses = d.ses := rfl
@[simp] theorem Dev.vcm_modPeer (n : Nat) (f : YPeer → YPeer) : (d.modPeer n f).vcm = d.vcm := rfl
@[simp] theorem Dev.alc_modPeer (n : Nat) (f : YPeer → YPeer) : (d.modPeer n f).alc = d.alc := rfl
@[simp] theorem Dev.thm_modPeer (n : Nat) (f : YPeer → YPeer) : (d.modPeer n f).thm = d.thm := rfl
@[simp] theorem Dev.cbl_modPeer (n : Nat) (f : YPeer → YPeer) : (d.modPeer n f).cbl = d.cbl := rfl
@[simp] theorem Dev.die_modPeer (n : Nat) (f : YPeer → YPeer) : (d.modPeer n f).die = d.die := rfl
@[simp] theorem Dev.lsw_modPeer (n : Nat) (f : YPeer → YPeer) : (d.modPeer n f).lsw = d.lsw := rfl
@[simp] theorem Dev.vaux_modPeer (n : Nat) (f : YPeer → YPeer) : (d.modPeer n f).vaux = d.vaux := rfl
@[simp] theorem Dev.aux_modPeer (n : Nat) (f : YPeer → YPeer) : (d.modPeer n f).aux = d.aux := rfl
@[simp] theorem Dev.key_modPeer (n : Nat) (f : YPeer → YPeer) : (d.modPeer n f).key = d.key := rfl
@[simp] theorem Dev.clk_modPeer (n : Nat) (f : YPeer → YPeer) : (d.modPeer n f).clk = d.clk := rfl
@[simp] theorem Dev.saf_modPeer (n : Nat) (f : YPeer → YPeer) : (d.modPeer n f).saf = d.saf := rfl
@[simp] theorem Dev.lgl_modPeer (n : Nat) (f : YPeer → YPeer) : (d.modPeer n f).lgl = d.lgl := rfl
@[simp] theorem Dev.sys_modPeer (n : Nat) (f : YPeer → YPeer) : (d.modPeer n f).sys = d.sys := rfl
@[simp] theorem Dev.pwr_modPeer (n : Nat) (f : YPeer → YPeer) : (d.modPeer n f).pwr = d.pwr := rfl
@[simp] theorem Dev.ply_modPeer (n : Nat) (f : YPeer → YPeer) : (d.modPeer n f).ply = d.ply := rfl
@[simp] theorem Dev.ypeer_setWord (i : Nat) (t : Tag) (n off : Nat) (w : Word) : (d.setWord t n off w).ypeer i = d.ypeer i := rfl
@[simp] theorem Dev.ypeer_wr (i : Nat) (n : Nat) (f : Field) (v : Nat) : (d.wr n f v).ypeer i = d.ypeer i := rfl
@[simp] theorem Dev.ypeer_wrB (i : Nat) (n : Nat) (f : Field) (b : Bool) : (d.wrB n f b).ypeer i = d.ypeer i := rfl

@[simp] theorem Dev.rd_modCh (n m : Nat) (f : MtrCh → MtrCh) (g : Field) : (d.modCh n f).rd m g = d.rd m g := rfl
@[simp] theorem Dev.regs_modCh (n : Nat) (f : MtrCh → MtrCh) : (d.modCh n f).regs = d.regs := rfl
theorem Dev.mtrCh_modCh_same (n : Nat) (f : MtrCh → MtrCh) : (d.modCh n f).mtrCh n = f (d.mtrCh n) :=
  AMap.get_set_same _ _ _ _
theorem Dev.mtrCh_modCh_ne {n m : Nat} (f : MtrCh → MtrCh) (h : m ≠ n) : (d.modCh n f).mtrCh m = d.mtrCh m :=
  AMap.get_set_ne _ _ _ h
@[simp] theorem Dev.now_modCh (n : Nat) (f : MtrCh → MtrCh) : (d.modCh n f).now = d.now := rfl
@[simp] theorem Dev.freeCnt_modCh (n : Nat) (f : MtrCh → MtrCh) : (d.modCh n f).freeCnt = d.freeCnt := rfl
@[simp] theorem Dev.sent_modCh (n : Nat) (f : MtrCh → MtrCh) : (d.modCh n f).sent = d.sent := rfl
@[simp] theorem Dev.edram_modCh (n : Nat) (f : MtrCh → MtrCh) : (d.modCh n f).edram = d.edram := rfl
@[simp] theorem Dev.host_modCh (n : Nat) (f : MtrCh → MtrCh) : (d.modCh n f).host = d.host := rfl
@[simp] theorem Dev.frc_modCh (n : Nat) (f : MtrCh → MtrCh) : (d.modCh n f).frc = d.frc := rfl
@[simp] theorem Dev.skn_modCh (n : Nat) (f : MtrCh → MtrCh) : (d.modCh n f).skn = d.skn := rfl
@[simp] theorem Dev.ctm_modCh (n : Nat) (f : MtrCh → MtrCh) : (d.modCh n f).ctm = d.ctm := rfl
@[simp] theorem Dev.ope_modCh (n : Nat) (f : MtrCh → MtrCh) : (d.modCh n f).ope = d.ope := rfl
@[simp] theorem Dev.str_modCh (n : Nat) (f : MtrCh → MtrCh) : (d.modCh n f).str = d.str := rfl
@[simp] theorem Dev.pt_modCh (n : Nat) (f : MtrCh → MtrCh) : (d.modCh n f).pt = d.pt := rfl
@[simp] theorem Dev.ses_modCh (n : Nat) (f : MtrCh → MtrCh) : (d.modCh n f).ses = d.ses := rfl
@[simp] theorem Dev.vcm_modCh (n : Nat) (f : MtrCh → MtrCh) : (d.modCh n f).vcm = d.vcm := rfl
@[simp] theorem Dev.alc_modCh (n : Nat) (f : MtrCh → MtrCh) : (d.modCh n f).alc = d.alc := rfl
@[simp] theorem Dev.thm_modCh (n : Nat) (f : MtrCh → MtrCh) : (d.modCh n f).thm = d.thm := rfl
@[simp] theorem Dev.cbl_modCh (n : Nat) (f : MtrCh → MtrCh) : (d.modCh n f).cbl = d.cbl := rfl
@[simp] theorem Dev.die_modCh (n : Nat) (f : MtrCh → MtrCh) : (d.modCh n f).die = d.die := rfl
@[simp] theorem Dev.lsw_modCh (n : Nat) (f : MtrCh → MtrCh) : (d.modCh n f).lsw = d.lsw := rfl
@[simp] theorem Dev.vaux_modCh (n : Nat) (f : MtrCh → MtrCh) : (d.modCh n f).vaux = d.vaux := rfl
@[simp] theorem Dev.aux_modCh (n : Nat) (f : MtrCh → MtrCh) : (d.modCh n f).aux = d.aux := rfl
@[simp] theorem Dev.key_modCh (n : Nat) (f : MtrCh → MtrCh) : (d.modCh n f).key = d.key := rfl
@[simp] theorem Dev.clk_modCh (n : Nat) (f : MtrCh → MtrCh) : (d.modCh n f).clk = d.clk := rfl
@[simp] theorem Dev.yarn_modCh (n : Nat) (f : MtrCh → MtrCh) : (d.modCh n f).yarn = d.yarn := rfl
@[simp] theorem Dev.stageAt_modCh (n : Nat) (f : MtrCh → MtrCh) : (d.modCh n f).stageAt = d.stageAt := rfl
@[simp] theorem Dev.saf_modCh (n : Nat) (f : MtrCh → MtrCh) : (d.modCh n f).saf = d.saf := rfl
@[simp] theorem Dev.sys_modCh (n : Nat) (f : MtrCh → MtrCh) : (d.modCh n f).sys = d.sys := rfl
@[simp] theorem Dev.pwr_modCh (n : Nat) (f : MtrCh → MtrCh) : (d.modCh n f).pwr = d.pwr := rfl
@[simp] theorem Dev.ply_modCh (n : Nat) (f : MtrCh → MtrCh) : (d.modCh n f).ply = d.ply := rfl
@[simp] theorem Dev.mtrCh_setWord (i : Nat) (t : Tag) (n off : Nat) (w : Word) : (d.setWord t n off w).mtrCh i = d.mtrCh i := rfl
@[simp] theorem Dev.mtrCh_wr (i : Nat) (n : Nat) (f : Field) (v : Nat) : (d.wr n f v).mtrCh i = d.mtrCh i := rfl
@[simp] theorem Dev.mtrCh_wrB (i : Nat) (n : Nat) (f : Field) (b : Bool) : (d.wrB n f b).mtrCh i = d.mtrCh i := rfl

@[simp] theorem Dev.rd_modMp (n m : Nat) (f : MtrPt → MtrPt) (g : Field) : (d.modMp n f).rd m g = d.rd m g := rfl
@[simp] theorem Dev.regs_modMp (n : Nat) (f : MtrPt → MtrPt) : (d.modMp n f).regs = d.regs := rfl
theorem Dev.mtrPt_modMp_same (n : Nat) (f : MtrPt → MtrPt) : (d.modMp n f).mtrPt n = f (d.mtrPt n) :=
  AMap.get_set_same _ _ _ _
theorem Dev.mtrPt_modMp_ne {n m : Nat} (f : MtrPt → MtrPt) (h : m ≠ n) : (d.modMp n f).mtrPt m = d.mtrPt m :=
  AMap.get_set_ne _ _ _ h
@[simp] theorem Dev.now_modMp (n : Nat) (f : MtrPt → MtrPt) : (d.modMp n f).now = d.now := rfl
@[simp] theorem Dev.freeCnt_modMp (n : Nat) (f : MtrPt → MtrPt) : (d.modMp n f).freeCnt = d.freeCnt := rfl
@[simp] theorem Dev.sent_modMp (n : Nat) (f : MtrPt → MtrPt) : (d.modMp n f).sent = d.sent := rfl
@[simp] theorem Dev.edram_modMp (n : Nat) (f : MtrPt → MtrPt) : (d.modMp n f).edram = d.edram := rfl
@[simp] theorem Dev.host_modMp (n : Nat) (f : MtrPt → MtrPt) : (d.modMp n f).host = d.host := rfl
@[simp] theorem Dev.frc_modMp (n : Nat) (f : MtrPt → MtrPt) : (d.modMp n f).frc = d.frc := rfl
@[simp] theorem Dev.skn_modMp (n : Nat) (f : MtrPt → MtrPt) : (d.modMp n f).skn = d.skn := rfl
@[simp] theorem Dev.ctm_modMp (n : Nat) (f : MtrPt → MtrPt) : (d.modMp n f).ctm = d.ctm := rfl
@[simp] theorem Dev.ope_modMp (n : Nat) (f : MtrPt → MtrPt) : (d.modMp n f).ope = d.ope := rfl
@[simp] theorem Dev.str_modMp (n : Nat) (f : MtrPt → MtrPt) : (d.modMp n f).str = d.str := rfl
@[simp] theorem Dev.pt_modMp (n : Nat) (f : MtrPt → MtrPt) : (d.modMp n f).pt = d.pt := rfl
@[simp] theorem Dev.ses_modMp (n : Nat) (f : MtrPt → MtrPt) : (d.modMp n f).ses = d.ses := rfl
@[simp] theorem Dev.vcm_modMp (n : Nat) (f : MtrPt → MtrPt) : (d.modMp n f).vcm = d.vcm := rfl
@[simp] theorem Dev.alc_modMp (n : Nat) (f : MtrPt → MtrPt) : (d.modMp n f).alc = d.alc := rfl
@[simp] theorem Dev.thm_modMp (n : Nat) (f : MtrPt → MtrPt) : (d.modMp n f).thm = d.thm := rfl
@[simp] theorem Dev.cbl_modMp (n : Nat) (f : MtrPt → MtrPt) : (d.modMp n f).cbl = d.cbl := rfl
@[simp] theorem Dev.die_modMp (n : Nat) (f : MtrPt → MtrPt) : (d.modMp n f).die = d.die := rfl
@[simp] theorem Dev.lsw_modMp (n : Nat) (f : MtrPt → MtrPt) : (d.modMp n f).lsw = d.lsw := rfl
@[simp] theorem Dev.vaux_modMp (n : Nat) (f : MtrPt → MtrPt) : (d.modMp n f).vaux = d.vaux := rfl
@[simp] theorem Dev.aux_modMp (n : Nat) (f : MtrPt → MtrPt) : (d.modMp n f).aux = d.aux := rfl
@[simp] theorem Dev.key_modMp (n : Nat) (f : MtrPt → MtrPt) : (d.modMp n f).key = d.key := rfl
@[simp] theorem Dev.clk_modMp (n : Nat) (f : MtrPt → MtrPt) : (d.modMp n f).clk = d.clk := rfl
@[simp] theorem Dev.yarn_modMp (n : Nat) (f : MtrPt → MtrPt) : (d.modMp n f).yarn = d.yarn := rfl
@[simp] theorem Dev.stageAt_modMp (n : Nat) (f : MtrPt → MtrPt) : (d.modMp n f).stageAt = d.stageAt := rfl
@[simp] theorem Dev.saf_modMp (n : Nat) (f : MtrPt → MtrPt) : (d.modMp n f).saf = d.saf := rfl
@[simp] theorem Dev.sys_modMp (n : Nat) (f : MtrPt → MtrPt) : (d.modMp n f).sys = d.sys := rfl
@[simp] theorem Dev.pwr_modMp (n : Nat) (f : MtrPt → MtrPt) : (d.modMp n f).pwr = d.pwr := rfl
@[simp] theorem Dev.ply_modMp (n : Nat) (f : MtrPt → MtrPt) : (d.modMp n f).ply = d.ply := rfl
@[simp] theorem Dev.mtrPt_setWord (i : Nat) (t : Tag) (n off : Nat) (w : Word) : (d.setWord t n off w).mtrPt i = d.mtrPt i := rfl
@[simp] theorem Dev.mtrPt_wr (i : Nat) (n : Nat) (f : Field) (v : Nat) : (d.wr n f v).mtrPt i = d.mtrPt i := rfl
@[simp] theorem Dev.mtrPt_wrB (i : Nat) (n : Nat) (f : Field) (b : Bool) : (d.wrB n f b).mtrPt i = d.mtrPt i := rfl

@[simp] theorem Dev.rd_modLgl (m : Nat) (f : Lgl → Lgl) (g : Field) : (d.modLgl f).rd m g = d.rd m g := rfl
@[simp] theorem Dev.now_modLgl (f : Lgl → Lgl) : (d.modLgl f).now = d.now := rfl
@[simp] theorem Dev.freeCnt_modLgl (f : Lgl → Lgl) : (d.modLgl f).freeCnt = d.freeCnt := rfl
@[simp] theorem Dev.sent_modLgl (f : Lgl → Lgl) : (d.modLgl f).sent = d.sent := rfl
@[simp] theorem Dev.edram_modLgl (f : Lgl → Lgl) : (d.modLgl f).edram = d.edram := rfl
@[simp] theorem Dev.host_modLgl (f : Lgl → Lgl) : (d.modLgl f).host = d.host := rfl
@[simp] theorem Dev.frc_modLgl (f : Lgl → Lgl) : (d.modLgl f).frc = d.frc := rfl
@[simp] theorem Dev.skn_modLgl (f : Lgl → Lgl) : (d.modLgl f).skn = d.skn := rfl
@[simp] theorem Dev.ctm_modLgl (f : Lgl → Lgl) : (d.modLgl f).ctm = d.ctm := rfl
@[simp] theorem Dev.ope_modLgl (f : Lgl → Lgl) : (d.modLgl f).ope = d.ope := rfl
@[simp] theorem Dev.str_modLgl (f : Lgl → Lgl) : (d.modLgl f).str = d.str := rfl
@[simp] theorem Dev.pt_modLgl (f : Lgl → Lgl) : (d.modLgl f).pt = d.pt := rfl
@[simp] theorem Dev.ses_modLgl (f : Lgl → Lgl) : (d.modLgl f).ses = d.ses := rfl
@[simp] theorem Dev.vcm_modLgl (f : Lgl → Lgl) : (d.modLgl f).vcm = d.vcm := rfl
@[simp] theorem Dev.alc_modLgl (f : Lgl → Lgl) : (d.modLgl f).alc = d.alc := rfl
@[simp] theorem Dev.thm_modLgl (f : Lgl → Lgl) : (d.modLgl f).thm = d.thm := rfl
@[simp] theorem Dev.cbl_modLgl (f : Lgl → Lgl) : (d.modLgl f).cbl = d.cbl := rfl
@[simp] theorem Dev.die_modLgl (f : Lgl → Lgl) : (d.modLgl f).die = d.die := rfl
@[simp] theorem Dev.lsw_modLgl (f : Lgl → Lgl) : (d.modLgl f).lsw = d.lsw := rfl
@[simp] theorem Dev.vaux_modLgl (f : Lgl → Lgl) : (d.modLgl f).vaux = d.vaux := rfl
@[simp] theorem Dev.aux_modLgl (f : Lgl → Lgl) : (d.modLgl f).aux = d.aux := rfl
@[simp] theorem Dev.key_modLgl (f : Lgl → Lgl) : (d.modLgl f).key = d.key := rfl
@[simp] theorem Dev.clk_modLgl (f : Lgl → Lgl) : (d.modLgl f).clk = d.clk := rfl
@[simp] theorem Dev.yarn_modLgl (f : Lgl → Lgl) : (d.modLgl f).yarn = d.yarn := rfl
@[simp] theorem Dev.stageAt_modLgl (f : Lgl → Lgl) : (d.modLgl f).stageAt = d.stageAt := rfl
@[simp] theorem Dev.saf_modLgl (f : Lgl → Lgl) : (d.modLgl f).saf = d.saf := rfl
@[simp] theorem Dev.sys_modLgl (f : Lgl → Lgl) : (d.modLgl f).sys = d.sys := rfl
@[simp] theorem Dev.pwr_modLgl (f : Lgl → Lgl) : (d.modLgl f).pwr = d.pwr := rfl
@[simp] theorem Dev.ply_modLgl (f : Lgl → Lgl) : (d.modLgl f).ply = d.ply := rfl
@[simp] theorem Dev.regs_modLgl (f : Lgl → Lgl) : (d.modLgl f).regs = d.regs := rfl
@[simp] theorem Dev.rd_modTot (m : Nat) (f : Totals → Totals) (g : Field) : (d.modTot f).rd m g = d.rd m g := rfl
@[simp] theorem Dev.now_modTot (f : Totals → Totals) : (d.modTot f).now = d.now := rfl
@[simp] theorem Dev.freeCnt_modTot (f : Totals → Totals) : (d.modTot f).freeCnt = d.freeCnt := rfl
@[simp] theorem Dev.sent_modTot (f : Totals → Totals) : (d.modTot f).sent = d.sent := rfl
@[simp] theorem Dev.edram_modTot (f : Totals → Totals) : (d.modTot f).edram = d.edram := rfl
@[simp] theorem Dev.host_modTot (f : Totals → Totals) : (d.modTot f).host = d.host := rfl
@[simp] theorem Dev.frc_modTot (f : Totals → Totals) : (d.modTot f).frc = d.frc := rfl
@[simp] theorem Dev.skn_modTot (f : Totals → Totals) : (d.modTot f).skn = d.skn := rfl
@[simp] theorem Dev.ctm_modTot (f : Totals → Totals) : (d.modTot f).ctm = d.ctm := rfl
@[simp] theorem Dev.ope_modTot (f : Totals → Totals) : (d.modTot f).ope = d.ope := rfl
@[simp] theorem Dev.str_modTot (f : Totals → Totals) : (d.modTot f).str = d.str := rfl
@[simp] theorem Dev.pt_modTot (f : Totals → Totals) : (d.modTot f).pt = d.pt := rfl
@[simp] theorem Dev.ses_modTot (f : Totals → Totals) : (d.modTot f).ses = d.ses := rfl
@[simp] theorem Dev.vcm_modTot (f : Totals → Totals) : (d.modTot f).vcm = d.vcm := rfl
@[simp] theorem Dev.alc_modTot (f : Totals → Totals) : (d.modTot f).alc = d.alc := rfl
@[simp] theorem Dev.thm_modTot (f : Totals → Totals) : (d.modTot f).thm = d.thm := rfl
@[simp] theorem Dev.cbl_modTot (f : Totals → Totals) : (d.modTot f).cbl = d.cbl := rfl
@[simp] theorem Dev.die_modTot (f : Totals → Totals) : (d.modTot f).die = d.die := rfl
@[simp] theorem Dev.lsw_modTot (f : Totals → Totals) : (d.modTot f).lsw = d.lsw := rfl
@[simp] theorem Dev.vaux_modTot (f : Totals → Totals) : (d.modTot f).vaux = d.vaux := rfl
@[simp] theorem Dev.aux_modTot (f : Totals → Totals) : (d.modTot f).aux = d.aux := rfl
@[simp] theorem Dev.key_modTot (f : Totals → Totals) : (d.modTot f).key = d.key := rfl
@[simp] theorem Dev.clk_modTot (f : Totals → Totals) : (d.modTot f).clk = d.clk := rfl
@[simp] theorem Dev.yarn_modTot (f : Totals → Totals) : (d.modTot f).yarn = d.yarn := rfl
@[simp] theorem Dev.stageAt_modTot (f : Totals → Totals) : (d.modTot f).stageAt = d.stageAt := rfl
@[simp] theorem Dev.saf_modTot (f : Totals → Totals) : (d.modTot f).saf = d.saf := rfl
@[simp] theorem Dev.sys_modTot (f : Totals → Totals) : (d.modTot f).sys = d.sys := rfl
@[simp] theorem Dev.pwr_modTot (f : Totals → Totals) : (d.modTot f).pwr = d.pwr := rfl
@[simp] theorem Dev.ply_modTot (f : Totals → Totals) : (d.modTot f).ply = d.ply := rfl
@[simp] theorem Dev.regs_modTot (f : Totals → Totals) : (d.modTot f).regs = d.regs := rfl
@[simp] theorem Dev.rd_modPly (m : Nat) (f : Ply → Ply) (g : Field) : (d.modPly f).rd m g = d.rd m g := rfl
@[simp] theorem Dev.now_modPly (f : Ply → Ply) : (d.modPly f).now = d.now := rfl
@[simp] theorem Dev.freeCnt_modPly (f : Ply → Ply) : (d.modPly f).freeCnt = d.freeCnt := rfl
@[simp] theorem Dev.sent_modPly (f : Ply → Ply) : (d.modPly f).sent = d.sent := rfl
@[simp] theorem Dev.edram_modPly (f : Ply → Ply) : (d.modPly f).edram = d.edram := rfl
@[simp] theorem Dev.host_modPly (f : Ply → Ply) : (d.modPly f).host = d.host := rfl
@[simp] theorem Dev.frc_modPly (f : Ply → Ply) : (d.modPly f).frc = d.frc := rfl
@[simp] theorem Dev.skn_modPly (f : Ply → Ply) : (d.modPly f).skn = d.skn := rfl
@[simp] theorem Dev.ctm_modPly (f : Ply → Ply) : (d.modPly f).ctm = d.ctm := rfl
@[simp] theorem Dev.ope_modPly (f : Ply → Ply) : (d.modPly f).ope = d.ope := rfl
@[simp] theorem Dev.str_modPly (f : Ply → Ply) : (d.modPly f).str = d.str := rfl
@[simp] theorem Dev.pt_modPly (f : Ply → Ply) : (d.modPly f).pt = d.pt := rfl
@[simp] theorem Dev.ses_modPly (f : Ply → Ply) : (d.modPly f).ses = d.ses := rfl
@[simp] theorem Dev.vcm_modPly (f : Ply → Ply) : (d.modPly f).vcm = d.vcm := rfl
@[simp] theorem Dev.alc_modPly (f : Ply → Ply) : (d.modPly f).alc = d.alc := rfl
@[simp] theorem Dev.thm_modPly (f : Ply → Ply) : (d.modPly f).thm = d.thm := rfl
@[simp] theorem Dev.cbl_modPly (f : Ply → Ply) : (d.modPly f).cbl = d.cbl := rfl
@[simp] theorem Dev.die_modPly (f : Ply → Ply) : (d.modPly f).die = d.die := rfl
@[simp] theorem Dev.lsw_modPly (f : Ply → Ply) : (d.modPly f).lsw = d.lsw := rfl
@[simp] theorem Dev.vaux_modPly (f : Ply → Ply) : (d.modPly f).vaux = d.vaux := rfl
@[simp] theorem Dev.aux_modPly (f : Ply → Ply) : (d.modPly f).aux = d.aux := rfl
@[simp] theorem Dev.key_modPly (f : Ply → Ply) : (d.modPly f).key = d.key := rfl
@[simp] theorem Dev.clk_modPly (f : Ply → Ply) : (d.modPly f).clk = d.clk := rfl
@[simp] theorem Dev.yarn_modPly (f : Ply → Ply) : (d.modPly f).yarn = d.yarn := rfl
@[simp] theorem Dev.stageAt_modPly (f : Ply → Ply) : (d.modPly f).stageAt = d.stageAt := rfl
@[simp] theorem Dev.saf_modPly (f : Ply → Ply) : (d.modPly f).saf = d.saf := rfl
@[simp] theorem Dev.lgl_modPly (f : Ply → Ply) : (d.modPly f).lgl = d.lgl := rfl
@[simp] theorem Dev.sys_modPly (f : Ply → Ply) : (d.modPly f).sys = d.sys := rfl
@[simp] theorem Dev.pwr_modPly (f : Ply → Ply) : (d.modPly f).pwr = d.pwr := rfl
@[simp] theorem Dev.regs_modPly (f : Ply → Ply) : (d.modPly f).regs = d.regs := rfl
@[simp] theorem Dev.rd_modSys (m : Nat) (f : Sys → Sys) (g : Field) : (d.modSys f).rd m g = d.rd m g := rfl
@[simp] theorem Dev.now_modSys (f : Sys → Sys) : (d.modSys f).now = d.now := rfl
@[simp] theorem Dev.freeCnt_modSys (f : Sys → Sys) : (d.modSys f).freeCnt = d.freeCnt := rfl
@[simp] theorem Dev.sent_modSys (f : Sys → Sys) : (d.modSys f).sent = d.sent := rfl
@[simp] theorem Dev.edram_modSys (f : Sys → Sys) : (d.modSys f).edram = d.edram := rfl
@[simp] theorem Dev.host_modSys (f : Sys → Sys) : (d.modSys f).host = d.host := rfl
@[simp] theorem Dev.frc_modSys (f : Sys → Sys) : (d.modSys f).frc = d.frc := rfl
@[simp] theorem Dev.skn_modSys (f : Sys → Sys) : (d.modSys f).skn = d.skn := rfl
@[simp] theorem Dev.ctm_modSys (f : Sys → Sys) : (d.modSys f).ctm = d.ctm := rfl
@[simp] theorem Dev.ope_modSys (f : Sys → Sys) : (d.modSys f).ope = d.ope := rfl
@[simp] theorem Dev.str_modSys (f : Sys → Sys) : (d.modSys f).str = d.str := rfl
@[simp] theorem Dev.pt_modSys (f : Sys → Sys) : (d.modSys f).pt = d.pt := rfl
@[simp] theorem Dev.ses_modSys (f : Sys → Sys) : (d.modSys f).ses = d.ses := rfl
@[simp] theorem Dev.vcm_modSys (f : Sys → Sys) : (d.modSys f).vcm = d.vcm := rfl
@[simp] theorem Dev.alc_modSys (f : Sys → Sys) : (d.modSys f).alc = d.alc := rfl
@[simp] theorem Dev.thm_modSys (f : Sys → Sys) : (d.modSys f).thm = d.thm := rfl
@[simp] theorem Dev.cbl_modSys (f : Sys → Sys) : (d.modSys f).cbl = d.cbl := rfl
@[simp] theorem Dev.die_modSys (f : Sys → Sys) : (d.modSys f).die = d.die := rfl
@[simp] theorem Dev.lsw_modSys (f : Sys → Sys) : (d.modSys f).lsw = d.lsw := rfl
@[simp] theorem Dev.vaux_modSys (f : Sys → Sys) : (d.modSys f).vaux = d.vaux := rfl
@[simp] theorem Dev.aux_modSys (f : Sys → Sys) : (d.modSys f).aux = d.aux := rfl
@[simp] theorem Dev.key_modSys (f : Sys → Sys) : (d.modSys f).key = d.key := rfl
@[simp] theorem Dev.clk_modSys (f : Sys → Sys) : (d.modSys f).clk = d.clk := rfl
@[simp] theorem Dev.yarn_modSys (f : Sys → Sys) : (d.modSys f).yarn = d.yarn := rfl
@[simp] theorem Dev.stageAt_modSys (f : Sys → Sys) : (d.modSys f).stageAt = d.stageAt := rfl
@[simp] theorem Dev.saf_modSys (f : Sys → Sys) : (d.modSys f).saf = d.saf := rfl
@[simp] theorem Dev.lgl_modSys (f : Sys → Sys) : (d.modSys f).lgl = d.lgl := rfl
@[simp] theorem Dev.pwr_modSys (f : Sys → Sys) : (d.modSys f).pwr = d.pwr := rfl
@[simp] theorem Dev.ply_modSys (f : Sys → Sys) : (d.modSys f).ply = d.ply := rfl
@[simp] theorem Dev.regs_modSys (f : Sys → Sys) : (d.modSys f).regs = d.regs := rfl

/-- A field depends on the registers alone. -/
theorem Dev.rd_congr {d d' : Dev} (h : d'.regs = d.regs) (n : Nat) (f : Field) : d'.rd n f = d.rd n f := by
  simp only [Dev.rd, Dev.word, h]

end Sys2Proof.Machine
end

