-- ==== Sys2Proof/Laws/Events.lean ====
section
/-!
SUPPORT. What raising an event can do (R38, R39, R41, R47, R372). An event, a message and a recorder trigger touch the
event words of a page, the HIF and FRC pages and the pending bits of MSI-X, the host interface, the recorder, the log of
what left the part and the SEQ of Ply frames: nothing else. Every statement about a command that raises an event rests
on this.
-/

namespace Sys2Proof.Machine

variable {L : Nat → Bool}

theorem Quiet.refl (d : Dev) : Quiet L d d := ⟨fun _ _ => rfl, rfl⟩

theorem Quiet.trans {a b c : Dev} (h : Quiet L a b) (k : Quiet L b c) : Quiet L a c := by
  refine ⟨fun x hx => (k.regs x hx).trans (h.regs x hx), ?_⟩
  rw [k.rest, h.rest]

/-- What writes the HIF and FRC pages and MSI-X alone is quiet as an event is. -/
theorem Quiet.page {d d' : Dev} (h : Quiet loudPage d d') : Quiet loud d d' :=
  ⟨fun a ha => h.regs a (by simp only [loud, Bool.or_eq_false_iff] at ha; exact ha.2), h.rest⟩

/-- What is quiet for fewer registers is quiet for more. -/
theorem Quiet.mono {K : Nat → Bool} {d d' : Dev} (h : Quiet K d d') (hL : ∀ a, K a = true → L a = true) : Quiet L d d' :=
  ⟨fun a ha => h.regs a (by
    by_contra k
    rw [Bool.not_eq_false] at k
    rw [hL a k] at ha; exact absurd ha (by decide)), h.rest⟩

/-- A field outside the event words, the HIF and FRC pages and MSI-X is not loud. -/
def Field.calm (g : Field) (m : Nat) : Bool := !loud (pageIx g.tag m * 4096 + g.off)

theorem Quiet.word {d d' : Dev} (h : Quiet loud d d') (t : Tag) (n off : Nat) (q : loud (pageIx t n * 4096 + off) = false) :
    d'.word t n off = d.word t n off := h.regs _ q

theorem Quiet.rd {d d' : Dev} (h : Quiet loud d d') (m : Nat) (g : Field) (q : g.calm m = true) : d'.rd m g = d.rd m g := by
  simp only [Field.calm, Bool.not_eq_true'] at q
  simp only [Dev.rd, h.word _ _ _ q]

/-- A field of instance m of a block other than HIF and FRC, outside the event words, is calm. -/
theorem Field.calm_of (g : Field) (m : Nat) (ho : g.off < 4096) (h1 : g.off ≠ 0x10) (h2 : g.off ≠ 0x18)
    (hp : pageIx g.tag m ≠ 4) (hf : pageIx g.tag m ≠ 0x900) (hx : pageIx g.tag m ≠ 0xFF) : g.calm m = true := by
  have e1 : (pageIx g.tag m * 4096 + g.off) % 4096 = g.off := by omega
  have e2 : (pageIx g.tag m * 4096 + g.off) / 4096 = pageIx g.tag m := by omega
  simp [Field.calm, loud, loudPage, e1, e2, h1, h2, hp, hf, hx]

/-- A write to a loud register is quiet. -/
theorem quiet_setWord (d : Dev) (t : Tag) (n off : Nat) (w : Word) (h : L (pageIx t n * 4096 + off) = true) :
    Quiet L d (d.setWord t n off w) := by
  refine ⟨fun a ha => AMap.get_set_ne _ _ _ fun e => ?_, rfl⟩
  rw [e, h] at ha; exact absurd ha (by decide)

theorem quiet_wr (d : Dev) (n : Nat) (f : Field) (v : Nat) (h : L (pageIx f.tag n * 4096 + f.off) = true) :
    Quiet L d (d.wr n f v) := quiet_setWord d _ _ _ _ h

theorem quiet_host (d : Dev) (x : HostIf) : Quiet L d { d with host := x } := ⟨fun _ _ => rfl, rfl⟩
theorem quiet_frc (d : Dev) (x : Frc) : Quiet L d { d with frc := x } := ⟨fun _ _ => rfl, rfl⟩
theorem quiet_sent (d : Dev) (x : List Sent) : Quiet L d { d with sent := x } := ⟨fun _ _ => rfl, rfl⟩

theorem quiet_ite {c : Prop} [Decidable c] {d a b : Dev} (ha : c → Quiet L d a) (hb : ¬c → Quiet L d b) :
    Quiet L d (if c then a else b) := by
  split
  · exact ha ‹_›
  · exact hb ‹_›

theorem quiet_foldl {β : Type} (f : Dev → β → Dev) (hf : ∀ d b, Quiet L d (f d b)) (l : List β) (d : Dev) :
    Quiet L d (l.foldl f d) := by
  induction l generalizing d with
  | nil => exact .refl d
  | cons b l ih => exact (hf d b).trans (ih _)

/-! ### Messages -/

theorem quiet_send (d : Dev) (x : Sent) : Quiet L d (d.send x) := quiet_ite (fun _ => .refl d) fun _ => quiet_sent d _

theorem quiet_txSeq (d : Dev) (x : AMap Nat) : Quiet L d { d with ply := { d.ply with txSeq := x } } := ⟨fun _ _ => rfl, rfl⟩

theorem quiet_plySend (d : Dev) (f : PlyFrame) : Quiet L d (d.plySend f) :=
  quiet_ite (fun _ => .refl d) fun _ => (quiet_txSeq d _).trans (quiet_send _ _)

/-- The registers that messages and ring entries write: the HIF page and the MSI-X pending bits. -/
def ringPage (a : Nat) : Bool := a / 4096 = 4 || a / 4096 = 0xFF

theorem loudPage_of_ring (a : Nat) (h : ringPage a = true) : loudPage a = true := by
  simp only [ringPage, loudPage, Bool.or_eq_true, decide_eq_true_eq] at *; tauto

theorem quiet_setMsixPend (d : Dev) (v : Nat) (b : Bool) (h : v / 32 < 1024) : Quiet ringPage d (d.setMsixPend v b) := by
  refine ⟨fun a ha => AMap.get_set_ne _ _ _ fun e => ?_, rfl⟩
  have : (0xFF000 + 4 * (v / 32)) / 4096 = 0xFF := by omega
  simp [ringPage, e, this] at ha

/-- A vector's number is at most 255: EVT_VECMAP holds bytes. -/
theorem quiet_signal (d : Dev) (v : Nat) (h : v < 256) : Quiet ringPage d (d.signal v) :=
  quiet_ite (fun _ => quiet_setMsixPend d v true (by omega)) fun _ => quiet_send d _

theorem vectorOf_lt (d : Dev) (t : Tag) : d.vectorOf t < 256 := by
  unfold Dev.vectorOf
  split
  · decide
  · have h := d.rd_lt 0 (EVT_VECMAP.VEC (t.code - 1))
    have : (EVT_VECMAP.VEC (t.code - 1)).width = 8 := by simp [EVT_VECMAP.VEC, Field.width]; omega
    rw [this] at h; exact h

/-! ### The event ring -/

theorem loud_evt (p off : Nat) (h : off = 0x10 ∨ off = 0x18) : loud (p * 4096 + off) = true := by
  have e : (p * 4096 + off) % 4096 = off := by omega
  rcases h with rfl | rfl <;> simp [loud, e]

theorem quiet_eqPut (d : Dev) (page bit : Nat) (ovf inj : Bool) (count time : Nat) : Quiet ringPage d (d.eqPut page bit ovf inj count time) := by
  have k (x : HostIf) (y : Sent) (v : Nat) :
      Quiet ringPage d ((({ d with host := x } : Dev).send y).wr 0 HIF_EQ_TAIL.IDX v) :=
    ((quiet_host d x).trans (quiet_send _ y)).trans (quiet_wr _ _ _ _ (by decide))
  exact quiet_ite (fun _ => (k _ _ _).trans (quiet_wr _ _ _ _ (by decide))) fun _ => k _ _ _

theorem quiet_setEvIdx (d : Dev) (k v : Nat) : Quiet ringPage d (d.setEvIdx k v) := quiet_host d _

theorem quiet_eqMarker (d : Dev) : Quiet ringPage d d.eqMarker :=
  quiet_ite (fun _ => .refl d) fun _ =>
    ((quiet_eqPut d _ _ _ _ _ _).trans (quiet_host _ _)).trans (quiet_signal _ _ (by decide))

theorem quiet_incSat (d : Dev) (n : Nat) (f : Field) (k : Nat) (h : ringPage (pageIx f.tag n * 4096 + f.off) = true) :
    Quiet ringPage d (d.incSat n f k) := quiet_wr d _ _ _ h

theorem quiet_eqEnter (d : Dev) (t : Tag) (n bit : Nat) (inj : Bool) : Quiet ringPage d (d.eqEnter t n bit inj) := by
  refine quiet_ite (fun _ => quiet_setEvIdx d _ _) fun _ => (quiet_eqMarker d).trans ?_
  refine quiet_ite (fun _ => ?_) fun _ => ?_
  · exact ((quiet_host _ _).trans (quiet_incSat _ _ _ _ (by decide))).trans (quiet_setEvIdx _ _ _)
  · exact ((quiet_eqPut _ _ _ _ _ _ _).trans (quiet_setEvIdx _ _ _)).trans (quiet_signal _ _ (vectorOf_lt _ _))

theorem quiet_eqMerge (d : Dev) (t : Tag) (n bit : Nat) : Quiet ringPage d (d.eqMerge t n bit) := by
  unfold Dev.eqMerge
  extract_lets i mine x d1
  have h : Quiet ringPage d d1 := quiet_host d _
  split
  · exact .refl d
  · split
    · exact h.trans (quiet_send _ _)
    · exact h

theorem quiet_pend (hL : ∀ a, ringPage a = true → L a = true) (d : Dev) (t : Tag) (n bit : Nat) (inj : Bool)
    (hp : L (pageIx t n * 4096 + 0x18) = true) : Quiet L d (d.pend t n bit inj) :=
  quiet_ite (fun _ => (quiet_eqMerge d _ _ _).mono hL) fun _ =>
    (quiet_wr d n (EVT_PEND.PEND t) _ hp).trans ((quiet_eqEnter _ _ _ _ _).mono hL)

theorem quiet_rise (hL : ∀ a, ringPage a = true → L a = true) (d : Dev) (t : Tag) (n bit : Nat)
    (hp : L (pageIx t n * 4096 + 0x18) = true) : Quiet L d (d.rise t n bit) :=
  quiet_ite (fun _ => quiet_pend hL d _ _ _ _ hp) fun _ => .refl d

/-! ### The recorder -/

theorem quiet_frcWr (d : Dev) (f : Field) (v : Nat) (h : f.tag = .frc) (h' : f.off < 4096) : Quiet loudPage d (d.wr 0 f v) := by
  refine quiet_wr d 0 f v ?_
  have e : (pageIx f.tag 0 * 4096 + f.off) / 4096 = 0x900 := by rw [h]; simp [pageIx, Tag.page0]; omega
  simp [loudPage, e]

theorem quiet_frcWr64 (d : Dev) (f g : Field) (v : Nat) (h : f.tag = .frc) (h' : f.off < 4096) (k : g.tag = .frc)
    (k' : g.off < 4096) : Quiet loudPage d (d.wr64 0 f g v) := (quiet_frcWr d f v h h').trans (quiet_frcWr _ g _ k k')

theorem quiet_setFrcReg (d : Dev) (r : Nat) (x : FrcRegion) : Quiet loudPage d (d.setFrcReg r x) := quiet_frc d _

theorem quiet_frcFreeze (d : Dev) (r : Nat) (h : r < 64) : Quiet loudPage d (d.frcFreeze r) := by
  refine quiet_ite (fun _ => .refl d) fun _ => ?_
  refine Quiet.trans (b := d.setFrcReg r { d.frcReg r with frozen := true }) (quiet_setFrcReg d r _) ?_
  refine Quiet.trans (quiet_frcWr _ (FRC_R_A.FROZEN r) _ rfl ?_) (Quiet.trans (quiet_frcWr _ (FRC_R_A.SHORTPRE r) _ rfl ?_)
    (Quiet.trans (quiet_frcWr _ (FRC_R_B.FIRST r) _ rfl ?_) (quiet_frcWr _ (FRC_R_C.TRIGIDX r) _ rfl ?_))) <;>
    simp only [FRC_R_A.FROZEN, FRC_R_A.SHORTPRE, FRC_R_B.FIRST, FRC_R_C.TRIGIDX] <;> omega

theorem quiet_frcCheck (d : Dev) (r : Nat) (h : r < 64) : Quiet loudPage d (d.frcCheck r) :=
  quiet_ite (fun _ => quiet_frcFreeze d r h) fun _ => .refl d

theorem quiet_foldl_mem {β : Type} (f : Dev → β → Dev) (l : List β) (hf : ∀ d, ∀ b ∈ l, Quiet loudPage d (f d b)) (d : Dev) :
    Quiet loudPage d (l.foldl f d) := by
  induction l generalizing d with
  | nil => exact .refl d
  | cons b l ih => exact (hf d b (by simp)).trans (ih (fun d b hb => hf d b (by simp [hb])) _)

theorem frcActive_lt (d : Dev) (r : Nat) (h : r ∈ d.frcActive) : r < 64 := by
  simp only [Dev.frcActive, List.mem_filter, List.mem_range] at h; exact h.1

theorem frcLate_lt (d : Dev) (t r : Nat) (h : r ∈ d.frcLate t) : r < 64 :=
  frcActive_lt d r (List.mem_filter.1 h).1

theorem quiet_frcLog (d : Dev) (src time : Nat) : Quiet loudPage d (d.frcLog src time) := by
  unfold Dev.frcLog
  split
  · exact .refl d
  · next k hk =>
    have hk : k < 8 := by
      have := List.mem_of_find?_eq_some hk; simpa using this
    refine Quiet.trans (quiet_frcWr _ (FRC_TLOG_A.VALID k) _ rfl ?_) (Quiet.trans (quiet_frcWr _ (FRC_TLOG_A.SRC k) _ rfl ?_)
      (quiet_frcWr64 _ (FRC_TLOG_TLO.T k) (FRC_TLOG_THI.T k) _ rfl ?_ rfl ?_)) <;>
      simp only [FRC_TLOG_A.VALID, FRC_TLOG_A.SRC, FRC_TLOG_TLO.T, FRC_TLOG_THI.T] <;> omega

theorem quiet_frcTriggerCore (d : Dev) (src time : Nat) : Quiet loudPage d (d.frcTriggerCore src time).1 := by
  have w (d : Dev) (f : Field) (v : Nat) (h : f.tag = .frc) (h' : f.off < 4096) := quiet_frcWr d f v h h'
  unfold Dev.frcTriggerCore
  extract_lets st
  split
  · exact w d _ _ rfl (by decide)
  · rename_i d1 first earlier d2 d3 late d4 d5 d6 done d7 hst
    have h1 : Quiet loudPage d d1 := (w d FRC_TRIGCNT.COUNT _ rfl (by decide)).trans (quiet_frcLog _ _ _)
    have h2 : Quiet loudPage d1 d2 := quiet_ite (fun _ => w _ _ _ rfl (by decide)) fun _ => .refl _
    have h3 : Quiet loudPage d2 d3 := quiet_ite (fun _ =>
      (quiet_frcWr64 _ _ _ _ rfl (by decide) rfl (by decide)).trans (w _ FRC_STAT.SRC _ rfl (by decide))) fun _ => .refl _
    have h4 : Quiet loudPage d3 d4 := quiet_ite (fun _ => .refl _) fun _ => w _ FRC_STAT.LATE _ rfl (by decide)
    have h5 : Quiet loudPage d4 d5 := quiet_foldl_mem Dev.frcFreeze late (fun d r hr => quiet_frcFreeze d r (frcLate_lt _ _ _ hr)) d4
    have h6 : Quiet loudPage d5 d6 := quiet_foldl_mem Dev.frcCheck _ (fun d r hr => quiet_frcCheck d r (frcActive_lt _ _ hr)) d5
    have h7 : Quiet loudPage d6 d7 := quiet_ite (fun _ => w _ _ _ rfl (by decide)) fun _ => .refl _
    exact (((((h1.trans h2).trans h3).trans h4).trans h5).trans h6).trans h7

theorem quiet_riseTrig (hL : ∀ a, loudPage a = true → L a = true) (fuel : Nat) (d : Dev) (t : Tag) (n bit : Nat)
    (hp : L (pageIx t n * 4096 + 0x18) = true) : Quiet L d (Dev.riseTrig fuel d t n bit) := by
  induction fuel generalizing d t n bit with
  | zero => exact quiet_rise (fun a ha => hL a (loudPage_of_ring a ha)) d t n bit hp
  | succ fuel ih =>
    have h1 := quiet_rise (fun a ha => hL a (loudPage_of_ring a ha)) d t n bit hp
    unfold Dev.riseTrig
    extract_lets d1
    split
    · rename_i st d2 hst
      have h2 : Quiet L d1 d2 := quiet_ite (fun _ => quiet_plySend _ _) fun _ => .refl _
      exact ((h1.trans h2).trans ((quiet_frcTriggerCore _ _ _).mono hL)).trans
        (quiet_foldl _ (fun d b => ih d _ _ b (hL _ (by decide))) _ _)
    · exact h1

theorem loud_of_page (a : Nat) (h : loudPage a = true) : loud a = true := by simp [loud, h]

/-- What raising an event leaves alone. -/
theorem quiet_raise (d : Dev) (n : Nat) (e : Ev) : Quiet loud d (d.raise n e) :=
  quiet_riseTrig loud_of_page 4 d _ _ _ (loud_evt _ _ (.inr rfl))

/-- What a level event leaves alone. -/
theorem quiet_level (d : Dev) (n : Nat) (e : Ev) (b : Bool) : Quiet loud d (d.level n e b) :=
  Quiet.trans (quiet_wr d n (EVT_RAW.RAW e.tag) _ (loud_evt _ _ (.inl rfl)))
    (quiet_ite (fun _ => quiet_riseTrig loud_of_page 4 _ _ _ _ (loud_evt _ _ (.inr rfl))) fun _ => .refl _)

/-- What a trigger leaves alone. -/
theorem quiet_frcTrigger (d : Dev) (src time : Nat) : Quiet loudPage d (d.frcTrigger src time) :=
  (quiet_frcTriggerCore _ _ _).trans
    (quiet_foldl _ (fun d b => quiet_riseTrig (fun _ h => h) 3 d _ _ b (by decide)) _ _)

theorem quiet_frcLocal (d : Dev) (src time : Nat) : Quiet loudPage d (d.frcLocal src time) :=
  quiet_ite (fun _ => .refl d) fun _ =>
    Quiet.trans (quiet_ite (fun _ => quiet_plySend _ _) fun _ => .refl _) (quiet_frcTrigger _ _ _)

/-! ### What an event does to its own page (R47) -/

/-- The EVT words of a page other than HIF and FRC after an event: its EVT_PEND bit is set if EVT_EN has it. -/
theorem word_raise (d : Dev) (n : Nat) (e : Ev) (t : Tag) (m off : Nat) (h : loudPage (pageIx t m * 4096 + off) = false) :
    (d.raise n e).word t m off =
      (if d.bit n (EVT_EN.EN e.tag) e.bit && !d.bit n (EVT_PEND.PEND e.tag) e.bit
        then d.wrBit n (EVT_PEND.PEND e.tag) e.bit true else d).word t m off := by
  have hrise : (d.rise e.tag n e.bit).word t m off =
      (if d.bit n (EVT_EN.EN e.tag) e.bit && !d.bit n (EVT_PEND.PEND e.tag) e.bit
        then d.wrBit n (EVT_PEND.PEND e.tag) e.bit true else d).word t m off := by
    unfold Dev.rise Dev.pend
    by_cases h1 : d.bit n (EVT_EN.EN e.tag) e.bit = true
    · by_cases h2 : d.bit n (EVT_PEND.PEND e.tag) e.bit = true
      · simp only [h1, h2, if_true, Bool.not_true, Bool.and_false, Bool.false_eq_true, if_false]
        exact ((quiet_eqMerge d e.tag n e.bit).mono loudPage_of_ring).regs _ h
      · simp only [h1, h2, if_true, Bool.false_eq_true, if_false, Bool.not_false, Bool.and_self]
        exact ((quiet_eqEnter _ _ _ _ _).mono loudPage_of_ring).regs _ h
    · simp only [h1, Bool.false_eq_true, if_false, Bool.false_and]
  rw [← hrise]
  unfold Dev.raise Dev.riseTrig
  extract_lets d1
  split
  · rename_i st d2 hst
    have h2 : Quiet loudPage d1 d2 := quiet_ite (fun _ => quiet_plySend _ _) fun _ => .refl _
    exact ((h2.trans (quiet_frcTriggerCore _ _ _)).trans
      (quiet_foldl _ (fun d b => quiet_riseTrig (fun _ h => h) 3 d _ _ b (by decide)) _ _)).regs _ h
  · rfl

/-- An enabled event of a page other than HIF and FRC stands in EVT_PEND after it has been raised. -/
theorem pend_raise (d : Dev) (n : Nat) (e : Ev) (h : loudPage (pageIx e.tag n * 4096 + 0x18) = false) (hb : e.bit < 32)
    (he : d.bit n (EVT_EN.EN e.tag) e.bit = true) : (d.raise n e).bit n (EVT_PEND.PEND e.tag) e.bit = true := by
  have hw := word_raise d n e e.tag n 0x18 h
  have hr : (d.raise n e).bit n (EVT_PEND.PEND e.tag) e.bit =
      (if d.bit n (EVT_EN.EN e.tag) e.bit && !d.bit n (EVT_PEND.PEND e.tag) e.bit
        then d.wrBit n (EVT_PEND.PEND e.tag) e.bit true else d).bit n (EVT_PEND.PEND e.tag) e.bit := by
    show (fget 31 0 ((d.raise n e).word e.tag n 0x18)).testBit e.bit = _
    rw [hw]; rfl
  rw [hr, he]
  by_cases h2 : d.bit n (EVT_PEND.PEND e.tag) e.bit = true
  · simp only [h2, Bool.not_true, Bool.and_false, Bool.false_eq_true, if_false]
  · simp only [h2, Bool.not_false, Bool.and_self, if_true]
    exact Dev.bit_wrBit_same _ _ _ _ _ rfl hb

/-! ### The components that events and messages leave alone -/

theorem Quiet.now {d d' : Dev} (h : Quiet L d d') : d'.now = d.now := by rw [h.rest]
theorem Quiet.freeCnt {d d' : Dev} (h : Quiet L d d') : d'.freeCnt = d.freeCnt := by rw [h.rest]
theorem Quiet.edram {d d' : Dev} (h : Quiet L d d') : d'.edram = d.edram := by rw [h.rest]
theorem Quiet.skn {d d' : Dev} (h : Quiet L d d') : d'.skn = d.skn := by rw [h.rest]
theorem Quiet.ctm {d d' : Dev} (h : Quiet L d d') : d'.ctm = d.ctm := by rw [h.rest]
theorem Quiet.ope {d d' : Dev} (h : Quiet L d d') : d'.ope = d.ope := by rw [h.rest]
theorem Quiet.str {d d' : Dev} (h : Quiet L d d') : d'.str = d.str := by rw [h.rest]
theorem Quiet.pt {d d' : Dev} (h : Quiet L d d') : d'.pt = d.pt := by rw [h.rest]
theorem Quiet.ses {d d' : Dev} (h : Quiet L d d') : d'.ses = d.ses := by rw [h.rest]
theorem Quiet.vcm {d d' : Dev} (h : Quiet L d d') : d'.vcm = d.vcm := by rw [h.rest]
theorem Quiet.alc {d d' : Dev} (h : Quiet L d d') : d'.alc = d.alc := by rw [h.rest]
theorem Quiet.thm {d d' : Dev} (h : Quiet L d d') : d'.thm = d.thm := by rw [h.rest]
theorem Quiet.cbl {d d' : Dev} (h : Quiet L d d') : d'.cbl = d.cbl := by rw [h.rest]
theorem Quiet.die {d d' : Dev} (h : Quiet L d d') : d'.die = d.die := by rw [h.rest]
theorem Quiet.lsw {d d' : Dev} (h : Quiet L d d') : d'.lsw = d.lsw := by rw [h.rest]
theorem Quiet.vaux {d d' : Dev} (h : Quiet L d d') : d'.vaux = d.vaux := by rw [h.rest]
theorem Quiet.aux {d d' : Dev} (h : Quiet L d d') : d'.aux = d.aux := by rw [h.rest]
theorem Quiet.key {d d' : Dev} (h : Quiet L d d') : d'.key = d.key := by rw [h.rest]
theorem Quiet.clk {d d' : Dev} (h : Quiet L d d') : d'.clk = d.clk := by rw [h.rest]
theorem Quiet.yarn {d d' : Dev} (h : Quiet L d d') : d'.yarn = d.yarn := by rw [h.rest]
theorem Quiet.stageAt {d d' : Dev} (h : Quiet L d d') : d'.stageAt = d.stageAt := by rw [h.rest]
theorem Quiet.saf {d d' : Dev} (h : Quiet L d d') : d'.saf = d.saf := by rw [h.rest]
theorem Quiet.lgl {d d' : Dev} (h : Quiet L d d') : d'.lgl = d.lgl := by rw [h.rest]
theorem Quiet.sys {d d' : Dev} (h : Quiet L d d') : d'.sys = d.sys := by rw [h.rest]
theorem Quiet.pwr {d d' : Dev} (h : Quiet L d d') : d'.pwr = d.pwr := by rw [h.rest]

@[simp] theorem Dev.now_raise (d : Dev) (n : Nat) (e : Ev) : (d.raise n e).now = d.now := (quiet_raise d n e).now
@[simp] theorem Dev.freeCnt_raise (d : Dev) (n : Nat) (e : Ev) : (d.raise n e).freeCnt = d.freeCnt := (quiet_raise d n e).freeCnt
@[simp] theorem Dev.edram_raise (d : Dev) (n : Nat) (e : Ev) : (d.raise n e).edram = d.edram := (quiet_raise d n e).edram
@[simp] theorem Dev.skn_raise (d : Dev) (n : Nat) (e : Ev) : (d.raise n e).skn = d.skn := (quiet_raise d n e).skn
@[simp] theorem Dev.ctm_raise (d : Dev) (n : Nat) (e : Ev) : (d.raise n e).ctm = d.ctm := (quiet_raise d n e).ctm
@[simp] theorem Dev.ope_raise (d : Dev) (n : Nat) (e : Ev) : (d.raise n e).ope = d.ope := (quiet_raise d n e).ope
@[simp] theorem Dev.str_raise (d : Dev) (n : Nat) (e : Ev) : (d.raise n e).str = d.str := (quiet_raise d n e).str
@[simp] theorem Dev.pt_raise (d : Dev) (n : Nat) (e : Ev) : (d.raise n e).pt = d.pt := (quiet_raise d n e).pt
@[simp] theorem Dev.ses_raise (d : Dev) (n : Nat) (e : Ev) : (d.raise n e).ses = d.ses := (quiet_raise d n e).ses
@[simp] theorem Dev.vcm_raise (d : Dev) (n : Nat) (e : Ev) : (d.raise n e).vcm = d.vcm := (quiet_raise d n e).vcm
@[simp] theorem Dev.alc_raise (d : Dev) (n : Nat) (e : Ev) : (d.raise n e).alc = d.alc := (quiet_raise d n e).alc
@[simp] theorem Dev.thm_raise (d : Dev) (n : Nat) (e : Ev) : (d.raise n e).thm = d.thm := (quiet_raise d n e).thm
@[simp] theorem Dev.cbl_raise (d : Dev) (n : Nat) (e : Ev) : (d.raise n e).cbl = d.cbl := (quiet_raise d n e).cbl
@[simp] theorem Dev.die_raise (d : Dev) (n : Nat) (e : Ev) : (d.raise n e).die = d.die := (quiet_raise d n e).die
@[simp] theorem Dev.lsw_raise (d : Dev) (n : Nat) (e : Ev) : (d.raise n e).lsw = d.lsw := (quiet_raise d n e).lsw
@[simp] theorem Dev.vaux_raise (d : Dev) (n : Nat) (e : Ev) : (d.raise n e).vaux = d.vaux := (quiet_raise d n e).vaux
@[simp] theorem Dev.aux_raise (d : Dev) (n : Nat) (e : Ev) : (d.raise n e).aux = d.aux := (quiet_raise d n e).aux
@[simp] theorem Dev.key_raise (d : Dev) (n : Nat) (e : Ev) : (d.raise n e).key = d.key := (quiet_raise d n e).key
@[simp] theorem Dev.clk_raise (d : Dev) (n : Nat) (e : Ev) : (d.raise n e).clk = d.clk := (quiet_raise d n e).clk
@[simp] theorem Dev.yarn_raise (d : Dev) (n : Nat) (e : Ev) : (d.raise n e).yarn = d.yarn := (quiet_raise d n e).yarn
@[simp] theorem Dev.stageAt_raise (d : Dev) (n : Nat) (e : Ev) : (d.raise n e).stageAt = d.stageAt := (quiet_raise d n e).stageAt
@[simp] theorem Dev.saf_raise (d : Dev) (n : Nat) (e : Ev) : (d.raise n e).saf = d.saf := (quiet_raise d n e).saf
@[simp] theorem Dev.lgl_raise (d : Dev) (n : Nat) (e : Ev) : (d.raise n e).lgl = d.lgl := (quiet_raise d n e).lgl
@[simp] theorem Dev.sys_raise (d : Dev) (n : Nat) (e : Ev) : (d.raise n e).sys = d.sys := (quiet_raise d n e).sys
@[simp] theorem Dev.pwr_raise (d : Dev) (n : Nat) (e : Ev) : (d.raise n e).pwr = d.pwr := (quiet_raise d n e).pwr

@[simp] theorem Dev.now_level (d : Dev) (n : Nat) (e : Ev) (b : Bool) : (d.level n e b).now = d.now := (quiet_level d n e b).now
@[simp] theorem Dev.freeCnt_level (d : Dev) (n : Nat) (e : Ev) (b : Bool) : (d.level n e b).freeCnt = d.freeCnt := (quiet_level d n e b).freeCnt
@[simp] theorem Dev.edram_level (d : Dev) (n : Nat) (e : Ev) (b : Bool) : (d.level n e b).edram = d.edram := (quiet_level d n e b).edram
@[simp] theorem Dev.skn_level (d : Dev) (n : Nat) (e : Ev) (b : Bool) : (d.level n e b).skn = d.skn := (quiet_level d n e b).skn
@[simp] theorem Dev.ctm_level (d : Dev) (n : Nat) (e : Ev) (b : Bool) : (d.level n e b).ctm = d.ctm := (quiet_level d n e b).ctm
@[simp] theorem Dev.ope_level (d : Dev) (n : Nat) (e : Ev) (b : Bool) : (d.level n e b).ope = d.ope := (quiet_level d n e b).ope
@[simp] theorem Dev.str_level (d : Dev) (n : Nat) (e : Ev) (b : Bool) : (d.level n e b).str = d.str := (quiet_level d n e b).str
@[simp] theorem Dev.pt_level (d : Dev) (n : Nat) (e : Ev) (b : Bool) : (d.level n e b).pt = d.pt := (quiet_level d n e b).pt
@[simp] theorem Dev.ses_level (d : Dev) (n : Nat) (e : Ev) (b : Bool) : (d.level n e b).ses = d.ses := (quiet_level d n e b).ses
@[simp] theorem Dev.vcm_level (d : Dev) (n : Nat) (e : Ev) (b : Bool) : (d.level n e b).vcm = d.vcm := (quiet_level d n e b).vcm
@[simp] theorem Dev.alc_level (d : Dev) (n : Nat) (e : Ev) (b : Bool) : (d.level n e b).alc = d.alc := (quiet_level d n e b).alc
@[simp] theorem Dev.thm_level (d : Dev) (n : Nat) (e : Ev) (b : Bool) : (d.level n e b).thm = d.thm := (quiet_level d n e b).thm
@[simp] theorem Dev.cbl_level (d : Dev) (n : Nat) (e : Ev) (b : Bool) : (d.level n e b).cbl = d.cbl := (quiet_level d n e b).cbl
@[simp] theorem Dev.die_level (d : Dev) (n : Nat) (e : Ev) (b : Bool) : (d.level n e b).die = d.die := (quiet_level d n e b).die
@[simp] theorem Dev.lsw_level (d : Dev) (n : Nat) (e : Ev) (b : Bool) : (d.level n e b).lsw = d.lsw := (quiet_level d n e b).lsw
@[simp] theorem Dev.vaux_level (d : Dev) (n : Nat) (e : Ev) (b : Bool) : (d.level n e b).vaux = d.vaux := (quiet_level d n e b).vaux
@[simp] theorem Dev.aux_level (d : Dev) (n : Nat) (e : Ev) (b : Bool) : (d.level n e b).aux = d.aux := (quiet_level d n e b).aux
@[simp] theorem Dev.key_level (d : Dev) (n : Nat) (e : Ev) (b : Bool) : (d.level n e b).key = d.key := (quiet_level d n e b).key
@[simp] theorem Dev.clk_level (d : Dev) (n : Nat) (e : Ev) (b : Bool) : (d.level n e b).clk = d.clk := (quiet_level d n e b).clk
@[simp] theorem Dev.yarn_level (d : Dev) (n : Nat) (e : Ev) (b : Bool) : (d.level n e b).yarn = d.yarn := (quiet_level d n e b).yarn
@[simp] theorem Dev.stageAt_level (d : Dev) (n : Nat) (e : Ev) (b : Bool) : (d.level n e b).stageAt = d.stageAt := (quiet_level d n e b).stageAt
@[simp] theorem Dev.saf_level (d : Dev) (n : Nat) (e : Ev) (b : Bool) : (d.level n e b).saf = d.saf := (quiet_level d n e b).saf
@[simp] theorem Dev.lgl_level (d : Dev) (n : Nat) (e : Ev) (b : Bool) : (d.level n e b).lgl = d.lgl := (quiet_level d n e b).lgl
@[simp] theorem Dev.sys_level (d : Dev) (n : Nat) (e : Ev) (b : Bool) : (d.level n e b).sys = d.sys := (quiet_level d n e b).sys
@[simp] theorem Dev.pwr_level (d : Dev) (n : Nat) (e : Ev) (b : Bool) : (d.level n e b).pwr = d.pwr := (quiet_level d n e b).pwr

theorem Dev.rd_raise (d : Dev) (n : Nat) (e : Ev) (m : Nat) (g : Field) (h : g.calm m = true) : (d.raise n e).rd m g = d.rd m g :=
  (quiet_raise d n e).rd m g h

theorem Dev.rd_level (d : Dev) (n : Nat) (e : Ev) (b : Bool) (m : Nat) (g : Field) (h : g.calm m = true) :
    (d.level n e b).rd m g = d.rd m g := (quiet_level d n e b).rd m g h

end Sys2Proof.Machine
end

