-- ==== Sys2Proof/Laws/Frame.lean ====
section
/-!
SUPPORT. What the commands that reach the memories leave alone: one lemma per shared operation.
-/

namespace Sys2Proof.Machine

/-- What every command does to the queue and the MRAM: an outcome that is a next state with both unchanged. -/
def Keeps (s : State) (o : Host.Outcome State Fault Refusal) : Prop :=
  ∃ u, o = .next u ∧ u.pending = s.pending ∧ u.mem.mram = s.mem.mram

/-- An outcome that is a next state with the queue and both memories unchanged. -/
def KeepsMem (s : State) (o : Host.Outcome State Fault Refusal) : Prop :=
  ∃ u, o = .next u ∧ u.pending = s.pending ∧ u.mem = s.mem

/-- An outcome that is a next state whose shared buffers are the old ones with bytes written, a range cleared, or empty. -/
inductive SramStep : AMap Byte → AMap Byte → Prop where
  | same (m : AMap Byte) : SramStep m m
  | bytes (m : AMap Byte) (a : Nat) (bs : List Byte) : SramStep m (m.setBytes a bs)
  | clear (m : AMap Byte) (bad : List Nat) : SramStep m (bad.foldl (fun m b => m.clearRange (b * 2 ^ 20) (2 ^ 20)) m)
  | empty (m : AMap Byte) : SramStep m []

theorem SramStep.wf {m m' : AMap Byte} (h : SramStep m m') (w : AMap.wf (fun _ => 0#8) m = true) :
    AMap.wf (fun _ => 0#8) m' = true := by
  cases h with
  | same => exact w
  | bytes a bs => exact AMap.wf_setBytes _ _ _ w
  | clear bad =>
    induction bad generalizing m with
    | nil => exact w
    | cons b bad ih => exact ih (AMap.wf_clearRange _ _ _ _ w)
  | empty => rfl

/-- An outcome with the queue and the MRAM unchanged, whose shared buffers took one `SramStep`. -/
def KeepsSram (s : State) (o : Host.Outcome State Fault Refusal) : Prop :=
  ∃ u, o = .next u ∧ u.pending = s.pending ∧ u.mem.mram = s.mem.mram ∧ SramStep s.mem.sram u.mem.sram

theorem KeepsMem.sram {s : State} {o : Host.Outcome State Fault Refusal} (h : KeepsMem s o) : KeepsSram s o := by
  obtain ⟨u, h1, h2, h3⟩ := h
  exact ⟨u, h1, h2, by rw [h3], by rw [h3]; exact .same _⟩

/-- A command that answers the block alone, beside the state's memories. -/
theorem keepsSram_devOnly (s : State) (d : Dev) : KeepsSram s (.next { s with dev := d }) := ⟨_, rfl, rfl, rfl, .same _⟩

theorem keepsMem_onDev (t : Nat) (f : Dev → Dev) (s : State) : KeepsMem s (onDev t f s) := ⟨_, rfl, rfl, rfl⟩

theorem keepsSram_rxStore (s s' : State) (r : Option (Nat × List Byte) × Dev) (hp : s'.pending = s.pending) (hm : s'.mem = s.mem) :
    KeepsSram s (.next (s'.rxStore r)) := by
  refine ⟨_, rfl, ?_⟩
  unfold State.rxStore
  split
  · exact ⟨hp, by simp [hm], by simp only [hm]; exact .bytes _ _ _⟩
  · exact ⟨hp, by simp [hm], by simp only [hm]; exact .same _⟩

theorem keepsSram_cast (s s' : State) (d : Dev) (c : RstClass) (cause : Nat) (back : List Nat) (hp : s'.pending = s.pending)
    (hm : s'.mem = s.mem) : KeepsSram s (.next (s'.cast d c cause back)) := by
  refine ⟨_, rfl, hp, ?_, ?_⟩
  · unfold State.cast; split <;> simp [hm]
  · unfold State.cast; split <;> simp only [hm]
    · exact .same _
    · exact .empty _

theorem keepsSram_bar2Write (s s' : State) (a : Nat) (bs : List Byte) (hp : s'.pending = s.pending) (hm : s'.mem = s.mem) :
    (s'.bar2Write a bs).pending = s.pending ∧ (s'.bar2Write a bs).mem.mram = s.mem.mram ∧
      SramStep s.mem.sram (s'.bar2Write a bs).mem.sram := by
  unfold State.bar2Write
  split
  · exact ⟨hp, by simp [hm], by simp only [hm]; exact .bytes _ _ _⟩
  · exact ⟨hp, by rw [hm], by rw [hm]; exact .same _⟩

theorem keepsSram_hostWrite (p : Port) (a : HostAddr) (v : Word) (s s' : State) (hp : s'.pending = s.pending)
    (hm : s'.mem = s.mem) : KeepsSram s (.next (hostWrite p a v s')) := by
  refine ⟨_, rfl, ?_⟩
  unfold hostWrite
  extract_lets d0 d
  split
  · exact ⟨hp, by rw [hm], by rw [hm]; exact .same _⟩
  · exact keepsSram_bar2Write s _ _ _ hp hm
  · exact keepsSram_bar2Write s _ _ _ hp hm
  · exact ⟨hp, by rw [hm], by rw [hm]; exact .same _⟩
  · exact ⟨hp, by rw [hm], by rw [hm]; exact .same _⟩
  · split
    · exact ⟨hp, by rw [hm], by rw [hm]; exact .same _⟩
    · split <;> exact ⟨hp, by rw [hm], by rw [hm]; exact .same _⟩

/-- A host write to BAR0 touches neither memory. -/
theorem keepsMem_onHost (t : Nat) (p : Port) (a : Nat) (v : Word) (s : State) : KeepsMem s (onHost t p (.bar0 a) v s) := by
  refine ⟨_, rfl, ?_⟩
  unfold hostWrite
  extract_lets d0 d
  split
  all_goals rename_i e
  all_goals first | exact And.intro rfl rfl | contradiction | skip
  split
  · exact And.intro rfl rfl
  · split <;> constructor <;> rfl

theorem keepsMem_onHeader (t : Nat) (p : Port) (b : Tag) (n off : Nat) (v : Word) (s : State) :
    KeepsMem s (onHeader t p b n off v s) := by
  unfold onHeader
  split
  · exact keepsMem_onHost t p _ v s
  · exact keepsMem_onDev t id s

theorem keepsSram_onCry (t slot func : Nat) (f : Op → List Byte → Dev → CryOut) (s : State) : KeepsSram s (onCry t slot func f s) := by
  unfold onCry
  extract_lets d
  split
  · split
    · extract_lets r
      refine ⟨_, rfl, rfl, ?_, ?_⟩ <;> unfold cryStore
      · split
        · split <;> rfl
        · rfl
      · split
        · split
          · exact .bytes _ _ _
          · exact .same _
        · exact .same _
    · exact (keepsMem_onDev t id s).sram
  · exact (keepsMem_onDev t id s).sram

theorem keepsSram_capRead (t : Nat) (slot : Fin 384) (s : State) : KeepsSram s (execCapRead t slot s) := by
  unfold execCapRead
  extract_lets d
  repeat' split
  all_goals first | exact keepsSram_devOnly s _ | exact ⟨_, rfl, rfl, rfl, .bytes _ _ _⟩

theorem keepsSram_nvmRead (t : Nat) (slot : Fin 384) (s : State) : KeepsSram s (execNvmRead t slot s) := by
  unfold execNvmRead
  extract_lets d
  repeat' split
  all_goals first | exact keepsSram_devOnly s _ | exact ⟨_, rfl, rfl, rfl, .bytes _ _ _⟩

/-- NVM_WRITE writes bytes of the MRAM or nothing, and leaves the shared buffers alone. -/
theorem nvmWrite_outcome (t : Nat) (slot : Fin 384) (s : State) :
    ∃ u, execNvmWrite t slot s = .next u ∧ u.pending = s.pending ∧ u.mem.sram = s.mem.sram ∧
      (u.mem.mram = s.mem.mram ∨ ∃ a bs, u.mem.mram = s.mem.mram.setBytes a bs) := by
  unfold execNvmWrite
  extract_lets d
  repeat' split
  all_goals refine ⟨_, rfl, rfl, rfl, ?_⟩
  all_goals first | exact Or.inl rfl | exact Or.inr ⟨_, _, rfl⟩

theorem keepsMem_mgmtWrite (m : MgmtBus) (v : Word) (pecOk : Bool) (s : State) :
    KeepsMem s (execMgmtWrite m v pecOk s) := by
  unfold execMgmtWrite
  extract_lets d s1
  split
  · rename_i a s2 hh
    obtain ⟨u, h1, h2, h3⟩ := keepsMem_onHost m.t .mgmt a v s
    have h : hostWrite .mgmt (.bar0 a) v s1 = u := Host.Outcome.next.inj h1
    have h' : s2 = u := h
    exact ⟨_, rfl, by rw [h']; exact h2, by rw [h']; exact h3⟩
  · exact ⟨_, rfl, rfl, rfl⟩

theorem keepsSram_pwrEntryAdvance (t : Nat) (s : State) : KeepsSram s (execPwrEntryAdvance t s) := by
  refine ⟨_, rfl, rfl, ?_, ?_⟩ <;> simp only
  · split <;> rfl
  · split
    · exact .empty _
    · exact .same _

theorem keepsSram_dieOff (t : Nat) (s : State) : KeepsSram s (execDieShutdownDomainsOff t s) := by
  unfold execDieShutdownDomainsOff
  extract_lets d
  split
  · split
    · exact keepsSram_devOnly s _
    · exact ⟨_, rfl, rfl, rfl, .empty _⟩
  · exact keepsSram_devOnly s _

theorem keepsSram_modSys {s s' : State} (f : Sys → Sys) (h : KeepsSram s (.next s')) :
    KeepsSram s (.next { s' with dev := s'.dev.modSys f }) := by
  obtain ⟨u, h1, h2, h3, h4⟩ := h
  obtain rfl := Host.Outcome.next.inj h1
  exact ⟨_, rfl, h2, h3, h4⟩

theorem keepsSram_thermalRestart (t : Nat) (s : State) : KeepsSram s (execThermalRestart t s) := by
  unfold execThermalRestart
  extract_lets d
  split
  · split
    · exact keepsSram_modSys _ (keepsSram_cast s s d _ _ _ rfl rfl)
    · exact keepsSram_devOnly s _
  · exact keepsSram_devOnly s _

theorem keepsSram_domainWake (t sramBad edramBad : Nat) (s : State) : KeepsSram s (execDomainWake t sramBad edramBad s) := by
  unfold execDomainWake
  extract_lets d up core sram edram d1 ret off d2 s1 d3 d4 d5 d6 bad d7
  split
  · exact keepsSram_devOnly s _
  · split
    · exact keepsSram_modSys _ (keepsSram_cast s s _ _ _ _ rfl rfl)
    · split
      · exact keepsSram_cast s s _ _ _ _ rfl rfl
      · exact ⟨_, rfl, rfl, rfl, .clear _ _⟩

theorem keepsSram_railInvalid (t : Nat) (r : Rail) (s : State) : KeepsSram s (execRailInvalid t r s) := by
  refine ⟨_, rfl, rfl, ?_, ?_⟩ <;> simp only
  · split <;> rfl
  · split
    · exact .empty _
    · exact .same _

theorem keepsSram_sfcTx (t : Nat) (m : Fin 64) (s : State) : KeepsSram s (execSfcTx t m s) := by
  unfold execSfcTx
  extract_lets d
  split
  · exact keepsSram_rxStore s s _ rfl rfl
  · exact keepsSram_devOnly s _

theorem keepsSram_tunRx (t : Nat) (k : Fin 12) (f : List Byte) (s : State) : KeepsSram s (execTunRx t k f s) := by
  unfold execTunRx
  extract_lets d home x
  split
  · exact keepsSram_devOnly s _
  · split
    · exact keepsSram_rxStore s s _ rfl rfl
    · exact keepsSram_devOnly s _

theorem keepsSram_rxYarn (t : Nat) (slot : Fin 384) (s : State) : KeepsSram s (execRxYarn t slot s) := by
  unfold execRxYarn
  extract_lets d
  split
  · split
    · exact keepsSram_rxStore s s _ rfl rfl
    · exact keepsSram_devOnly s _
  · exact keepsSram_devOnly s _

end Sys2Proof.Machine
end

