-- ==== Sys2Proof/Laws/Host.lean ====
section
/-!
SUPPORT. The laws of host writes: a write that reaches its page is the page's write, a rejected one changes ERRINFO alone,
and which reason is recorded.
-/

namespace Sys2Proof.Machine

/-! ### Reaching a page -/

theorem mem_tag_all (t : Tag) : t ∈ Tag.all := by cases t <;> decide

theorem pages_table :
    (Tag.all.all fun t => (List.range t.count).all fun n => decide (pageOf (pageIx t n) = some (t, n))) = true := rfl

theorem pageOf_pageIx (t : Tag) (n : Nat) (h : n < t.count) : pageOf (pageIx t n) = some (t, n) := by
  have h1 := List.all_eq_true.1 pages_table t (mem_tag_all t)
  exact of_decide_eq_true (List.all_eq_true.1 h1 n (List.mem_range.2 h))

/-- The pages keep clear of the MSI-X table and its pending bits (R414). -/
theorem pageIx_ne_msix (t : Tag) (n : Nat) (h : n < t.count) : pageIx t n ≠ 0xFE ∧ pageIx t n ≠ 0xFF := by
  cases t <;> simp only [Tag.count] at h <;> simp only [pageIx, Tag.page0] <;> constructor <;> omega

theorem inMsix_reg (t : Tag) (n off : Nat) (h : n < t.count) (ho : off < 4096) : inMsix (pageIx t n * 4096 + off) = false := by
  have := pageIx_ne_msix t n h
  simp only [inMsix, Bool.or_eq_false_iff, Bool.and_eq_false_iff, decide_eq_false_iff_not]
  omega

/-- A host write that reaches its page is the page's write, and touches neither memory nor the queue. -/
theorem onHost_reached (t : Nat) (p : Port) (b : Tag) (n off : Nat) (v : Word) (s : State) (ho : off < 4096)
    (h : (Dev.arrive t p s.dev).reached p b n off) :
    onHost t p (regAddr b n off) v s =
      .next { s with dev := (Dev.arrive t p s.dev).pageWrite s.mem.sram p b n off v } := by
  obtain ⟨hn, hf⟩ := h
  have e : (pageIx b n * 4096 + off) / 4096 = pageIx b n := by omega
  have e' : (pageIx b n * 4096 + off) % 4096 = off := by omega
  have hf' : (if p = Port.pcie then { Dev.at t s.dev with host := { (Dev.at t s.dev).host with d3 := false } }
      else Dev.at t s.dev).accessFault p true (.bar0 (pageIx b n * 4096 + off)) 4 = none := hf
  simp only [onHost, hostWrite, regAddr, hf', inMsix_reg b n off hn ho, Bool.false_eq_true, if_false, e, pageOf_pageIx b n hn, e']
  rfl

theorem onHeader_reached (t : Nat) (p : Port) (b : Tag) (n off : Nat) (v : Word) (s : State) (ho : off < 4096)
    (h : (Dev.arrive t p s.dev).reached p b n off) :
    onHeader t p b n off v s =
      .next { s with dev := (Dev.arrive t p s.dev).pageWrite s.mem.sram p b n off v } := by
  rw [onHeader, if_pos h.1, onHost_reached t p b n off v s ho h]

/-! ### Reasons -/

@[simp] theorem failIf_false (c : Nat) : failIf false c = [] := rfl
@[simp] theorem failIf_true (c : Nat) : failIf true c = [c] := rfl

@[simp] theorem checked_nil_ok (d : Dev) : checked [] (.ok d) = .ok d := rfl
@[simp] theorem checked_nil_error (c : Nat) : checked [] (.error c) = .error c := rfl

theorem firstReason_cons (c : Nat) (cs : List Nat) : ∃ x ∈ c :: cs, firstReason (c :: cs) = some x := by
  induction cs generalizing c with
  | nil => exact ⟨c, by simp, rfl⟩
  | cons a cs ih =>
    obtain ⟨x, hx, e⟩ := ih a
    rw [firstReason, e]
    simp only
    split
    · exact ⟨c, by simp, rfl⟩
    · exact ⟨x, by simp only [List.mem_cons] at hx ⊢; tauto, rfl⟩

/-- A write whose checks fail is rejected. -/
theorem checked_cons (c : Nat) (cs : List Nat) (go : Except Nat Dev) : ∃ x, checked (c :: cs) go = .error x := by
  obtain ⟨x, _, e⟩ := firstReason_cons c (cs ++ (match go with | .error c => [c] | .ok _ => []))
  refine ⟨x, ?_⟩
  unfold checked
  cases go <;> simp only [List.cons_append] <;> simp only at e <;> rw [e]

/-- The reason that alone fails is the one recorded. -/
theorem checked_one (c : Nat) (d : Dev) : checked [c] (.ok d) = .error c := rfl

theorem checked_nil (go : Except Nat Dev) : checked [] go = go := by cases go <;> rfl

/-- What a page holds after a write whose checks and effect are known: the effect, counted, or the rejection. -/
def Dev.settle (d : Dev) (t : Tag) (n off : Nat) : Except Nat Dev → Dev
  | .ok e => e.took t n off
  | .error c => d.reject t n off c

@[simp] theorem Dev.settle_ok (d e : Dev) (t : Tag) (n off : Nat) : d.settle t n off (.ok e) = e.took t n off := rfl
@[simp] theorem Dev.settle_error (d : Dev) (t : Tag) (n off c : Nat) : d.settle t n off (.error c) = d.reject t n off c := rfl

/-- A write that passes the common checks sets no reserved bit: over a register whose fields fill its low m bits the
written value is below 2^m. -/
theorem mod_of_passes (d : Dev) (t : Tag) (n off : Nat) (v : Word) (m : Nat) (h : d.passes t n off v = true) (r : RegFam)
    (hs : slotAt t n off = .reg r) (hm : r.mask (fun _ => true) = 2 ^ m - 1) : v.toNat % 2 ^ m = v.toNat := by
  unfold Dev.passes at h
  rw [hs] at h
  simp only [Bool.and_eq_true, Bool.not_eq_true', bitsOutside, hm] at h
  have h5 := h.1.2
  simp only [ne_eq, decide_not, Bool.not_eq_false', decide_eq_true_eq] at h5
  have : v.toNat &&& (2 ^ m - 1) = v.toNat % 2 ^ m := Nat.and_two_pow_sub_one_eq_mod _ _
  have h6 : v.toNat = v.toNat &&& (2 ^ m - 1) := h5
  omega

/-- A write of a register with a step of its own that passes the common checks is that step. -/
theorem pageWrite_special (d : Dev) (sram : AMap Byte) (p : Port) (t : Tag) (n off : Nat) (v : Word) (go : Except Nat Dev)
    (h : d.passes t n off v = true) (hg : ∀ w, d.regSpecial sram p t n off v w = some go) (ha : ¬(t = .hif ∧ off = 0x74)) :
    d.pageWrite sram p t n off v = d.settle t n off go := by
  unfold Dev.passes at h
  split at h
  · next r hs =>
    simp only [Bool.and_eq_true, Bool.not_eq_true'] at h
    obtain ⟨⟨⟨⟨⟨h1, h2⟩, h3⟩, h4⟩, h5⟩, h6⟩ := h
    have ha' : (decide (t = .hif) && decide (off = 0x74)) = false := by
      rw [Bool.and_eq_false_iff, decide_eq_false_iff_not, decide_eq_false_iff_not]; tauto
    have e : d.blockWrite sram p t n off r v = go.map fun d => if r.lockable then d.seqInc t n else d := by
      unfold Dev.blockWrite
      simp only [hg, Option.getD_some, ha', Bool.false_eq_true, if_false, h1, h2, h3, h4, h5, h6, failIf_false,
        List.append_nil, checked_nil]
    unfold Dev.pageWrite
    simp only [hs, e]
    cases go with
    | error c => rfl
    | ok e => simp only [Except.map, Dev.settle_ok, Dev.took, counted, hs]
  · exact absurd h (by decide)

/-! ### A rejected write -/

theorem RegsOnly.refl (d : Dev) : RegsOnly d d := rfl

theorem RegsOnly.trans {a b c : Dev} (h : RegsOnly a b) (k : RegsOnly b c) : RegsOnly a c := by
  unfold RegsOnly at h k ⊢
  rw [k, h]

theorem regsOnly_setWord (d : Dev) (t : Tag) (n off : Nat) (w : Word) : RegsOnly d (d.setWord t n off w) := rfl
theorem regsOnly_wr (d : Dev) (n : Nat) (f : Field) (v : Nat) : RegsOnly d (d.wr n f v) := regsOnly_setWord d _ _ _ _

theorem regsOnly_reject (d : Dev) (t : Tag) (n off code : Nat) : RegsOnly d (d.reject t n off code) :=
  ((regsOnly_wr d _ _ _).trans (regsOnly_wr _ _ _ _)).trans (regsOnly_wr _ _ _ _)

theorem rejected_reject (d : Dev) (t : Tag) (n off code : Nat) (ho : off < 4096) (hc : code < 256) :
    d.rejected (d.reject t n off code) t n off code := by
  have hC : (ERRINFO.COUNT t).ok = true := rfl
  have hR : (ERRINFO.REASON t).ok = true := rfl
  have hO : (ERRINFO.OFFSET t).ok = true := rfl
  refine ⟨?_, ?_, ?_, ?_, regsOnly_reject d t n off code⟩
  · rw [Dev.reject, Dev.rd_wr_apart _ _ _ _ _ _ hO hR rfl, Dev.rd_wr_same _ _ _ _ hR]
    rw [show (ERRINFO.REASON t).width = 8 from rfl]; exact Nat.mod_eq_of_lt hc
  · rw [Dev.reject, Dev.rd_wr_same _ _ _ _ hO]
    rw [show (ERRINFO.OFFSET t).width = 12 from rfl]; exact Nat.mod_eq_of_lt ho
  · rw [Dev.reject, Dev.rd_wr_apart _ _ _ _ _ _ hO hC rfl, Dev.rd_wr_apart _ _ _ _ _ _ hR hC rfl,
      Dev.rd_incSat_same _ _ _ _ hC, show (ERRINFO.COUNT t).width = 8 from rfl]
    norm_num
  · intro a ha
    have ha' : a ≠ pageIx t n * 4096 + 0x28 := by simpa using ha
    exact (Dev.regs_wr_ne _ n (ERRINFO.OFFSET t) off a ha').trans ((Dev.regs_wr_ne _ n (ERRINFO.REASON t) code a ha').trans
      (Dev.regs_wr_ne _ n (ERRINFO.COUNT t) _ a ha'))

end Sys2Proof.Machine
end

