-- ==== Sys2Proof/Laws/HostWrites.lean ====
section
/-!
SUPPORT. The laws of single host writes: header registers, pending events bit by bit, which registers have a step of
their own, and what a block soft reset leaves.
-/

namespace Sys2Proof.Machine

/-! ### Which registers have a step of their own -/

def roAt (b : Tag) (n off : Nat) : Bool := match slotAt b n off with | .reg r => r.readOnly | _ => false

theorem lgl_window : (List.range 1024).all (fun i => !roAt .lgl 0 (0x400 + i)) = true := by decide +kernel

theorem slotAt_count (t : Tag) (n off : Nat) (h : t ≠ .ply) : slotAt t n off = slotAt t 0 off := by
  have : famAt t n = famAt t 0 := by
    funext off; unfold famAt; simp [h]
  unfold slotAt; rw [this]

theorem special_none (d : Dev) (sram : AMap Byte) (p : Port) (b : Tag) (n off : Nat) (v w : Word) (hn : n < b.count)
    (hro : roAt b n off = true) (hx : ¬(b = .hif ∧ off = 0x74)) :
    d.regSpecial sram p b n off v w = none := by
  by_cases hp : b = .ply
  · subst hp
    unfold Dev.regSpecial
    have hn : n = 0 ∨ n = 1 := by simp [Tag.count] at hn; omega
    rcases hn with rfl | rfl <;> simp only <;> split
    · next h => subst h; exact absurd hro (by decide)
    · split
      · next h => subst h; exact absurd hro (by decide)
      · rfl
    · next h => subst h; exact absurd hro (by decide)
    · split
      · next h => subst h; exact absurd hro (by decide)
      · rfl
  have hro0 : roAt b 0 off = true := by rw [← hro]; unfold roAt; rw [← slotAt_count b n off hp]
  clear hro
  unfold Dev.regSpecial
  cases b
  case ply => exact absurd rfl hp
  case lgl =>
    simp only
    split
    · next h =>
      rw [Bool.or_eq_true, Bool.and_eq_true, decide_eq_true_eq, decide_eq_true_eq, decide_eq_true_eq] at h
      rcases h with rfl | ⟨h1, h2⟩
      · exact absurd hro0 (by decide)
      · have := List.all_eq_true.1 lgl_window (off - 0x400) (List.mem_range.2 (by omega))
        rw [show 0x400 + (off - 0x400) = off by omega, hro0] at this
        exact absurd this (by decide)
    · rfl
  case ses =>
    simp only
    split
    · next h => subst h; exact absurd hro0 (by decide)
    · split
      · next h =>
        rw [Bool.and_eq_true, decide_eq_true_eq, decide_eq_true_eq] at h
        have hall : ∀ o : Fin 17, roAt .ses 0 (0x480 + o) = false := by decide
        have := hall ⟨off - 0x480, by omega⟩
        simp only at this
        rw [show 0x480 + (off - 0x480) = off by omega, hro0] at this
        exact absurd this (by decide)
      · rfl
  case hif =>
    simp only
    split
    · next h => subst h; exact absurd hro0 (by decide)
    · split
      · next h => subst h; exact absurd hro0 (by decide)
      · split
        · next h => subst h; exact absurd hro0 (by decide)
        · split
          · next h => exact absurd ⟨rfl, h⟩ hx
          · rfl
  all_goals simp only
  all_goals split
  all_goals first | rfl | (rename_i h; subst h; exact absurd hro0 (by decide)) | skip
  all_goals split
  all_goals first | rfl | (rename_i h; subst h; exact absurd hro0 (by decide))

/-! ### Header registers -/

theorem slot_header (b : Tag) (n off : Nat) (h : off < 0x30) : slotAt b n off = .header := if_pos h

theorem pageWrite_header (d : Dev) (sram : AMap Byte) (p : Port) (t : Tag) (n off : Nat) (v : Word) (h : off < 0x30) :
    d.pageWrite sram p t n off v = (match d.headerWrite t n off v with | .ok d => d | .error c => d.reject t n off c) := by
  unfold Dev.pageWrite; simp only [slot_header t n off h] <;> rfl

theorem bit_setEvIdx (d : Dev) (k v n i : Nat) (f : Field) : (d.setEvIdx k v).bit n f i = d.bit n f i := rfl
theorem regs_setEvIdx (d : Dev) (k v : Nat) : (d.setEvIdx k v).regs = d.regs := rfl
theorem sent_setEvIdx (d : Dev) (k v : Nat) : (d.setEvIdx k v).sent = d.sent := rfl
/-- Clearing pending events one after the other. -/
theorem pendClear_fold (t : Tag) (n : Nat) (l : List Nat) (hl : ∀ b ∈ l, b < 32) (d : Dev) :
    let e := l.foldl (fun d b => (d.wrBit n (EVT_PEND.PEND t) b false).setEvIdx (evKey t n b) 0) d
    (∀ i, e.bit n (EVT_PEND.PEND t) i = (d.bit n (EVT_PEND.PEND t) i && !decide (i ∈ l))) ∧
    SameRegs (fun a => a = pageIx t n * 4096 + 0x18) d e ∧ e.sent = d.sent ∧ Quiet loud d e := by
  induction l generalizing d with
  | nil => exact ⟨fun i => by simp, fun a _ => rfl, rfl, .refl _⟩
  | cons b l ih =>
    intro e
    obtain ⟨h1, h2, h3, h4⟩ := ih (fun b hb => hl b (by simp [hb])) ((d.wrBit n (EVT_PEND.PEND t) b false).setEvIdx (evKey t n b) 0)
    refine ⟨fun i => ?_, fun a ha => ?_, h3.trans (by rw [sent_setEvIdx, Dev.sent_wrBit]), ?_⟩
    · have : ((d.wrBit n (EVT_PEND.PEND t) b false).setEvIdx (evKey t n b) 0).bit n (EVT_PEND.PEND t) i =
        (if i = b then false else d.bit n (EVT_PEND.PEND t) i) := by
        rw [bit_setEvIdx]; exact Dev.bit_wrBit d n (EVT_PEND.PEND t) b i false rfl (hl b (by simp))
      refine (h1 i).trans ?_
      rw [this]
      by_cases hi : i = b <;> simp [hi]
    · refine (h2 a ha).trans ?_
      rw [regs_setEvIdx]
      exact Dev.regs_wr_ne d n (EVT_PEND.PEND t) _ a (by simpa [EVT_PEND.PEND] using ha)
    · exact Quiet.trans ((quiet_wr d n (EVT_PEND.PEND t) _ (loud_evt _ _ (.inr rfl))).trans (quiet_host _ _)) h4

theorem mem_bitsOf (v : Word) (i : Nat) (h : i < 32) : decide (i ∈ bitsOf v) = v.getLsbD i := by
  simp only [bitsOf, List.mem_filter, List.mem_range, h, true_and]
  simp

theorem bitsOf_lt (v : Word) : ∀ b ∈ bitsOf v, b < 32 := by
  intro b hb; simp only [bitsOf, List.mem_filter, List.mem_range] at hb; exact hb.1

def pendL (t : Tag) (n a : Nat) : Bool := a = pageIx t n * 4096 + 0x18 || a / 4096 = 4 || a / 4096 = 0xFF

theorem quiet_pendL (d : Dev) (t : Tag) (n b : Nat) (inj : Bool) : Quiet (pendL t n) d (d.pend t n b inj) :=
  quiet_pend (fun a h => by simp only [ringPage, pendL, Bool.or_eq_true, decide_eq_true_eq] at *; tauto) d t n b inj
    (by simp [pendL])

theorem pend_page (t : Tag) (n : Nat) (hn : n < t.count) (ht : t ≠ .hif) : ringPage (pageIx t n * 4096 + 0x18) = false := by
  have e : (pageIx t n * 4096 + 0x18) / 4096 = pageIx t n := by omega
  have h2 := pageIx_ne_msix t n hn
  have h3 : pageIx t n ≠ 4 := by
    cases t <;> simp only [Tag.count] at hn <;> simp only [pageIx, Tag.page0] <;> first | omega | exact absurd rfl ht
  simp [ringPage, e, h2.2, h3]

/-- One event pends. -/
theorem pend_one (d : Dev) (t : Tag) (n b : Nat) (hb : b < 32) (inj : Bool) (hn : n < t.count) (ht : t ≠ .hif) (i : Nat) :
    (d.pend t n b inj).bit n (EVT_PEND.PEND t) i = (d.bit n (EVT_PEND.PEND t) i || decide (i = b)) := by
  have hp := pend_page t n hn ht
  have hw : ∀ (a c : Dev), Quiet ringPage a c → c.bit n (EVT_PEND.PEND t) i = a.bit n (EVT_PEND.PEND t) i := by
    intro a c h
    show (fget 31 0 (c.word t n 0x18)).testBit i = (fget 31 0 (a.word t n 0x18)).testBit i
    rw [show c.word t n 0x18 = a.word t n 0x18 from h.regs _ hp]
  unfold Dev.pend
  split
  · next h => 
    rw [hw _ _ (quiet_eqMerge d t n b)]
    by_cases hi : i = b
    · subst hi; simp [h]
    · simp [hi]
  · rw [hw _ _ (quiet_eqEnter _ _ _ _ _), Dev.bit_wrBit _ _ _ _ _ _ rfl hb]
    by_cases hi : i = b <;> simp [hi]

theorem pendSet_fold (t : Tag) (n : Nat) (hn : n < t.count) (l : List Nat) (hl : ∀ b ∈ l, b < 32) (d : Dev) :
    let e := l.foldl (fun d b => d.pend t n b true) d
    (∀ i, t ≠ .hif → e.bit n (EVT_PEND.PEND t) i = (d.bit n (EVT_PEND.PEND t) i || decide (i ∈ l))) ∧ Quiet (pendL t n) d e := by
  induction l generalizing d with
  | nil => exact ⟨fun i _ => by simp, .refl _⟩
  | cons b l ih =>
    intro e
    obtain ⟨h1, h2⟩ := ih (fun b hb => hl b (by simp [hb])) (d.pend t n b true)
    refine ⟨fun i ht => ?_, (quiet_pendL d t n b true).trans h2⟩
    refine (h1 i ht).trans ?_
    rw [pend_one d t n b (hl b (by simp)) true hn ht]
    by_cases hi : i = b <;> simp [hi]

/-! ### Registers that stay -/

theorem sameRegs_refl (L : Nat → Bool) (d : Dev) : SameRegs L d d := fun _ _ => rfl
theorem sameRegs_trans {L : Nat → Bool} {a b c : Dev} (h : SameRegs L a b) (k : SameRegs L b c) : SameRegs L a c :=
  fun x hx => (k x hx).trans (h x hx)
theorem sameRegs_wr {L : Nat → Bool} (d : Dev) (n : Nat) (f : Field) (v : Nat) (h : L (pageIx f.tag n * 4096 + f.off) = true) :
    SameRegs L d (d.wr n f v) := fun a ha => Dev.regs_wr_ne d n f v a (fun e => by rw [e, h] at ha; exact absurd ha (by decide))
theorem sameRegs_of {L : Nat → Bool} {d e : Dev} (h : d.regs = e.regs) : SameRegs L d e := fun a _ => by rw [h]
theorem sameRegs_foldl {L : Nat → Bool} {β : Type} (f : Dev → β → Dev) (hf : ∀ d b, SameRegs L d (f d b)) (l : List β) (d : Dev) :
    SameRegs L d (l.foldl f d) := by
  induction l generalizing d with
  | nil => exact sameRegs_refl L d
  | cons b l ih => exact sameRegs_trans (hf d b) (ih _)
theorem SameRegs.rd {L : Nat → Bool} {d e : Dev} (h : SameRegs L d e) (m : Nat) (g : Field) (q : L (pageIx g.tag m * 4096 + g.off) = false) :
    e.rd m g = d.rd m g := by
  simp only [Dev.rd, Dev.word]; rw [h _ q]

/-- The registers of a page behind its header. -/
def body (a : Nat) : Bool := decide (0x30 ≤ a % 4096)

theorem body_of (p off : Nat) (h : off < 4096) (h' : 0x30 ≤ off) : body (p * 4096 + off) = true := by
  have : (p * 4096 + off) % 4096 = off := by omega
  simp [body, this, h']

theorem body_not (p off : Nat) (h : off < 0x30) : body (p * 4096 + off) = false := by
  have : (p * 4096 + off) % 4096 = off := by omega
  simp [body, this]; omega

theorem sb_wr (d : Dev) (n : Nat) (f : Field) (v : Nat) (h : f.off < 4096) (h' : 0x30 ≤ f.off) : SameRegs body d (d.wr n f v) :=
  sameRegs_wr d n f v (body_of _ _ h h')

theorem sb_modPll (d : Dev) (k : Nat) (f : Pll → Pll) : SameRegs body d (d.modPll k f) := by
  unfold Dev.modPll
  extract_lets x c d1
  have h1 : SameRegs body d d1 := sameRegs_of rfl
  split
  · exact sameRegs_trans h1 (sameRegs_trans (sb_wr _ _ _ _ (by decide) (by decide)) (sb_wr _ _ _ _ (by decide) (by decide)))
  · split
    · exact sameRegs_trans h1 (sameRegs_trans (sb_wr _ _ _ _ (by decide) (by decide)) (sb_wr _ _ _ _ (by decide) (by decide)))
    · exact h1

theorem sb_showFb (d : Dev) : SameRegs body d d.showFb := sb_wr _ _ _ _ (by decide) (by decide)

theorem sb_pllStart (d : Dev) (k : Nat) : SameRegs body d (d.pllStart k) := sameRegs_trans (sb_modPll _ _ _) (sb_showFb _)

theorem sb_showClk (d : Dev) (b : Bool) : SameRegs body d (d.showClk b) :=
  sameRegs_trans (sb_wr _ _ _ _ (by decide) (by decide)) (sameRegs_trans (sb_modPll _ _ _) (sameRegs_trans (sb_modPll _ _ _) (sb_showFb _)))

theorem word_clear (d : Dev) (b : Tag) (n off : Nat) (ho : off < 4096) : (d.clearPage b n).word b n off = resetWord (pageIx b n * 4096 + off) := by
  unfold Dev.clearPage Dev.word
  exact AMap.get_clearRange_in _ _ (by omega) (by omega)

theorem hdr_ite {c : Prop} [Decidable c] {L : Nat → Bool} {d a b : Dev} (ha : SameRegs L d a) (hb : SameRegs L d b) : SameRegs L d (if c then a else b) := by
  split <;> assumption

/-- A header word after a page returns to reset. -/
theorem resetPage_header (d : Dev) (b : Tag) (n off : Nat) (ho : off < 0x30) (hk : noSrst b = false) (hn : n < b.count) :
    (d.resetPage b n).word b n off = resetWord (pageIx b n * 4096 + off) := by
  have hw : ∀ (x y : Dev), SameRegs body x y → y.word b n off = x.word b n off := fun x y h => h _ (body_not _ _ ho)
  have h0 := fun x : Dev => word_clear x b n off (by omega)
  have main : ∀ x : Dev, SameRegs body (x.clearPage b n) (d.resetPage b n) → (d.resetPage b n).word b n off = resetWord (pageIx b n * 4096 + off) :=
    fun x h => (hw _ _ h).trans (h0 x)
  cases b
  case hif =>
    obtain rfl : n = 0 := by simp [Tag.count] at hn; omega
    refine main (d.wipe .hif 0) ?_
    unfold Dev.resetPage
    intro a ha
    simp only
    rw [Dev.regs_setWord_ne _ _ _ _ _ _ (by intro e; rw [e] at ha; exact absurd ha (by decide)),
      Dev.regs_setWord_ne _ _ _ _ _ _ (by intro e; rw [e] at ha; exact absurd ha (by decide))]
  case clk =>
    obtain rfl : n = 0 := by simp [Tag.count] at hn; omega
    refine main d ?_
    unfold Dev.resetPage
    simp only
    refine sameRegs_trans (sb_showClk _ (d.on 0 CLK_STAT.REFOK)) ?_
    refine sameRegs_trans (hdr_ite (sameRegs_refl _ _) (sb_pllStart _ _)) (hdr_ite (sameRegs_refl _ _) (sb_pllStart _ _))
  case key => exact absurd hk (by decide)
  all_goals exact main (d.wipe _ n) (sameRegs_refl _ _)

theorem headerReset_zero (b : Tag) (n off : Nat) (hn : n < b.count) (h1 : off = 8 ∨ off = 0x2C) : resetWord (pageIx b n * 4096 + off) = 0#32 := by
  have e1 : (pageIx b n * 4096 + off) / 4096 = pageIx b n := by omega
  have e2 : (pageIx b n * 4096 + off) % 4096 = off := by omega
  obtain ⟨hx1, hx2⟩ := pageIx_ne_msix b n hn
  unfold resetWord
  rw [if_neg (by rw [Bool.and_eq_true, decide_eq_true_eq, decide_eq_true_eq]; omega), e1, e2, pageOf_pageIx b n hn]
  simp only
  rw [slot_header b n off (by omega)]
  rcases h1 with rfl | rfl <;> rfl

theorem sb_lswGate (d : Dev) (n : Nat) : SameRegs body d (d.lswGate n) :=
  sb_wr d n LSW_STAT.GATE _ (by decide) (by decide)

theorem sb_tripKept (d : Dev) (n : Nat) (x : Thm) : SameRegs body d (d.tripKept n x) := by
  unfold Dev.tripKept
  split
  · exact sameRegs_refl _ _
  · exact sameRegs_trans (sameRegs_of rfl) (sb_wr _ _ _ _ (by decide) (by decide))

theorem sb_showLoad (d : Dev) : SameRegs body d d.showLoad := by
  refine sameRegs_trans (sb_wr _ _ _ _ (by decide) (by decide)) (sameRegs_foldl _ (fun d k => ?_) _ _)
  exact sameRegs_trans (sb_wr _ _ _ _ (by decide) (by decide)) (sb_wr _ _ _ _ (by decide) (by decide))

theorem softReset_header (d : Dev) (b : Tag) (n : Nat) (hk : noSrst b = false) (hn : n < b.count) :
    (d.softReset b n).en b n = false ∧ (d.softReset b n).locked b n = false ∧ (d.softReset b n).rd n (SEQ.SEQ b) = 1 := by
  have h1 : SameRegs body ((d.resetPage b n).seqInc b n) (d.softReset b n) := by
    unfold Dev.softReset
    extract_lets x d1 d2
    have h : SameRegs body d1 d2 := by
      show SameRegs body d1 (if b = .thm then d1.tripKept n x else d1)
      split
      · exact sb_tripKept _ _ _
      · exact sameRegs_refl _ _
    refine sameRegs_trans h ?_
    split
    · exact sb_showLoad _
    · split
      · exact sb_lswGate _ _
      · exact sameRegs_refl _ _
  have h2 := resetPage_header d b n 8 (by omega) hk hn
  have h3 := resetPage_header d b n 0x2C (by omega) hk hn
  rw [headerReset_zero b n _ hn (.inl rfl)] at h2
  rw [headerReset_zero b n _ hn (.inr rfl)] at h3
  have e1 : (d.softReset b n).word b n 8 = 0#32 := by
    have : (d.softReset b n).word b n 8 = ((d.resetPage b n).seqInc b n).word b n 8 := h1 _ (body_not _ _ (by decide))
    rw [this, ← h2]
    exact Dev.word_setWord_ne _ _ _ _ _ _ _ _ (by simp [SEQ.SEQ])
  refine ⟨?_, ?_, ?_⟩
  · show decide (fget 0 0 ((d.softReset b n).word b n 8) ≠ 0) = false
    rw [e1]; rfl
  · show decide (fget 2 2 ((d.softReset b n).word b n 8) ≠ 0) = false
    rw [e1]; rfl
  · rw [h1.rd n (SEQ.SEQ b) (body_not _ _ (by simp [SEQ.SEQ]))]
    unfold Dev.seqInc
    rw [Dev.rd_inc_same _ _ _ _ rfl]
    have : (d.resetPage b n).rd n (SEQ.SEQ b) = fget 31 0 ((d.resetPage b n).word b n 0x2C) := rfl
    rw [this, h3]; rfl

theorem softReset_page (d : Dev) (b : Tag) (n : Nat) (hk : noSrst b = false) (h1 : b ≠ .hif) (h2 : b ≠ .clk) (h3 : b ≠ .str) (h4 : b ≠ .lsw)
    (h5 : b = .thm → (d.thmRec n).trip = 0) :
    (∀ off < 4096, off ≠ 0x2C → (d.softReset b n).word b n off = resetWord (pageIx b n * 4096 + off)) ∧
    SameRegs (fun a => a / 4096 = pageIx b n) d (d.softReset b n) := by
  have e : d.softReset b n = ((d.wipe b n).clearPage b n).seqInc b n := by
    unfold Dev.softReset
    rw [if_neg h3, if_neg h4]
    have h6 : (if b = .thm then ((d.resetPage b n).seqInc b n).tripKept n (d.thmRec n) else (d.resetPage b n).seqInc b n)
        = (d.resetPage b n).seqInc b n := by
      split
      · exact if_pos (h5 ‹_›)
      · rfl
    refine h6.trans ?_
    cases b <;> first | exact absurd rfl h1 | exact absurd rfl h2 | exact absurd hk (by decide) | rfl
  rw [e]
  refine ⟨fun off ho hs => ?_, fun a ha => ?_⟩
  · rw [← word_clear (d.wipe b n) b n off ho]
    exact Dev.word_setWord_ne _ _ _ _ _ _ _ _ (by simp [SEQ.SEQ]; omega)
  · have ha' : a / 4096 ≠ pageIx b n := by simpa using ha
    rw [show (((d.wipe b n).clearPage b n).seqInc b n).regs.get resetWord a = ((d.wipe b n).clearPage b n).regs.get resetWord a from
      Dev.regs_wr_ne _ _ _ _ _ (by simp only [SEQ.SEQ]; omega)]
    unfold Dev.clearPage
    rw [AMap.get_clearRange_out _ _ (by omega)]
    have : (d.wipe b n).regs = d.regs := by
      cases b <;> first | rfl | (unfold Dev.wipe; simp only; split <;> rfl)
    rw [this]

end Sys2Proof.Machine
end

