-- ==== Sys2Proof/Tests/Slice0.lean ====
section
/-!
SUPPORT. The model's own tests: the checks of WellFormed, and for each statement concrete states and operands that meet
the hypotheses of its clauses (`wit_<statement>`), at boundary values where a clause has a range; beside the hypotheses
most of them show what the command then does, as the rule cited in the statement has it.
-/

namespace Sys2Proof.Machine

/- One theorem after another: each evaluation takes a thread's whole stack. -/
set_option Elab.async false

/-- The block after a completed cast-on with everything else as reset leaves it, and then changed. -/
def booted (f : Dev → Dev) : State :=
  let d := State.reset.dev
  { State.reset with dev := f { ((d.wr 0 SYS_STAT.BOOTED 1).wr 0 SYS_STAT.RELEASED 1) with sys := { d.sys with step := 0 } } }

/-- The state a command leaves. -/
def after (c : Instr) (s : State) : State := match exec c s with | .next u => u | _ => s

/-- The block a command leaves. -/
def left (c : Instr) (s : State) : Dev := (after c s).dev

/-- The host in reach: the link up, bus mastering on, MSI-X enabled (R35). -/
def inReach (d : Dev) : Dev :=
  let d := d.wr 0 HIF_LINK.UP 1
  { d with host := { d.host with busMaster := true, msixEn := true } }

theorem test_reset_wf : State.reset.mem.wf = true := by decide

/-- A row that began at 0 and lasts 1,000 µs, with a committed allocation that completes at a time. -/
def inRow (doneAt : Nat) (f : Dev → Dev) : State := booted fun d =>
  let y : PtRes := { set := 7000 }
  f { d with alc := { d.alc with started := true, rowLen := 1000 * ticksPerUs, next := some { pts := [y] }, doneAt := doneAt, live := [(0, 0)] } }

/-! ### WellFormed: for each check a command it refuses, beside one it takes. -/

/-- The first command is well formed, the others are not. -/
def onlyFirst : List Instr → Bool
  | [] => false
  | c :: cs => c.wellFormed && cs.all fun x => !x.wellFormed

theorem test_wf_time : onlyFirst [.oscStop (2 ^ 64 - 1), .oscStop (2 ^ 64)] = true := by decide

theorem test_wf_address :
    onlyFirst [.regWrite 0 .pcie (.bar0 0x3FFFFFF) 0#32, .regWrite 0 .pcie (.bar0 0x4000000) 0#32, .regWrite 0 .pcie (.bar2 0x4000000) 0#32] = true ∧
    onlyFirst [.hifAccessFault 0 .pcie false (.bar2 0x3FFFFFF) 1, .hifAccessFault 0 .pcie false (.bar2 0x3FFFFFF) 0,
      .hifAccessFault 0 .pcie false (.bar0 0x4000000) 4] = true := by decide

theorem test_wf_instance :
    onlyFirst [.stageCommitRequest 0 .pcie .str 47 0#32, .stageCommitRequest 0 .pcie .str 48 0#32] = true ∧
    onlyFirst [.stageCommitApply 0 .out 31, .stageCommitApply 0 .out 32] = true ∧
    onlyFirst [.errinfoClear 0 .pcie .skn 11 0#32, .errinfoClear 0 .pcie .skn 12 0#32] = true ∧
    onlyFirst [.evtPendClear 0 .pcie .sys 0 0#32, .evtPendClear 0 .pcie .sys 1 0#32] = true ∧
    onlyFirst [.evtSetInject 0 .pcie .sys 0 0#32, .evtSetInject 0 .pcie .sys 1 0#32] = true ∧
    onlyFirst [.pageLock 0 .pcie .lsw 23 4#32, .pageLock 0 .pcie .lsw 24 4#32] = true ∧
    onlyFirst [.blockSoftReset 0 .pcie .aux 15 2#32, .blockSoftReset 0 .pcie .aux 16 2#32] = true := by decide

theorem test_wf_operands :
    onlyFirst [.mgmtWakeMatch 0 127, .mgmtWakeMatch 0 128] = true ∧
    onlyFirst [.dieSensorRead 0 (List.replicate 8 0), .dieSensorRead 0 (List.replicate 7 0), .dieSensorRead 0 (List.replicate 9 0)] = true ∧
    onlyFirst [.slacParmReq 0 0 0 (2 ^ 48 - 1), .slacParmReq 0 0 0 (2 ^ 48)] = true ∧
    onlyFirst [.slacMatchReq 0 0 0 (2 ^ 48 - 1), .slacMatchReq 0 0 0 (2 ^ 48)] = true ∧
    onlyFirst [.pendingTargetWrite 0 .pcie 0x480 0#32, .pendingTargetWrite 0 .pcie 0x47C 0#32, .pendingTargetWrite 0 .pcie 0x494 0#32,
      .pendingTargetWrite 0 .pcie 0x482 0#32] = true ∧
    onlyFirst [.markRx 0 0 0 true 63 255 31, .markRx 0 0 0 true 64 255 31, .markRx 0 0 0 true 63 256 31, .markRx 0 0 0 true 63 255 32] = true ∧
    onlyFirst [.pcieLinkUp 0 4 3, .pcieLinkUp 0 3 3, .pcieLinkUp 0 4 4, .pcieLinkUp 0 4 0] = true ∧
    onlyFirst [.bandSearchComplete 0 .f 64, .bandSearchComplete 0 .f 65] = true := by decide

theorem test_noCommandHasBits : decodeTableWord 32 0 = none := by decide

/-! ### The block as a whole -/

theorem wit_StepRunsTheFrontCommand : State.reset.pending = [] ∧
    step { State.reset with pending := [.priceStale 5] } = exec (.priceStale 5) State.reset := ⟨rfl, rfl⟩

theorem wit_EveryStepKeepsMemoriesCanonical : State.reset.mem.wf = true ∧ step State.reset = .next State.reset :=
  ⟨by decide, rfl⟩

theorem wit_SharedBuffersChangeOnlyByNamedCommands :
    writesSram (.priceStale 5) = false ∧ ∃ u, exec (.priceStale 5) State.reset = .next u := ⟨by decide, _, rfl⟩

/-! ### Host interface -/

/-- A completion entry. -/
def someCq : CqEntry := { tag := 1, cls := 0, replayed := false, compensated := false, status := 0, jnlIndex := 64, time := 0, hasRec := false }

/-- An event entry. -/
def someEq : EvEntry := ⟨0, 0, 0, 0, false, false, 1, 0⟩

theorem wit_RingsMoveForwardAndSignal_heads :
    (let s := booted fun d => { d with host := { d.host with cq := [someCq], eq := [someEq] }, vcm := { d.vcm with rxUsed := 1 } }
     let d := Dev.arrive 0 .pcie s.dev; let n := d.rd 0 VCM_RX.NSLOT
     d.reached .pcie .hif 0 0x58 ∧ d.passes .hif 0 0x58 1#32 = true ∧ d.passes .hif 0 0x58 2#32 = true ∧
     (1 + 1024 - d.rd 0 HIF_CQ_HEAD.IDX) % 1024 = d.host.cq.length ∧ d.host.cq.length < (2 + 1024 - d.rd 0 HIF_CQ_HEAD.IDX) % 1024 ∧
     d.reached .pcie .hif 0 0x60 ∧ d.passes .hif 0 0x60 1#32 = true ∧ d.passes .hif 0 0x60 2#32 = true ∧
     (1 + 4096 - d.rd 0 HIF_EQ_HEAD.IDX) % 4096 = d.host.eq.length ∧ d.host.eq.length < (2 + 4096 - d.rd 0 HIF_EQ_HEAD.IDX) % 4096 ∧
     d.reached .pcie .vcm 0 0x4CC ∧ d.passes .vcm 0 0x4CC 1#32 = true ∧ d.passes .vcm 0 0x4CC (BitVec.ofNat 32 n) = true ∧
     (1 + n - d.rd 0 VCM_RXHEAD.IDX) % n ≤ d.vcm.rxUsed ∧ 1 < n ∧ d.vcm.rxUsed < (2 + n - d.rd 0 VCM_RXHEAD.IDX) % n) := by
  unfold Dev.reached; decide +kernel

theorem test_cqHead : let s := booted fun d => { d with host := { d.host with cq := [someCq] } }
    (left (.cqHeadWrite 0 .pcie 1#32) s).host.cq = [] ∧ (left (.cqHeadWrite 0 .pcie 2#32) s).host.cq = [someCq] ∧
    (left (.cqHeadWrite 0 .pcie 2#32) s).rd 0 (ERRINFO.REASON .hif) = RC.RANGE := by decide +kernel

theorem wit_RingsMoveForwardAndSignal_device :
    (let s := booted fun d => let d := inReach (d.wr 0 HIF_RINGCTL.EQ_EN 1); { d with host := { d.host with eqLost := 1 } }
     let d := Dev.at 0 s.dev; d.host.eqLost ≠ 0 ∧ d.eqFull = false ∧ d.eqOn = true ∧
       (left (.eventOverflowMarker 0) s).host.eqLost = 0) ∧
    (let s := booted fun d => let d := inReach (d.wr 0 HIF_RINGCTL.CQ_EN 1); { d with host := { d.host with cqHeld := [someCq] } }
     let d := Dev.at 0 s.dev; d.host.cqHeld = [someCq] ∧ d.cqReady = true ∧ someCq.hasRec = false ∧ d.ope.used = 0 ∧
       (left (.completionDeliver 0) s).rd 0 HIF_CQ_TAIL.IDX = 1) ∧
    (let d := Dev.at 0 State.reset.dev; d.cqReady = false ∧ d.host.cqHeld = []) ∧
    (let t := 10 * ticksPerUs; let s := booted fun d => { d with host := { d.host with cqBatch := 1 } }
     let u := booted fun d => let d := inReach d
       { d with regs := d.regs.set resetWord (msixAddr 0 3) 0#32, host := { d.host with cqBatch := 1 } }
     let d := Dev.at t s.dev; let f := Dev.at t u.dev
     d.host.cqBatch ≠ 0 ∧ d.host.cqLast + 10 * ticksPerUs = d.now ∧ d.msixMasked 0 = true ∧ f.host.cqBatch ≠ 0 ∧ f.msixMasked 0 = false ∧
       (left (.cqVectorPause t) s).msixPend 0 = true ∧ (left (.cqVectorPause t) u).sent.length = 1) ∧
    (let s := booted fun d => (inReach d).setMsixPend 5 true; let d := Dev.at 0 s.dev
     d.host.fnMask = false ∧ d.host.msixEn = true ∧ d.hostUp = true ∧ d.msixPend 5 = true ∧ d.msixPend 6 = false ∧
       (left (.msixUnmask 0 5) s).sent.length = 1 ∧ (left (.msixUnmask 0 6) s).sent = []) := by decide +kernel

theorem wit_SpecWindowWritesAreRejected :
    (let d := Dev.arrive 0 .pcie (booted id).dev; d.reached .pcie .alc 0 0xC00 ∧ d.reached .pcie .str 47 0xFFC) ∧
    (left (.regWrite 0 .pcie (regAddr .str 47 0xFFC) 1#32) (booted id)).rd 47 (ERRINFO.REASON .str) = RC.SPEC := by
  unfold Dev.reached; decide +kernel

theorem wit_RegisterWritesTakeTheirFieldsOrNothing :
    (let d := Dev.arrive 0 .pcie (booted id).dev; let r : RegFam := ⟨0x44, 4, 1, 4, 1, [⟨31, 0, .roh, 0, .any⟩]⟩
     slotAt .sys 0 0x44 = .reg r ∧ r.readOnly = true ∧ d.roleBad .sys 0x44 = false ∧ d.reached .pcie .sys 0 0x44) ∧
    (let d := Dev.arrive 0 .pcie (booted id).dev; let r : RegFam := ⟨0x448, 4, 1, 4, 1, [⟨23, 0, .w1c, 0, .any⟩]⟩
     slotAt .aon 0 0x448 = .reg r ∧ (∀ v w, d.regSpecial [] .pcie .aon 0 0x448 v w = none) ∧
     d.passes .aon 0 0x448 0xFFFFFF#32 = true ∧ d.reached .pcie .aon 0 0x448) := by
  unfold Dev.reached
  exact ⟨by decide +kernel, by decide +kernel, fun _ _ => rfl, by decide +kernel, by decide +kernel⟩

theorem test_w1c : let s := booted fun d => d.setWord .aon 0 0x448 6#32
    (left (.regWrite 0 .pcie (regAddr .aon 0 0x448) 2#32) s).word .aon 0 0x448 = 4#32 := by decide +kernel

theorem wit_HeaderWritesNoLockRefuses :
    let d := Dev.arrive 0 .pcie (booted id).dev
    d.reached .pcie .str 0 0x028 ∧ d.reached .pcie .str 0 0x018 ∧ d.reached .pcie .str 0 0x01C ∧
    bitsOutside (evtBits .str 0) 1#32 = false ∧ bitsOutside (evtBits .str 0) 0x80000000#32 = true := by
  unfold Dev.reached; decide +kernel

theorem test_evtSet : let s := booted id
    (left (.evtSetInject 0 .pcie .str 0 1#32) s).bit 0 (EVT_PEND.PEND .str) 0 = true ∧
    (left (.evtSetInject 0 .pcie .str 0 0x80000000#32) s).rd 0 (ERRINFO.REASON .str) = RC.RSV_BIT := by decide +kernel

theorem wit_PageLockAndSoftReset :
    (let d := Dev.arrive 0 .pcie (booted id).dev
     d.reached .pcie .lsw 2 0x008 ∧ d.locked .lsw 2 = false ∧ bitsOutside 7 5#32 = false ∧ (5#32).getLsbD 1 = false ∧
     d.reached .pcie .str 2 0x008 ∧ (4#32).getLsbD 0 = d.en .str 2 ∧
     bitsOutside 7 2#32 = false ∧ (2#32).getLsbD 1 = true ∧ noSrst .lsw = false ∧ (d.serves .lsw 2).any d.energised = false ∧
     noSrst .saf = true ∧ d.reached .pcie .saf 0 0x008 ∧ d.locked .saf 0 = false) ∧
    (let d := Dev.arrive 0 .pcie (booted fun d => d.wr 3 OUT_RUNSTAT.STATE 1).dev
     d.reached .pcie .out 3 0x008 ∧ (d.serves .out 3).any d.energised = true ∧ d.locked .out 3 = false) ∧
    (let d := Dev.arrive 0 .pcie (booted fun d => d.wr 2 (PCTRL.LOCK .lsw) 1).dev
     d.locked .lsw 2 = true ∧ d.reached .pcie .lsw 2 0x008 ∧ d.reached .pcie .lsw 2 0x014 ∧ d.reached .pcie .lsw 2 0x020 ∧
     d.standby = false) := by
  unfold Dev.reached; decide +kernel

theorem test_pageLock : (let e := left (.pageLock 0 .pcie .lsw 2 5#32) (booted id); e.locked .lsw 2 = true ∧ e.en .lsw 2 = true) ∧
    (left (.pageLock 0 .pcie .lsw 2 0#32) (booted fun d => d.wr 2 (PCTRL.LOCK .lsw) 1)).rd 2 (ERRINFO.REASON .lsw) = RC.LOCKED := by
  decide +kernel

theorem test_softReset : let e := left (.blockSoftReset 0 .pcie .aux 2 2#32) (booted fun d => (d.wr 2 (PCTRL.LOCK .ctm) 0).wr 2 (EVT_PEND.PEND .aux) 1)
    e.rd 2 (EVT_PEND.PEND .aux) = 0 ∧ e.rd 2 (SEQ.SEQ .aux) = 1 := by decide +kernel

theorem wit_StagedAreasCommitAllOrNothing :
    (let d := Dev.arrive 0 .pcie (booted id).dev; let r : RegFam := ⟨0x4C, 4, 1, 4, 1, [⟨31, 0, .rws, 0, .any⟩]⟩
     d.locked .hif 0 = false ∧ d.standby = false ∧ d.reached .pcie .hif 0 0x84C ∧ slotAt .hif 0 0x84C = .staged r ∧
     bitsOutside (r.mask fun _ => true) 7#32 = false ∧ r.rangeBad 7#32 = false ∧
     d.rd 0 (STAGE_STAT.STATE .hif) = 0 ∧ d.reached .pcie .hif 0 0x020 ∧ bitsOutside 0xFFFF 0x5713#32 = false) ∧
    (∀ k ∈ [1, 2], (booted fun d => d.wr 0 (STAGE_STAT.STATE .dtm) k).dev.rd 0 (STAGE_STAT.STATE .dtm) = k) ∧
    (let d := Dev.at 0 (booted fun d => d.wr 0 (STAGE_STAT.STATE .dtm) 2).dev
     d.pageUp .dtm 0 = true ∧ d.commitDue .dtm 0 = true ∧ firstReason (commitReasons .dtm 0 d (d.stagedActive .dtm 0)) = none) ∧
    (let d := Dev.at 0 (booted fun d => (d.wr 0 (STAGE_STAT.STATE .str) 2).wr 0 STR_IMAX.MA.staged 2400001).dev
     d.pageUp .str 0 = true ∧ d.commitDue .str 0 = true ∧ (firstReason (commitReasons .str 0 d (d.stagedActive .str 0))).isSome = true) := by
  unfold Dev.reached; decide +kernel

theorem test_commit : let e := left (.stageCommitApply 0 .str 0) (booted fun d => (d.wr 0 (STAGE_STAT.STATE .str) 2).wr 0 STR_IMAX.MA.staged 2400001)
    e.rd 0 (STAGE_STAT.STATE .str) = 3 ∧ e.rd 0 (STAGE_STAT.REASON .str) = RC.RANGE := by decide +kernel

theorem wit_AccessFaultsAreRecordedAndCleared :
    (let d := Dev.at 0 (booted id).dev
     d.accessFault .pcie true (.bar0 0x4002) 4 = some RC.UNALIGNED ∧ d.accessFault .pcie true (.bar0 0x4040) 8 = some RC.UNALIGNED ∧
     d.accessFault .pcie true (.bar0 0x4040) 4 = none ∧ inMsix 0xF00000 = false ∧ pageOf 0xF00 = none ∧
     pageOf (0x4000 / 4096) = some (.hif, 0) ∧ d.accessFault .pcie true (.bar2 0x1000000) 4 = some RC.RO_FIELD ∧
     d.accessFault .pcie false (.bar2 0x400000) 4 = some RC.NOPAGE ∧ d.accessFault .pcie false (.bar2 0x3FFFFC) 4 = none) ∧
    (let d := State.reset.dev; pageOf (pageIx .str 0) = some (.str, 0) ∧ d.pageUp .str 0 = false ∧
     d.accessFault .pcie false (regAddr .str 0 8) 4 = some RC.DOMAIN ∧ d.accessFault .pcie false (regAddr .str 0 4) 4 = none) ∧
    (Dev.arrive 0 .pcie (booted id).dev).reached .pcie .hif 0 0x74 := by
  unfold Dev.reached; decide +kernel

theorem test_accessFault : let e := left (.hifAccessFault 0 .pcie true (.bar0 0x4002) 4) (booted id)
    e.rd 0 HIF_ABORT_ADDR.ADDR = 0x4002 ∧ e.rd 0 HIF_ABORT_INFO.REASON = RC.UNALIGNED ∧ e.rd 0 HIF_ABORT_INFO.COUNT = 1 ∧
    (left (.abortInfoClear 0 .mgmt 0#32) (booted id)).rd 0 HIF_ABORT_INFO.REASON = RC.ROLE := by decide +kernel

theorem wit_ManagementPortTransactions :
    (let d := (booted id).dev; d.mgmtUp (d.rd 0 HIF_MGMT.ADDR) = true ∧ d.rd 0 HIF_MGMT.ADDR = 0x4A ∧ d.rd 0 HIF_MGMT.PEC_EN = 0 ∧
     d.accessFault .mgmt false (.bar0 0x4000) 4 = none ∧ inMsix 0x4000 = false ∧ pageOf (0x4000 / 4096) = some (.hif, 0) ∧
     d.accessFault .mgmt false (.bar0 0xF00000) 4 = some RC.NOPAGE) ∧
    (booted fun d => d.wr 0 HIF_MGMT.PEC_EN 1).dev.rd 0 HIF_MGMT.PEC_EN = 1 ∧
    (booted fun d => { d with sys := { d.sys with held := true } }).dev.mgmtUp 0x4A = false ∧ (booted id).dev.mgmtUp 0x4B = false := by
  decide +kernel

theorem test_mgmt : (left (.mgmtSetPointer ⟨0, 0x4A⟩ 0x4044#32 true) (booted id)).host.mgmtPtr = 0x4044 ∧
    (let s := booted fun d => { d with host := { d.host with mgmtPtr := 0x40 } }
     (left (.mgmtRead ⟨0, 0x4A⟩) s).sent = [.mgmt 0x942000B1#32 false] ∧
     (left (.mgmtRead ⟨0, 0x4A⟩) s).host.mgmtPtr = 0x44 ∧ (left (.mgmtRead ⟨0, 0x4B⟩) s).sent = []) := by decide +kernel

theorem wit_LinkResetsTouchTheHostInterfaceAlone : let d := Dev.at 0 (booted id).dev; d.domOn .hif = true ∧ d.sys.step = 0 := by
  decide +kernel

theorem test_linkReset : let s := booted fun d => d.wr 0 HIF_LINK.UP 1
    (left (.hifLinkReset 0 .flr) s).rd 0 HIF_LINK.UP = 1 ∧ (left (.hifLinkReset 0 .hotReset) s).rd 0 HIF_LINK.UP = 0 ∧
    (left (.pcieLinkUp 0 4 3) (booted id)).rd 0 HIF_LINK.WIDTH = 4 := by decide +kernel

/-! ### Strands -/

/-- Strand 0 runs for point 0, which is RUNNING. -/
def Dev.run0 (d : Dev) : Dev :=
  ((((d.wr 0 (ALC_STRASG.STATE 0) 1).wr 0 STR_STAT.STATE 3).wr 0 STR_STAT.NACT (d.rd 0 STR_CFG.NPH)).wr 0 OUT_RUNSTAT.STATE 4).modStrand 0
    fun x => { x with stopped := false, started := true }

/-- A block in which strand 0 runs, and then changed. -/
def running (f : Dev → Dev) : State := booted fun d => f d.run0

/-- One millisecond. -/
def ms : Nat := ticksPerMs

theorem wit_StrandCurrentLimitFollowsItsPhases :
    let d := Dev.at 0 (booted fun d => (d.wr 0 (STAGE_STAT.STATE .str) 2).wr 0 STR_IMAX.MA.staged 2400001).dev
    let d' := d.stagedActive .str 0
    d.rd 0 (STAGE_STAT.STATE .str) = 2 ∧ d.pageUp .str 0 = true ∧ d.commitDue .str 0 = true ∧
    d'.rd 0 STR_CFG.NPH * 300000 < d'.rd 0 STR_IMAX.MA ∧ d.strRunning 0 = false := by decide +kernel

theorem wit_StrandFaultsStopTheStrand :
    (let w := Dev.arrive 0 .pcie (booted fun d => (((d.wr 0 STR_STAT.STATE 5).wr 0 STR_FAULT.CODE 2).wr 0 (ALC_STRASG.STATE 0) 1).wr 0
        OUT_RUNSTAT.STATE 4).dev
     w.reached .pcie .str 0 0x448 ∧ w.passes .str 0 0x448 1#32 = true ∧ w.passes .str 0 0x448 2#32 = true ∧
     w.rd 0 STR_FAULT.CODE = 2 ∧ w.strRunning 0 = false ∧ w.asg 0 = 1 ∧ w.ptState (w.asgPt 0) = 4) ∧
    (let d := Dev.at 0 (running fun d => d.modStrand 0 fun x =>
        { x with miss := 3, missLim := 3, low := 2, inv := [(7, d.rd 0 STR_BALCFG.INV_LIMIT)] }).dev
     d.rd 0 STR_STAT.STATE ≠ 5 ∧ d.strRunning 0 = true ∧ (d.strand 0).missLim = (d.strand 0).miss ∧ 2 ≤ (d.strand 0).low ∧
     d.rd 0 STR_BALCFG.INV_LIMIT ≤ (d.strand 0).inv.get (fun _ => 0) 7) ∧
    (let d := Dev.at 0 (running fun d => d.modStrand 0 fun x => { x with miss := 2, missLim := 3 }).dev
     (d.strand 0).miss < (d.strand 0).missLim ∧ (d.strand 0).low < 2 ∧ (d.strand 0).inv.get (fun _ => 0) 7 < d.rd 0 STR_BALCFG.INV_LIMIT) ∧
    (let s := booted fun d => (d.wr 0 STR_STAT.STATE 1).modStrand 0 fun x => { x with restartAt := some 0 }
     let t := (s.dev.rd 0 STR_RESTART.TMO_MS) * ms; let d := Dev.at t s.dev
     (d.strand 0).restartAt = some 0 ∧ 0 + d.rd 0 STR_RESTART.TMO_MS * ticksPerMs = d.now ∧ 0 < d.rd 0 STR_RESTART.TMO_MS * ticksPerMs ∧
     (left (.restartCheckTimeout t 0) s).rd 0 STR_FAULT.CODE = 0x11) := by
  unfold Dev.reached; decide +kernel

theorem test_strandFaults :
    (let s := running fun d => d.modStrand 0 fun x => { x with miss := 3, missLim := 3, low := 2, inv := [(7, 255)] }
     (left (.tlmLoss 0 0) s).rd 0 STR_FAULT.CODE = 1 ∧ (left (.vbusLow 0 0) s).rd 0 STR_FAULT.CODE = 2 ∧
     (left (.phInvalid 0 0 7) s).rd 0 STR_FAULT.CODE = 0x10 ∧ ((left (.tlmLoss 0 0) s).strand 0).stopped = true) ∧
    (let s := booted fun d => ((d.wr 0 STR_STAT.STATE 5).wr 0 STR_FAULT.CODE 2).wr 0 (ALC_STRASG.STATE 0) 1
     (left (.strFaultClear 0 .pcie 0 2#32) s).rd 0 STR_STAT.STATE = 1 ∧
     (left (.strFaultClear 0 .pcie 0 1#32) s).rd 0 (ERRINFO.REASON .str) = 0x81) := by decide +kernel

theorem wit_StrandStateFollowsItsCounts :
    (let d := Dev.at 0 (running fun d => ((d.wr 0 STR_MPSTAT.FBK 1).wr 0 STR_MPSTAT.LOCKOUT 1).modStrand 0 fun x =>
        { x with good := d.rd 0 STR_BALCFG.FBK_EXIT, imb := [(7, 1000)], restartAt := some 0, restartN := 255 }).dev
     let x := d.strand 0
     d.on 0 STR_MPSTAT.FBK = true ∧ d.rd 0 STR_BALCFG.FBK_EXIT ≤ x.good ∧ x.imb.get (fun _ => 0) 7 = 1000 ∧
     d.on 0 STR_MPSTAT.LOCKOUT = true ∧ x.lockEnd ≤ d.now ∧ x.restartAt ≠ none ∧ d.rd 0 STR_RESTART.N ≤ x.restartN ∧
     d.rd 0 ALC_HANDCFG.RAMP_MS ≠ 0 ∧ d.asg 0 = 1 ∧ d.ptState (d.asgPt 0) = 4) ∧
    (let d := Dev.at 0 (running id).dev
     d.on 0 STR_MPSTAT.FBK = false ∧ (d.strand 0).imb.get (fun _ => 0) 7 < 1000 ∧ d.on 0 STR_MPSTAT.LOCKOUT = false ∧
     (d.strand 0).restartAt = none) := by decide +kernel

theorem test_strandCounts :
    (let s := running fun d => (d.wr 0 STR_MPSTAT.FBK 1).modStrand 0 fun x => { x with good := d.rd 0 STR_BALCFG.FBK_EXIT }
     (left (.fallbackExit 0 0) s).rd 0 STR_MPSTAT.FBK = 0) ∧
    (let s := running fun d => (d.wr 0 STR_STAT.STATE 1).modStrand 0 fun x => { x with restartAt := some 0, restartN := 255 }
     (left (.restartCheckPass 0 0) s).rd 0 STR_STAT.STATE = 3 ∧ ((left (.restartCheckPass 0 0) s).strand 0).ffOnly = true) ∧
    (let s := running fun d => (d.wr 0 STR_MPSTAT.LOCKOUT 1).modStrand 0 fun x => { x with lockEnd := 5 }
     (left (.stepLockoutEnd 4 0) s).rd 0 STR_MPSTAT.LOCKOUT = 1 ∧ (left (.stepLockoutEnd 5 0) s).rd 0 STR_MPSTAT.LOCKOUT = 0) ∧
    (let s := running fun d => (d.wr 0 (EVT_EN.EN .str) 0xFFFFFFFF).modStrand 0 fun x => { x with imb := [(7, 1000)] }
     (left (.phImbal 0 0 7) s).bit 0 (EVT_PEND.PEND .str) Ev.STR.PH_IMBAL.bit = true) := by decide +kernel

/-- A prepared shed whose hold expires, for or against. -/
def shedding (r : Nat) : State := running fun d => d.modStrand 0 fun x =>
  { x with expiring := some r, plan := some { sample := 0, phase := 7, onTime := 0, trims := [1, 2, 3, 4, 5, 6, 7, 0] } }

theorem wit_PreparedShedsCommitOrAreDiscarded :
    (let d := Dev.at 0 (shedding 0).dev; (d.strand 0).expiring = some 0 ∧ 0 < d.rd 0 STR_STAT.NACT) ∧
    (let d := Dev.at 0 (shedding 1).dev; (d.strand 0).expiring = some 1 ∧ (d.strand 0).plan.isSome = true) ∧
    (Dev.at 0 (running id).dev |>.strand 0).expiring = none := by decide +kernel

theorem test_shed :
    (let e := left (.shedHoldExpiry 0 0) (shedding 0); let d := (shedding 0).dev
     e.bit 0 STR_MPSTAT.SHED (d.topPhase 0) = true ∧ e.rd 0 STR_STAT.NACT + 1 = d.rd 0 STR_STAT.NACT ∧
     e.rd 0 (STR_TRIM.TRIM (d.topPhase 0)) = 0 ∧ e.rd 0 STR_SPEC_TAG.STATE = 5 ∧ e.rd 0 STR_SPEC_HIT.COUNT = 1 ∧
     e.rd 0 STR_SHEDCNT.COUNT = 1 ∧ (e.strand 0).expiring = none ∧ (e.strand 0).plan = none) ∧
    (let e := left (.shedHoldExpiry 0 0) (shedding 1)
     e.rd 0 STR_MPSTAT.SHED = 0 ∧ e.rd 0 STR_SPEC_TAG.STATE = 6 ∧ e.rd 0 STR_SPEC_TAG.DREASON = 1 ∧ e.rd 0 STR_SPEC_DISC.COUNT = 1) := by
  decide +kernel

/-! ### Output points and contactors -/

/-- Point 3 in a state since count 0, and changed. -/
def point3 (st : Nat) (f : Point → Point) : State := booted fun d => (d.wr 3 OUT_RUNSTAT.STATE st).modPoint 3 f

theorem wit_PointStartSequence :
    (let d := Dev.at ms (point3 1 fun x => { x with okAt := some 0, vHist := [(ms, 0)] }).dev
     (d.point 3).okAt = some 0 ∧ d.ptState 3 = 1 ∧ 0 + ticksPerMs ≤ d.outerAt 3) ∧
    (let s := point3 1 id; let d := Dev.at (s.dev.rd 3 OUT_PBCFG.TMO_MS * ms) s.dev
     d.ptState 3 = 1 ∧ d.ptDue 3 (d.rd 3 OUT_PBCFG.TMO_MS) = true ∧ (Dev.at 0 s.dev).ptDue 3 (d.rd 3 OUT_PBCFG.TMO_MS) = false) ∧
    (let s := point3 3 fun x => { x with vHist := [(100000 * ms, 0)], shortAt := some 0 }; let d := Dev.at 0 s.dev; let x := d.point 3
     d.ptState 3 = 3 ∧ x.ssAt + d.rd 3 OUT_SSCFG.RAMP_MS * ticksPerMs ≤ d.outerAt 3 ∧ x.shortAt = some 0 ∧
     d.sampledSoft 3 = true ∧ 0 + d.rd 3 OUT_SSCFG.SHORT_MS * ticksPerMs ≤ d.outerAt 3) ∧
    (let d := Dev.at 0 (point3 4 id).dev
     (d.point 3).okAt = none ∧ (d.point 3).shortAt = none ∧ d.ptState 3 ≠ 1 ∧ d.ptState 3 ≠ 3 ∧ d.sampledSoft 3 = false) := by decide +kernel

theorem test_pointStart :
    (let s := booted fun d => ((d.wr 3 OUT_RUNSTAT.STATE 1).wr 0 (CTM_CONT_A.EN 9) 1).wr 0 (CTM_CONT_A.POINT 9) 3 |>.modPoint 3 fun x =>
        { x with okAt := some 0, vHist := [(ms, 0)] }
     let e := left (.prebiasComplete ms 3) s; e.ptState 3 = 2 ∧ e.ctmQueued OK.CONT_CLOSE 9 = true) ∧
    (left (.prebiasTimeout (100000 * ms) 3) (point3 1 id)).rd 3 OUT_RUNSTAT.FAULT = 2 ∧
    (let s := point3 3 fun x => { x with vHist := [(100000 * ms, 0)], shortAt := some 0 }
     (left (.softstartDone 0 3) s).ptState 3 = 4 ∧ (left (.shortSs 0 3) s).ptState 3 = 7 ∧ (left (.shortSs 0 3) s).rd 3 OUT_RUNSTAT.FAULT = 1) := by
  decide +kernel

theorem wit_PointStopSequence :
    (let w := Dev.arrive 0 .pcie (booted fun d => (d.wr 3 OUT_RUNSTAT.STATE 9).wr 3 OUT_RUNSTAT.FAULT 2).dev
     w.reached .pcie .out 3 0x724 ∧ w.passes .out 3 0x724 2#32 = true ∧ w.passes .out 3 0x724 1#32 = true ∧ w.ptState 3 = 9 ∧
     w.outputsLive 3 = false ∧ w.rd 3 OUT_RUNSTAT.FAULT = 2) ∧
    (let w := Dev.arrive 0 .pcie (booted fun d => (((d.wr 3 OUT_RUNSTAT.STATE 9).wr 0 (CTM_CONT_A.EN 9) 1).wr 0 (CTM_CONT_A.POINT 9) 3).wr 0
        (CTM_STAT.STATE 9) 2).dev
     w.ptState 3 = 9 ∧ w.outputsLive 3 = true ∧ w.reached .pcie .out 3 0x724 ∧ w.passes .out 3 0x724 2#32 = true) ∧
    (let s := point3 5 id; let d := Dev.at (s.dev.rd 3 OUT_BOCFG.TMO_MS * ms) s.dev
     d.ptState 3 = 5 ∧ d.ptDue 3 (d.rd 3 OUT_BOCFG.TMO_MS) = true) ∧
    (let s := point3 6 id; let d := Dev.at (s.dev.rd 3 OUT_BOEND.VEHWAIT_MS * ms) s.dev
     d.ptState 3 = 6 ∧ d.ptDue 3 (d.rd 3 OUT_BOEND.VEHWAIT_MS) = true) ∧
    (let s := point3 7 id; let d := Dev.at (1000 * ms) s.dev
     d.ptState 3 = 7 ∧ (d.point 3).disAt + 1000 * ticksPerMs ≤ d.now ∧ (d.point 3).verified = false ∧
     (Dev.at (1000 * ms - 1) s.dev).now < (d.point 3).disAt + 1000 * ticksPerMs) := by
  unfold Dev.reached; decide +kernel

theorem test_pointStop :
    (let s := booted fun d => (d.wr 3 OUT_RUNSTAT.STATE 9).wr 3 OUT_RUNSTAT.FAULT 2
     (left (.pointFaultClear 0 .pcie 3 2#32) s).ptState 3 = 0 ∧ (left (.pointFaultClear 0 .pcie 3 1#32) s).ptState 3 = 9) ∧
    (left (.rampdownTimeout (100000 * ms) 3) (point3 5 id)).ptState 3 = 7 ∧
    (left (.vehwaitTimeout (100000 * ms) 3) (point3 6 id)).rd 3 OUT_DISTIME.MS = 0xFFFF ∧
    (left (.dischargeTimeout (1000 * ms) 3) (point3 7 id)).rd 3 OUT_RUNSTAT.FAULT = 4 ∧
    (left (.dischargeTimeout (1000 * ms - 1) 3) (point3 7 id)).ptState 3 = 7 := by decide +kernel

/-- An operation in slot 5 on entry or point 9. -/
def someOp (kind : Nat) (ph : OpPhase) : Op := { cls := 1, kind := kind, args := leBytes 1 9, phase := ph, slot := 5 }

/-- Entry 9, an OUTPUT entry of point 3, with such an operation in flight. -/
def withOp (o : Op) (f : Dev → Dev) : State := booted fun d =>
  let d := (d.wr 0 (CTM_CONT_A.EN 9) 1).wr 0 (CTM_CONT_A.POINT 9) 3
  f { d with ope := { d.ope with flight := [o] } }

theorem wit_ContactorsConfirmOrFail :
    (let s := withOp (someOp OK.CONT_CLOSE .acting) fun d => d.modEntry 9 fun x => { x with ackAt := some 0, raw := true, ackRun := 255 }
     let d := Dev.at (s.dev.confirmLimit 9 true) s.dev
     d.acked 9 = some (someOp OK.CONT_CLOSE .acting, 0) ∧ d.auxConfirms 9 true = true ∧ d.now = 0 + d.confirmLimit 9 true ∧
     d.rd 0 (CTM_CONT_A.ROLE 9) = 0 ∧ 0 < d.confirmLimit 9 true) ∧
    (let s := withOp (someOp OK.CONT_OPEN .acting) fun d => d.modEntry 9 fun x => { x with ackAt := some 0, raw := false, ackRun := 255 }
     let d := Dev.at 0 s.dev
     d.acked 9 = some (someOp OK.CONT_OPEN .acting, 0) ∧ d.auxConfirms 9 false = true ∧ d.now < 0 + d.confirmLimit 9 false) ∧
    (let s := booted fun d => ((((d.wr 0 (CTM_CONT_A.EN 9) 1).wr 0 (CTM_CONT_A.POINT 9) 3).wr 0 (CTM_STAT.STATE 9) 2).wr 0 SAF_STAT.PAIRON 1).wr 3
        OUT_RUNSTAT.STATE 4 |>.modEntry 9 fun x => { x with run := 255 }
     let d := Dev.at 0 (({ s with dev := s.dev.wr 0 (SAF_PTPAIR.PAIR 3) 0 } : State)).dev
     d.ctmState 9 = 2 ∧ (d.entry 9).raw = false ∧ d.rd 0 CTM_CFG.AUXDEB ≤ (d.entry 9).run ∧ d.on 0 (CTM_STAT.STALE 9) = false ∧
     (d.entry 9).ackAt = none ∧ d.pairOf (d.rd 0 (CTM_CONT_A.POINT 9)) = some 0 ∧ d.pairOn 0 = true ∧ d.ptState 3 = 4 ∧ d.acked 9 = none) ∧
    (let s := point3 4 fun x => { x with isoAt := some 0, isoLostAt := some 0 }; let d := Dev.at (100000 * ms) s.dev; let w := d.isoWatch 3
     w.isoDue 3 (w.point 3).isoLostAt = true ∧ w.isoDue 3 (w.point 3).isoAt = false ∧ d.ptState 3 = 4) := by decide +kernel

theorem test_contactors :
    (let s := withOp (someOp OK.CONT_CLOSE .acting) fun d => d.modEntry 9 fun x => { x with ackAt := some 0, raw := true, ackRun := 255 }
     let e := left (.contactorConfirm 0 9) s
     e.ctmState 9 = 2 ∧ e.rd 0 CTM_CLOSES.COUNT = 1 ∧ (e.opAt 5).map (·.status) = some 0 ∧
     (left (.contactorConfirmTimeout (100000 * ms) 9) s).ctmState 9 = 4) ∧
    (let s := booted fun d => (((d.wr 0 (CTM_CONT_A.EN 9) 1).wr 0 (CTM_CONT_A.POINT 9) 3).wr 0 (CTM_STAT.STATE 9) 2).modEntry 9
        fun x => { x with run := 255 }
     (left (.auxContactChange 0 9) s).ctmState 9 = 6) := by decide +kernel

theorem wit_SwitchOperations :
    (let d := Dev.at 0 (withOp (someOp OK.CONT_CLOSE .issued) fun d => ((((d.wr 3 OUT_RUNSTAT.STATE 2).wr 0 SAF_STAT.PAIRON 1).wr 0 (SAF_PTPAIR.PAIR 3) 0).wr 0 SAF_PTTRIP.PTS 0)).dev
     d.opAt 5 = some (someOp OK.CONT_CLOSE .issued) ∧ (someOp OK.CONT_CLOSE .issued).arg 8 1 = 9 ∧ d.on 0 (CTM_CONT_A.EN 9) = true ∧ d.mayClose 9 = true) ∧
    (let d := Dev.at 0 (withOp (someOp OK.CONT_CLOSE .issued) id).dev; d.on 0 (CTM_CONT_A.EN 9) = true ∧ d.mayClose 9 = false) ∧
    (let d := Dev.at 0 (withOp (someOp OK.CONT_OPEN .issued) fun d => d.wr 0 (CTM_CONT_A.EN 9) 0).dev
     d.opAt 5 = some (someOp OK.CONT_OPEN .issued) ∧ d.on 0 (CTM_CONT_A.EN 9) = false) := by decide +kernel

theorem test_switch :
    (let s := withOp (someOp OK.CONT_CLOSE .issued) fun d =>
        (((((d.wr 3 OUT_RUNSTAT.STATE 2).wr 0 SAF_STAT.PAIRON 1).wr 0 (SAF_PTPAIR.PAIR 3) 0).wr 0 SAF_PTTRIP.PTS 0)).wr 0 (SKN_NODES.POS 0) 1
     let e := left (.contClose 0 5) s; e.ctmState 9 = 1 ∧ (e.skn.reqs.map fun r => (r.port, r.pos, r.value)) = [(0, 0, 1)]) ∧
    ((left (.contClose 0 5) (withOp (someOp OK.CONT_CLOSE .issued) id)).opAt 5).map (·.status) = some 3 ∧
    (left (.contOpen 0 5) (withOp (someOp OK.CONT_OPEN .issued) id)).ctmState 9 = 5 ∧
    (left (.disClose 0 5) (withOp (someOp OK.DIS_CLOSE .issued) fun d => d.wr 0 (SKN_NODES.POS 0) 1)).skn.reqs.length = 1 := by decide +kernel

/-! ### Tension -/

/-- A site of 100 kW and two points, the second without an allocatable session. -/
def someSite : SiteIn := { grid := 100000, reserve := 0, eff := 10000, rowUs := 1000, cls := (List.range 4).map fun _ => ⟨10, 1, 100⟩ }

/-- A point with one strand and an allocatable session. -/
def somePt : PtIn :=
  let v : VehIn := { imax := 100000, pmax := 50000, vpres := 400000, cls := 1 }
  { alloc := true, veh := v, vRow := some 400000, h10 := 90000, h60 := 80000, strs := [⟨0, 300000, 100000, 1000⟩], imax := 500000, pmax := 350000, ramp := 1000 }

theorem wit_AllocationsKeepTheirLimits :
    (allocate someSite [somePt, {}]).pts.length = 2 ∧ somePt.alloc = true ∧ ({} : PtIn).alloc = false ∧
    (∀ x ∈ [somePt, {}], x.veh.cls ≤ 3) ∧ (allocate someSite [somePt, {}]).short = false ∧
    (allocate { someSite with grid := 5000 } [somePt, {}]).short = true := by decide +kernel

theorem wit_RowBoundaryTurnsTheAllocation :
    (let t := 1000 * ticksPerUs; let d := Dev.at t (inRow (t + 1) id).dev
     d.rowDue = some t ∧ d.rd 0 PLY_CFG.MODE = 0 ∧ d.ply.ret = none ∧ d.ply.rejoin = none ∧ d.rd 0 (STAGE_STAT.STATE .alc) ≠ 2 ∧
     d.alc.started = true ∧ t < d.alc.doneAt) ∧
    (let t := 1000 * ticksPerUs; let d := Dev.at t (inRow t fun d => d.wr 0 (SES_STAT.STATE 0) 4).dev
     d.rowDue = some t ∧ d.alc.doneAt ≤ t ∧ (0, 0) ∈ d.alc.live ∧ d.liveSes 0 = some 0 ∧ d.sesState 0 ≠ 5) ∧
    (Dev.at (1000 * ticksPerUs - 1) (inRow 0 id).dev).rowDue = none := by decide +kernel

theorem test_rowActive :
    (let t := 1000 * ticksPerUs; let e := (Dev.at t (inRow t fun d => d.wr 0 (SES_STAT.STATE 0) 4).dev).rowActive t
     e.rdI 0 (ALC_PTSET.MA 0) = 7000 ∧ e.rd 0 ALC_STAT.OVERRUN = 0) ∧
    (let t := 1000 * ticksPerUs
     let e := (Dev.at t (inRow (t + 1) fun d => (d.wrI 0 (ALC_PTSET.MA 0) 9000).wr 0 CBL_H10.MA 8000).dev).rowActive t
     e.rdI 0 (ALC_PTSET.MA 0) = 8000 ∧ e.rd 0 ALC_STAT.OVERRUN = 1) := by decide +kernel

theorem wit_SampleBoundariesFollowTheCarrier :
    (let d := Dev.at 0 (running fun d => (d.wr 0 (PCTRL.EN .str) 1).modStrand 0 fun x => { x with started := false }).dev
     d.strEn 0 = true ∧ d.domOn .cle = true ∧ (d.strand 0).started = false ∧ (d.strand 0).expiring = none ∧
     d.rd 0 (STAGE_STAT.STATE .str) ≠ 2 ∧ d.rd 0 (STAGE_STAT.STATE .cle) ≠ 2 ∧ d.leadOf (d.asgPt 0) = some 0) ∧
    (let s := running fun d => d.wr 0 (PCTRL.EN .str) 1; let t := s.dev.rd 0 STR_CARRIER.PERIOD; let d := Dev.at t s.dev
     (d.strand 0).started = true ∧ (d.strand 0).boundary + d.rd 0 STR_CARRIER.PERIOD = d.now ∧
     (Dev.at (t - 1) s.dev).now < (d.strand 0).boundary + d.rd 0 STR_CARRIER.PERIOD) := by decide +kernel

theorem test_sampleBoundary :
    let s := running fun d => (d.wr 0 (PCTRL.EN .str) 1).wrI 0 (ALC_PTSET.MA 0) 5000; let t := s.dev.rd 0 STR_CARRIER.PERIOD
    let e := left (.sampleBoundary t 0) s
    e.rd 0 STR_SAMPLES.COUNT = 1 ∧ (e.strand 0).awaiting = true ∧ (e.point 0).setUse = 5000 ∧
    (left (.sampleBoundary (t - 1) 0) s).rd 0 STR_SAMPLES.COUNT = 0 := by decide +kernel

theorem wit_TensionInputsAndStall :
    (let w := Dev.arrive 0 .pcie (booted id).dev
     w.reached .pcie .alc 0 0x440 ∧ w.passes .alc 0 0x440 60000000#32 = true ∧ w.siteMax = 60000000 ∧ w.passes .alc 0 0x440 60000001#32 = true) ∧
    (let s := inRow 0 fun d => { (((d.wr 0 ALC_GRID_TMO.MS 10).wr 0 (ALC_CABSRC.EN 3) 1).wr 0 (ALC_CABSRC.CH 3) 1) with alc := { d.alc with overruns := 8 } }
     let d := Dev.at (3 * ticksPerS) s.dev
     d.rd 0 ALC_GRID_TMO.MS ≠ 0 ∧ d.alc.started = true ∧ d.alc.gridFb = false ∧ d.alc.gridAt + 10 * ticksPerMs ≤ d.now ∧
     d.alc.priceRaised = false ∧ max d.alc.firstAt d.alc.priceAt + 3 * ticksPerS = d.now ∧ d.on 0 (ALC_CABSRC.EN 3) = true ∧
     d.cabStale 3 = true ∧ 8 ≤ d.alc.overruns ∧ d.on 0 ALC_STAT.STALL = false) ∧
    (let d := Dev.at 0 (inRow 0 id).dev
     d.now < max d.alc.firstAt d.alc.priceAt + 3 * ticksPerS ∧ d.on 0 (ALC_CABSRC.EN 3) = false ∧ d.alc.overruns < 8) := by
  unfold Dev.reached; decide +kernel

theorem test_tensionInputs :
    (left (.gridWrite 0 .pcie 60000000#32) (inRow 1 id)).rd 0 ALC_GRID.W = 60000000 ∧
    (left (.gridWrite 0 .pcie 60000001#32) (inRow 1 id)).rd 0 (ERRINFO.REASON .alc) = RC.RANGE ∧
    (let s := inRow 0 fun d => { (((d.wr 0 ALC_GRID_TMO.MS 10).wr 0 (ALC_CABSRC.EN 3) 1).wr 0 (ALC_CABSRC.CH 3) 1) with alc := { d.alc with overruns := 8 } }
     let t := 3 * ticksPerS
     (left (.gridTmo (10 * ms)) s).alc.gridFb = true ∧ (left (.priceStale t) s).rd 0 ALC_STAT.PRICE_STALE = 1 ∧
     (left (.priceStale (t - 1)) s).rd 0 ALC_STAT.PRICE_STALE = 0 ∧ (left (.alcStall t) s).rd 0 ALC_STAT.STALL = 1) := by decide +kernel

/-- Strands 0 and 1 at point 0; strand 0 can be joined to point 1, where an authorised session waits for a strand. -/
def handing (f : Dev → Dev) : State := inRow 1 fun d =>
  let d := ((((d.wr 0 (ALC_STRASG.STATE 0) 1).wr 0 (ALC_STRASG.STATE 1) 1).wr 0 (SES_STAT.STATE 0) 3).wr 0 (SES_STAT.POINT 0) 1)
  f (((((d.wr 0 (CTM_CONT_A.EN 9) 1).wr 0 (CTM_CONT_A.ROLE 9) 1).wr 0 (CTM_CONT_A.POINT 9) 1).wr 0 (CTM_CONT_A.POLE 9) 2).wr 0 ALC_CFG.MAX_HANDOVER 4)

theorem wit_HandoversRunThroughTheirStates :
    (let w := Dev.arrive 0 .pcie (handing id).dev; let v := 0x80000001#32
     w.reached .pcie .alc 0 0x460 ∧ w.passes .alc 0 0x460 v = true ∧ v.toNat / 2 ^ 20 % 16 = 0 ∧ 2 ^ 31 ≤ v.toNat ∧
     w.hoReason 0 1 = none ∧ w.hoIdle = some 0 ∧ w.hoReason 1 1 = some 0x82 ∧ w.passes .alc 0 0x460 0x00F00000#32 = true) ∧
    (Dev.arrive 0 .pcie (handing fun d => { d with alc := { d.alc with hoWait := [0, 1, 2, 3] } }).dev).hoIdle = none ∧
    (let s := handing fun d => ((d.wr 0 (ALC_HANDSTAT.STATE 2) 1).wr 0 (ALC_HANDSTAT.TO 2) 1).modStrand 0 fun x => { x with ramp := 1 }
     let d := Dev.at (s.dev.rd 0 ALC_HANDCFG.RAMP_MS * ms) s.dev
     d.rd 0 (ALC_HANDSTAT.STATE 2) = 1 ∧ d.rampOver 0 1 = true ∧ (∀ o ∈ d.ope.flight, o.kind ≠ OK.CONT_CLOSE) ∧
     d.ctmQueued OK.CONT_CLOSE 9 = false) ∧
    (let s := handing fun d => ((d.wr 0 (ALC_HANDSTAT.STATE 2) 3).wr 0 (ALC_HANDSTAT.TO 2) 1).modStrand 0 fun x => { x with preOk := some 0 }
     s.dev.rd 0 (ALC_HANDSTAT.STATE 2) = 3 ∧ (s.dev.strand 0).preOk ≠ none ∧ s.dev.linkTo 0 1 = [9]) ∧
    (let s := handing fun d => (((d.wr 0 (ALC_HANDSTAT.STATE 2) 5).wr 0 (ALC_HANDSTAT.TO 2) 1).wr 0 (ALC_STRASG.STATE 0) 3).wr 1 OUT_RUNSTAT.STATE 4
        |>.modStrand 0 fun x => { x with ramp := 2 }
     let d := Dev.at (s.dev.rd 0 ALC_HANDCFG.RAMP_MS * ms) s.dev
     d.rd 0 (ALC_HANDSTAT.STATE 2) = 5 ∧ d.asg 0 = 3 ∧ d.rampOver 0 2 = true ∧ d.ptState 1 ≠ 0) := by
  unfold Dev.reached; decide +kernel

theorem test_handover :
    (let e := left (.handoverRequest 0 .pcie 0x80000001#32) (handing id); e.alc.hoWait = [0] ∧ e.rd 0 (ALC_HANDSTAT.TO 0) = 1) ∧
    (left (.handoverRequest 0 .pcie 0x80000101#32) (handing id)).rd 0 (ERRINFO.REASON .alc) = 0x82 ∧
    (let s := handing fun d => (d.wr 0 (ALC_HANDSTAT.STATE 1) 6).wr 0 (ALC_HANDSTAT.STATE 2) 5
     let e := left (.handoverAck 0 .pcie 0x00F00000#32) s; e.rd 0 (ALC_HANDSTAT.STATE 1) = 0 ∧ e.rd 0 (ALC_HANDSTAT.STATE 2) = 5) ∧
    (let s := handing fun d => ((d.wr 0 (ALC_HANDSTAT.STATE 2) 1).wr 0 (ALC_HANDSTAT.TO 2) 1).modStrand 0 fun x => { x with ramp := 1 }
     (left (.handoverRampOutEnd (100000 * ms) 2) s).rd 0 (ALC_HANDSTAT.STATE 2) = 2) ∧
    (let s := handing fun d => ((d.wr 0 (ALC_HANDSTAT.STATE 2) 3).wr 0 (ALC_HANDSTAT.TO 2) 1).modStrand 0 fun x => { x with preOk := some 0 }
     (left (.handoverPrebiasDone 0 2) s).ctmQueued OK.CONT_CLOSE 9 = true) ∧
    (let s := handing fun d => (((d.wr 0 (ALC_HANDSTAT.STATE 2) 5).wr 0 (ALC_HANDSTAT.TO 2) 1).wr 0 (ALC_STRASG.STATE 0) 3).wr 1 OUT_RUNSTAT.STATE 4
        |>.modStrand 0 fun x => { x with ramp := 2 }
     let e := left (.handoverRampInEnd (100000 * ms) 2) s; e.asg 0 = 1 ∧ e.asgPt 0 = 1) := by decide +kernel

/-! ### Skein -/

/-- Port 2 receives; a node of class 1 at position 3. -/
def live2 (f : Dev → Dev) : State := running fun d => f (((d.wr 2 (PCTRL.EN .skn) 1).wr 2 SKN_LINK.UP 1).wr 2 (SKN_NODES.POS 3) 1)

/-- A frame of a TYPE from position 3, with its next two bytes, filled with zeros to a length and closed by its CRC. -/
def frame3 (type a b n : Nat) (rest : List Byte := []) : List Byte :=
  withCrc ((([BitVec.ofNat 8 type, 3#8, BitVec.ofNat 8 a, BitVec.ofNat 8 b] ++ rest) ++ List.replicate n 0#8).take (n - 4))

/-- A port that is no ring end takes an intact frame of the TYPE. -/
def takesAny (d : Dev) (k type : Nat) (f : List Byte) : Bool :=
  d.sknLive k && (frameOk f && (leAt f 0 1 = type && d.rd (d.homePort k) SKN_CFG.TOPO ≠ 1))

theorem rxTakes_of_any {d : Dev} {k type : Nat} {f : List Byte} (h : takesAny d k type f = true) : d.rxTakes k type f := by
  unfold takesAny at h
  simp only [Bool.and_eq_true, decide_eq_true_eq] at h
  exact ⟨h.1, h.2.1, h.2.2.1, fun _ _ => .inl h.2.2.2⟩

theorem wit_SkeinDiscardsWhatItCannotTake :
    (Dev.at 0 (running id).dev).sknLive 2 = false ∧ (Dev.at 0 (live2 id).dev).sknLive 2 = true ∧ frameOk [0#8] = false ∧
    frameOk (frame3 0x04 7 0 12) = true ∧ leAt (frame3 0x04 7 0 12) 0 1 ≠ 0x20 ∧
    (let d := Dev.at 0 (live2 fun d => ((d.wr 2 SKN_CFG.TOPO 1).wr 2 (SKN_EXPECT.POS 3) 1).setNode 2 3 { last := [(0x04, 9), (0x04, 7)] }).dev
     frameKey (frame3 0x04 7 0 12) = some 7 ∧ d.rd (d.homePort 2) SKN_CFG.TOPO = 1 ∧ d.sknLive 2 = true ∧
     (0x04, 7) ∈ (d.node (d.homePort 2) (framePos (frame3 0x04 7 0 12))).last) := by decide +kernel

theorem test_crcErr : (left (.tlmRx 0 2 [0#8]) (live2 id)).rd 2 SKN_CRCERR.COUNT = 1 := by decide +kernel

theorem wit_SkeinLinkAndTime :
    (let d := Dev.at 0 (running fun d => d.wr 2 (PCTRL.EN .skn) 1).dev
     (d.sknOn 2 && d.en .skn 2) = true ∧ d.on 2 SKN_LINK.UP = false ∧ d.on 2 SKN_LINK.SYNCD = false ∧ d.homePort 2 = 2 ∧ d.plySilent = false) ∧
    (let s := live2 id; let d := Dev.at (s.dev.rd 2 SKN_SYNC.PERIOD_US * ticksPerUs) s.dev
     d.on 2 SKN_LINK.UP = true ∧ d.sknLive 2 = true ∧ (d.sport 2).syncAt + d.rd 2 SKN_SYNC.PERIOD_US * ticksPerUs = d.now ∧
     0 < d.rd 2 SKN_SYNC.PERIOD_US * ticksPerUs ∧ takesAny d 2 0x04 (frame3 0x04 7 0 12) = true) := by decide +kernel

theorem test_skeinLink :
    (let e := left (.sknLinkUp 0 2) (running fun d => d.wr 2 (PCTRL.EN .skn) 1); e.rd 2 SKN_LINK.UP = 1 ∧ e.sent.length = 1) ∧
    (left (.sknSyncLoss 0 2) (live2 id)).rd 2 SKN_LINK.UP = 0 ∧
    (left (.sknSyncRegain 0 2) (live2 id)).rd 2 SKN_LINK.SYNCD = 1 ∧
    (left (.sknSyncSend (100000 * ms) 2) (live2 id)).sport 2 = { syncSeq := 1, syncAt := 100000 * ms } ∧
    (left (.dlyReqRx 0 2 (frame3 0x04 7 0 12)) (live2 id)).sent.length = 1 := by decide +kernel

theorem wit_SkeinNodesAreIdentifiedAndLost :
    takesAny (Dev.at 0 (live2 id).dev) 2 0x03 (frame3 0x03 1 0 16) = true ∧ leAt (frame3 0x03 15 0 16) 2 1 < 16 ∧
    takesAny (Dev.at 0 (live2 id).dev) 2 0x21 (frame3 0x21 1 2 24) = true ∧
    (let d := Dev.at ms (live2 fun d => d.wr 2 (SKN_EXPECT.POS 5) 1).dev
     d.sknLive 2 = true ∧ d.on 2 (SKN_EXPECT.POS 5) = true ∧ d.nodeClass 2 5 = 0 ∧ (d.node 2 5).mismatch = false ∧
     (d.sport 2).enumAt + ticksPerMs = d.now) ∧
    (let s := live2 fun d => ((d.wr 0 (PCTRL.EN .str) 1).wr 0 STR_TLMSRC.PORT 2).wr 0 STR_TLMSRC.NODE 3
     let d := Dev.at (5 * s.dev.rd 2 SKN_STATCFG.PERIOD_MS * ms) s.dev
     d.nodeClass 2 3 ≠ 0 ∧ d.on 2 (SKN_NSTAT.LOST 3) = false ∧ (d.node 2 3).statusAt + 5 * d.rd 2 SKN_STATCFG.PERIOD_MS * ticksPerMs = d.now ∧
     0 ∈ d.strandsAt 2 3 ∧ d.strRunning 0 = true ∧ (d.strand 0).restartAt = none) := by
  decide +kernel

theorem test_nodes :
    (let e := left (.identRx 7 2 (frame3 0x03 4 0 16)) (live2 id); e.nodeClass 2 3 = 4 ∧ (e.node 2 3).mismatch = true) ∧
    (left (.statusRx 7 2 (frame3 0x21 1 2 24)) (live2 id)).rd 2 (SKN_NSTAT.STATE 3) = 2 ∧
    ((left (.enumIdentTimeout ms 2 5) (live2 fun d => d.wr 2 (SKN_EXPECT.POS 5) 1)).node 2 5).mismatch = true ∧
    (let s := live2 fun d => ((d.wr 0 (PCTRL.EN .str) 1).wr 0 STR_TLMSRC.PORT 2).wr 0 STR_TLMSRC.NODE 3
     (left (.nodeLost (100000 * ms) 2 3) s).rd 0 STR_FAULT.CODE = 0x41) := by decide +kernel

/-- A request of the operation in slot 5 that waits at the node. -/
def someReq : IoReq := { port := 2, pos := 3, tag := 7, op := 0, index := 1, value := 1, resends := 0, sentAt := 0, owner := .op 5 }

/-- It waits, its operation acting. -/
def asking (f : Dev → Dev) : State := live2 fun d =>
  f { d with ope := { d.ope with flight := [someOp OK.DIS_CLOSE .acting] }, skn := { d.skn with reqs := [someReq] } }

theorem wit_SkeinInputsAndRequests :
    takesAny (Dev.at 0 (live2 id).dev) 2 0x30 (frame3 0x30 5 0 13 [9#8, 1#8]) = true ∧ ioInEntries (frame3 0x30 5 0 13 [9#8, 1#8]) = [(9, 1)] ∧
    (Dev.at 0 (live2 id).dev).nodeClass 2 3 ≠ 0 ∧ framePos (frame3 0x30 5 0 13 [9#8, 1#8]) = 3 ∧
    (Dev.at 0 (live2 fun d => d.wr 2 (SKN_NODES.POS 3) 0).dev).nodeClass 2 3 = 0 ∧
    (let s := live2 fun d => { d with skn := { d.skn with inputs := [(inKey 2 3 9, { seen := true })] } }
     let d := Dev.at (4 * s.dev.rd 2 SKN_IOCFG.CYC_US * ticksPerUs) s.dev; let x := d.inRec 2 3 9
     x.seen = true ∧ x.stale = false ∧ x.time + 4 * d.rd 2 SKN_IOCFG.CYC_US * ticksPerUs = d.now) ∧
    (let d := Dev.at 0 (asking id).dev
     takesAny d 2 0x32 (frame3 0x32 7 0 16) = true ∧ d.skn.reqs.find? (fun r => r.port = 2 && r.pos = 3 && r.tag = 7) = some someReq ∧
     d.opAt 5 = some (someOp OK.DIS_CLOSE .acting)) ∧
    (let s := asking id; let d := Dev.at (s.dev.rd 2 SKN_IOCFG.TMO_US * ticksPerUs) s.dev
     someReq.sentAt + d.rd 2 SKN_IOCFG.TMO_US * ticksPerUs = d.now ∧ someReq.resends < d.rd 2 SKN_IOCFG.RETRY ∧ d.nodeUp 2 3 = true) ∧
    (asking fun d => d.wr 2 SKN_IOCFG.RETRY 0).dev.rd 2 SKN_IOCFG.RETRY = 0 := by
  decide +kernel

theorem test_io :
    (left (.ioInRx 0 2 (frame3 0x30 5 0 13 [9#8, 1#8])) (live2 id)).input 2 3 9 = some 1 ∧
    (let e := left (.ioAckRx 0 2 (frame3 0x32 7 2 16)) (asking id); e.skn.reqs = [] ∧ (e.opAt 5).map (·.status) = some 0x12) ∧
    (left (.ioAckTimeout (100000 * ms) 2 3) (asking id)).rd 2 SKN_IORETRY.COUNT = 1 ∧
    ((left (.ioAckTimeout (100000 * ms) 2 3) (asking fun d => d.wr 2 SKN_IOCFG.RETRY 0)).opAt 5).map (·.status) = some 6 ∧
    (let s := live2 fun d => { d with skn := { d.skn with inputs := [(inKey 2 3 9, { seen := true })] } }
     (left (.inputStale (100000 * ms) 2 3 9) s).input 2 3 9 = none) := by decide +kernel

/-- Strand 0 runs on the node, its sample at 1,000,000 awaited; a TLM frame of it with 100 in phase 0 and every phase
valid. -/
def sampling (f : Dev → Dev) : State := live2 fun d =>
  f ((((d.wr 0 (PCTRL.EN .str) 1).wr 0 STR_TLMSRC.PORT 2).wr 0 STR_TLMSRC.NODE 3).modStrand 0 fun x =>
    { x with awaiting := true, boundary := 1000000, armed := true, dl := d.rd 0 CLE_CFG.TLM_DL })

/-- Its peak sample is awaited, the valley sample having come. -/
def peakSampling (f : Dev → Dev) : State := sampling fun d => f (d.modStrand 0 fun x => { x with awaiting := false, awaitPeak := true })

/-- That frame. -/
def tlm0 : List Byte := frame3 0x20 0xFF 0 40 (leBytes 4 1000000 ++ leBytes 2 100)

theorem wit_SamplesRunTheLoopsOrRepeatTheEdges :
    (let d := Dev.at 1000001 (sampling id).dev; let m := tlmOf d.now tlm0
     takesAny d 2 0x20 tlm0 = true ∧ d.strandsAt (d.homePort 2) (framePos tlm0) = [0] ∧ leAt tlm0 3 1 % 32 = 0 ∧ (d.strand 0).awaiting = true ∧
     d.tlmOfTime 0 m (d.strand 0).boundary = true ∧ d.now ≤ d.tlmDeadline 0 ∧ d.strRunning 0 = true ∧ d.between 0 = false ∧
     (∀ ph ∈ d.actPhases 0, m.valid.testBit ph = true ∧ (m.iph.getD ph 0).natAbs ≤ d.rd 0 STR_IPHTRIP.I) ∧
     d.rdI 0 STR_DMIN.D ≤ d.rdI 0 STR_DMAX.D ∧ d.ptState (d.asgPt 0) = 4 ∧ d.leadOf (d.asgPt 0) = some 0 ∧ (d.point (d.asgPt 0)).clampNow = false) ∧
    (let s := sampling id; let d := Dev.at (s.dev.tlmDeadline 0 + 1) s.dev
     (d.strand 0).awaiting = true ∧ d.tlmDeadline 0 < d.now ∧ (Dev.at (s.dev.tlmDeadline 0) s.dev).now ≤ d.tlmDeadline 0) ∧
    (let s := peakSampling id; let d := Dev.at (s.dev.peakDeadline 0 + 1) s.dev
     (d.strand 0).awaiting = false ∧ (d.strand 0).awaitPeak = true ∧ d.peakDeadline 0 < d.now ∧
     (Dev.at (s.dev.peakDeadline 0) s.dev).now ≤ d.peakDeadline 0) := by
  decide +kernel

theorem test_sample :
    (let e := left (.tlmRx 1000001 2 tlm0) (sampling id); e.rdI 0 STR_IMEAS.MA = 1000 ∧ (e.strand 0).awaiting = false) ∧
    (let e := left (.tlmDeadlineMiss (10000000) 0) (sampling id); e.rd 0 STR_MISS.COUNT = 1 ∧ (e.strand 0).miss = 1) ∧
    (let e := left (.tlmDeadlineMiss (10000000) 0) (peakSampling id); e.rd 0 STR_MISS.COUNT = 1 ∧ (e.strand 0).awaitPeak = false) := by decide +kernel

/-! ### Temperatures, load switches, auxiliary loops -/

/-- Channel 5 in DIODE mode with an ideality of 1, armed, and changed. -/
def diode (f : Thm → Thm) : State := booted fun d =>
  (((d.wr 5 THM_CFG.MODE 1).wr 5 THM_DIODE.IDEAL 10000).wr 5 THM_CFG.HWEN 1).modThm 5 f

theorem wit_TemperatureChannels :
    (let d := Dev.at 320000 (diode id).dev
     d.rd 5 THM_CFG.MODE ≠ 0 ∧ d.domOn .safe = true ∧ d.thmSlot 5 = true ∧ (Dev.at 319999 (diode id).dev).thmSlot 5 = false ∧
     (Dev.at 640000 (diode id).dev).thmSlot 5 = false ∧ d.thmBad 5 712340 600000 = (false, false, false) ∧ d.rd 5 THM_STAT.BROKEN = 0 ∧
     (d.thmTemp 5 712340).isSome = true ∧ d.thmBad 5 712340 1000001 = (true, false, false) ∧ d.thmBad 5 712340 1000000 = (false, false, false) ∧
     d.thmBad 5 0 199999 = (false, true, true)) ∧
    (Dev.at 0 (booted id).dev).rd 5 THM_CFG.MODE = 0 ∧
    (let d := Dev.at 0 (diode fun x => { x with shortN := 3, hotN := 2 }).dev
     3 ≤ (d.thmRec 5).shortN ∧ d.on 5 THM_CFG.HWEN = true ∧ 2 ≤ (d.thmRec 5).hotN) ∧
    (let s := diode fun x => { x with cleanN := 20, coolAt := some 0, trip := 2 }
     let d := Dev.at (s.dev.rd 5 THM_HWCOOL.COOL_S * ticksPerS) (((s.dev.wr 5 THM_STAT.BROKEN 2).wr 5 THM_TEMP.VALID 1).wr 5 THM_TEMP.T 250)
     let x := d.thmRec 5
     d.rd 5 THM_STAT.BROKEN ≠ 0 ∧ 20 ≤ x.cleanN ∧ x.coolAt = some 0 ∧ x.trip = 2 ∧ 0 + d.rd 5 THM_HWCOOL.COOL_S * ticksPerS = d.now ∧
     d.coolOk 5 = true) := by
  decide +kernel

theorem test_thermal :
    (let e := left (.thmConversion 320000 5 712340 600000) (diode id); e.rdI 5 THM_TEMP.T = 250 ∧ e.rd 5 THM_TEMP.VALID = 1 ∧ e.rd 5 THM_CONV.COUNT = 1) ∧
    (left (.thmBroken 0 5) (diode fun x => { x with shortN := 3 })).rd 5 THM_STAT.BROKEN = 2 ∧
    (left (.thmRecovered 0 5) (booted fun d => (d.wr 5 THM_STAT.BROKEN 2).modThm 5 fun x => { x with cleanN := 20, last := 251 })).rdI 5 THM_TEMP.T = 251 ∧
    ((left (.hwComparatorTrip 0 5) (diode fun x => { x with hotN := 2 })).thmRec 5).trip = 1 ∧
    (left (.hwCoolRelease (1000 * ticksPerS) 5) (booted fun d => ((d.wr 5 THM_STAT.HWTRIP 1).wr 5 THM_TEMP.VALID 1).modThm 5 fun x => { x with coolAt := some 0, trip := 2 })).rd 5
      THM_STAT.HWTRIP = 0 := by decide +kernel

/-- Cable 3 with its pin sensor on channel 5, whose readings rise by 5 K in the last second. -/
def heating (f : Dev → Dev) : State := booted fun d =>
  let w := 100 * ticksPerMs
  f ((((d.wr 3 CBL_CFG.EN 1).wr 3 (CBL_PINSRC.EN 0) 1).wr 3 (CBL_PINSRC.CH 0) 5).wr 5 THM_TEMP.VALID 1 |>.modThm 5 fun x =>
    { x with hist := [(20 * w - 5, 300), (10 * w - 5, 250)] })

theorem wit_RateOfRiseAndDieTemperature :
    (let d := Dev.at (2 * ticksPerS) (heating id).dev; let ix := d.now / (100 * ticksPerMs)
     d.on 3 CBL_CFG.EN = true ∧ (d.cblRec 3).rorIx < ix ∧ d.rorRate (d.rd 3 (CBL_PINSRC.CH 0)) (ix * (100 * ticksPerMs)) = some 500) ∧
    (let w := Dev.arrive 0 .pcie (heating id).dev
     w.reached .pcie .cbl 3 0x47C ∧ w.passes .cbl 3 0x47C 1#32 = true ∧ w.passes .cbl 3 0x47C 0#32 = true ∧
     w.rdI 3 CBL_ROR.RATE < (w.rd 3 CBL_ROR1.WARN : Int) - w.rd 3 CBL_ROR2.HYS ∧ w.domOn .core = true) ∧
    (let w := Dev.arrive 0 .pcie (heating fun d => d.wr 3 CBL_ROR.RATE 1000).dev
     w.reached .pcie .cbl 3 0x47C ∧ w.passes .cbl 3 0x47C 1#32 = true ∧
     (w.rd 3 CBL_ROR1.WARN : Int) - w.rd 3 CBL_ROR2.HYS ≤ w.rdI 3 CBL_ROR.RATE) ∧
    (let d := Dev.at (2 * ticksPerS) (heating fun d => d.wr 3 (CBL_PINSRC.EN 0) 0).dev
     d.on 3 CBL_CFG.EN = true ∧ (d.cblRec 3).rorIx < d.now / (100 * ticksPerMs) ∧ ∀ k < 4, d.on 3 (CBL_PINSRC.EN k) = false) := by
  unfold Dev.reached; decide +kernel

theorem test_ror :
    (let e := left (.rorEvaluation (2 * ticksPerS) 3) (heating fun d => d.wr 3 CBL_ROR2.TRIP 500); e.rdI 3 CBL_ROR.RATE = 500 ∧ e.rd 3 CBL_STAT.LEVEL = 3) ∧
    (left (.rorTripClear 0 .pcie 3 1#32) (heating fun d => d.wr 3 CBL_STAT.LEVEL 3)).rd 3 CBL_STAT.LEVEL = 0 ∧
    (let e := left (.dieSensorRead 0 [250, 250, 250, 250, 250, 250, 250, 250]) (booted id); e.rdI 0 (DTM_TEMP.T 7) = 250) := by decide +kernel

/-- Channel 2 enabled in a state, and changed. -/
def sw (st : Nat) (f : Dev → Dev) : State := booted fun d => f ((d.wr 2 LSW_CFG.EN 1).wr 2 LSW_STAT.STATE st)

theorem wit_LoadSwitchTripsAndSupply :
    (let d := Dev.at 0 (sw 1 fun d => d.wr 2 (LSW_CURVE_I.MA 0) 1).dev
     d.on 2 LSW_CFG.EN = true ∧ d.domOn .core = true ∧ d.rd 2 LSW_ACC.A ≤ 2 ^ 30 ∧ d.lswState 2 = 1 ∧ d.lswIeff 2 [] < d.rd 2 (LSW_CURVE_I.MA 0)) ∧
    (Dev.at 0 (sw 1 fun d => d.wr 2 (LSW_CURVE_I.MA 0) 0).dev |>.rd 2 (LSW_CURVE_I.MA 0)) = 0 ∧
    (let d := Dev.at (10 * ms) (sw 5 fun d => { ((d.wr 2 LSW_CFG.RECOVER 1).wr 3 LSW_STAT.STATE 5).wr 3 LSW_CFG.RECOVER 1 with vaux := { low := 2, above := some 0 } }).dev
     2 ≤ d.vaux.low ∧ d.vauxGood = true ∧ d.lswState 2 = 5 ∧ (d.lswRec 2).uvAt = none ∧ d.on 2 LSW_CFG.RECOVER = true ∧
     d.lswState 3 = 5 ∧ (d.lswRec 3).uvAt = none ∧ d.on 3 LSW_CFG.RECOVER = true) ∧
    (let d := Dev.at 7 (sw 5 fun d => d.modLsw 2 fun x => { x with uvAt := some 7, prev := 1 }).dev
     (d.lswRec 2).uvAt = some 7 ∧ d.lswState 2 = 5 ∧ d.on 2 LSW_STAT.TLATCH = false ∧ d.vaux.low < 2 ∧ d.vauxGood = false) ∧
    (let s := sw 3 fun d => { (d.wr 2 LSW_RETRY.MAX 1).modLsw 2 fun x => { x with retry := true, prev := 1 } with vaux := { above := some 0 } }
     let d := Dev.at (s.dev.rd 2 LSW_RETRY.DELAY_MS * ms) s.dev; let x := d.lswRec 2
     d.lswState 2 = 3 ∧ x.retry = true ∧ x.tripAt + d.rd 2 LSW_RETRY.DELAY_MS * ticksPerMs = d.now ∧ d.on 2 LSW_STAT.TLATCH = false ∧
     d.rd 2 LSW_ACC.A * 100 ≤ d.rd 2 LSW_RETRY.REARM_PCT * 2 ^ 30 ∧ d.vaux.above ≠ none ∧ d.rd 2 LSW_STAT.RETRIES < d.rd 2 LSW_RETRY.MAX ∧ x.prev < 16) ∧
    (let s := sw 1 id; let d := Dev.at (s.dev.rd 2 LSW_RETRY2.RESET_S * ticksPerS) s.dev
     d.lswOn 2 = true ∧ (d.lswRec 2).onAt + d.rd 2 LSW_RETRY2.RESET_S * ticksPerS = d.now) := by decide +kernel

theorem test_lswTrips :
    (let e := left (.lswShortTrip 0 2) (sw 1 fun d => d.wr 2 LSW_RETRY.MAX 1); e.lswState 2 = 3 ∧ e.rd 2 LSW_STAT.FAULT = 2 ∧ e.rd 2 LSW_ACC.A = 2 ^ 30) ∧
    (let s := sw 1 fun d => { d with vaux := { low := 2 } }; (left (.lswUvOff 0) s).lswState 2 = 5) ∧
    (left (.vaux24Measure 0 899) (sw 1 id)).rd 2 LSW_STAT.UV_HOLD = 1 ∧ (left (.vaux24Measure 0 900) (sw 1 id)).rd 2 LSW_STAT.UV_HOLD = 0 ∧
    (let s := sw 5 fun d => { ((d.wr 2 LSW_CFG.RECOVER 1).wr 3 LSW_STAT.STATE 5).wr 3 LSW_CFG.RECOVER 1 with vaux := { low := 2, above := some 0 } }
     let e := left (.lswUvRecover (10 * ms)) s; ((e.lswRec 3).uvAt.getD 0) - ((e.lswRec 2).uvAt.getD 0) = 10 * ms) ∧
    (left (.lswUvStaggerOn 7 2) (sw 5 fun d => d.modLsw 2 fun x => { x with uvAt := some 7, prev := 1 })).lswState 2 = 1 ∧
    (let s := sw 3 fun d => { (d.wr 2 LSW_RETRY.MAX 1).modLsw 2 fun x => { x with retry := true, prev := 1 } with vaux := { above := some 0 } }
     let e := left (.lswRetryRestart (100 * ticksPerS) 2) s; e.lswState 2 = 1 ∧ e.rd 2 LSW_STAT.RETRIES = 1) ∧
    (left (.lswCounterReset (10000 * ticksPerS) 2) (sw 1 fun d => d.wr 2 LSW_STAT.RETRIES 3)).rd 2 LSW_STAT.RETRIES = 0 := by decide +kernel

/-- An issued load-switch operation on channel 2, full duty. -/
def swOp (kind : Nat) : Op := { cls := 1, kind := kind, args := [2#8, 0#8, 0#8, 0#8, 255#8, 255#8], phase := .issued, slot := 5 }

/-- It stands in slot 5. -/
def swAct (st kind : Nat) (f : Dev → Dev) : State := sw st fun d => f { d with ope := { d.ope with flight := [swOp kind] } }

theorem wit_LoadSwitchCommands :
    (let d := Dev.at 0 (swAct 1 OK.LSW_PWM id).dev
     d.opAt 5 = some (swOp OK.LSW_PWM) ∧ (swOp OK.LSW_PWM).arg 8 1 = 2 ∧ (swOp OK.LSW_PWM).arg 12 2 = 0xFFFF ∧ d.domOn .core = true) ∧
    (Dev.at 0 (swAct 1 OK.LSW_ON fun d => d.setDomState .core 2).dev).domOn .core = false ∧
    (let w := Dev.arrive 0 .pcie (sw 4 fun d => d.wr 2 LSW_STAT.FAULT 2).dev
     w.reached .pcie .lsw 2 0x454 ∧ w.passes .lsw 2 0x454 2#32 = true ∧ w.passes .lsw 2 0x454 1#32 = true ∧ w.rd 2 LSW_STAT.FAULT = 2 ∧
     w.reached .pcie .lsw 2 0x440 ∧ w.passes .lsw 2 0x440 0xFFFF#32 = true ∧ w.on 2 LSW_CFG.AUXOWN = false) ∧
    (Dev.arrive 0 .pcie (sw 1 fun d => d.wr 2 LSW_CFG.AUXOWN 1).dev).on 2 LSW_CFG.AUXOWN = true := by
  unfold Dev.reached; decide +kernel

theorem test_lswCommands :
    (let e := left (.lswPwm 0 5) (swAct 1 OK.LSW_PWM id); e.lswState 2 = 2 ∧ e.rd 2 LSW_DUTY.DUTY = 0xFFFF) ∧
    (left (.lswOn 0 5) (swAct 0 OK.LSW_ON id)).lswState 2 = 1 ∧
    (let e := left (.lswOn 0 5) (swAct 4 OK.LSW_ON id); e.lswState 2 = 4 ∧ (e.opAt 5).map (·.status) = some 2) ∧
    (left (.lswOff 0 5) (swAct 1 OK.LSW_OFF id)).lswState 2 = 0 ∧
    (left (.lswClear 0 .pcie 2 2#32) (sw 4 fun d => d.wr 2 LSW_STAT.FAULT 2)).lswState 2 = 0 ∧
    (left (.lswDutyWrite 0 .pcie 2 7#32) (sw 1 fun d => d.wr 2 LSW_CFG.AUXOWN 1)).rd 2 (ERRINFO.REASON .lsw) = 0x83 := by decide +kernel

/-- Loop 3 runs on channel 5, which reads 25 °C. -/
def auxing (f : Dev → Dev) : State := booted fun d => f (((((d.wr 3 (PCTRL.EN .aux) 1).wr 3 AUX_CFG.SRC 5).wr 5 THM_TEMP.VALID 1).wrI 5 THM_TEMP.T 250).modThm 5
  fun x => { x with lastAt := 1 })

theorem wit_AuxiliaryLoops :
    (let d := Dev.at ms (auxing id).dev
     d.auxOn 3 = true ∧ (d.auxRec 3).ix < d.now / ticksPerMs ∧ d.auxIn 3 = some 250 ∧ d.rdI 3 AUX_UMIN.U ≤ d.rdI 3 AUX_UMAX.U) ∧
    (let d := Dev.at ms (auxing fun d => d.wr 3 AUX_CFG.SRC 6).dev; d.auxOn 3 = true ∧ d.auxIn 3 = none) ∧
    (Dev.at 0 (booted id).dev).auxOn 3 = false := by decide +kernel

theorem test_aux :
    (let e := left (.auxSample ms 3) (auxing id); e.rdI 3 AUX_MEAS.MEAS = 250 ∧ (e.auxRec 3).ix = 1) ∧
    (let e := left (.auxSrcBad ms 3) (auxing fun d => (d.wr 3 AUX_CFG.SRC 6).wrI 3 AUX_FAILSAFE.U 77); e.rdI 3 AUX_U.U = 77 ∧ e.rd 3 AUX_STAT.SRC_BAD = 1) := by
  decide +kernel

/-! ### Sessions and vehicle interfaces -/

/-- Within a row, session 2 on point 3 in a state, its record and the block changed; the point has vehicle interface 0 on Ethernet. -/
def ses (st : Nat) (x : Ses) (f : Dev → Dev) : State := inRow 1 fun d =>
  let d := ((((d.wr 0 CLK_STAT.FB 0).wr 0 (SES_STAT.STATE 2) st).wr 0 (SES_STAT.POINT 2) 3).wr 0 SAF_PTTRIP.PTS 0).modSes 2 fun _ => x
  f (((d.wr 0 (VCM_PT_A.EN 3) 1).wr 0 (VCM_PT_B.LTYPE 3) 1).wr 0 SES_WSEL.SES 2)

/-- The SES_CMD word of an operation on session 2 with a PSEQ. -/
def sesWord (op seq : Nat) : Word := BitVec.ofNat 32 (op * 2 ^ 28 + 2 * 2 ^ 16 + seq)

theorem wit_SessionTargetsAndStart :
    (let d := Dev.arrive 0 .pcie (ses 2 { pseq := 7 } fun d => d.wr 0 (SES_STAT.PEND 2) 1).dev
     d.reached .pcie .ses 0 0x444 ∧ (∀ op ∈ [1, 2, 3, 4, 5, 6], d.passes .ses 0 0x444 (sesWord op 7) = true) ∧ d.sesState 2 = 2 ∧
     d.on 0 (SES_STAT.PEND 2) = true ∧ (d.sesRec 2).pseq = 7 ∧ (d.sesRec 2).validated = false) ∧
    (let d := Dev.arrive 0 .pcie (ses 2 { validated := true } id).dev
     (d.sesRec 2).validated = true ∧ (d.on 0 SYS_STAT.RELEASED && !d.on 0 CLK_STAT.FB && d.ptState 3 = 0 && !d.ptLocked 3 &&
        (List.range 64).all fun k => k = 2 || d.rd 0 (SES_STAT.POINT k) ≠ 3 || d.sesState k < 3 || 5 < d.sesState k) = true ∧
     d.on 0 (SES_STAT.PEND 2) = false) ∧
    (Dev.arrive 0 .pcie (ses 2 { validated := true } fun d => d.wr 0 SYS_STAT.RELEASED 0).dev).on 0 SYS_STAT.RELEASED = false ∧
    (let d := Dev.arrive 0 .pcie (ses 4 {} fun d => d.wr 0 (SES_STAT.ENDREQ 2) 1).dev; d.sesState 2 = 4 ∧ d.on 0 (SES_STAT.ENDREQ 2) = true) ∧
    (let d := Dev.arrive 0 .pcie (ses 5 {} fun d => d.wr 3 OUT_IMAX.MA 1000).dev
     d.sesState 2 = 5 ∧ d.rd 3 OUT_IMAX.MA = 1000 ∧ (∀ off ∈ [0x480, 0x484, 0x488, 0x48C, 0x490], d.reached .pcie .ses 0 off ∧
       d.passes .ses 0 off 0#32 = true) ∧ d.passes .ses 0 0x480 1000#32 = true ∧ d.passes .ses 0 0x480 1001#32 = true) := by
  unfold Dev.reached; decide +kernel

theorem test_sesTargets :
    (let s := ses 2 { pseq := 7, pimax := 9 } fun d => d.wr 0 (SES_STAT.PEND 2) 1
     let e := left (.sesValidate 0 .pcie (sesWord 1 7)) s; (e.sesRec 2).aimax = 9 ∧ e.rd 0 (SES_STAT.PEND 2) = 0 ∧
     (left (.sesValidate 0 .pcie (sesWord 1 6)) s).rd 0 (ERRINFO.REASON .ses) = 0x81 ∧
     (left (.sesReject 0 .pcie (sesWord 2 7)) s).rd 0 (SES_STAT.PEND 2) = 0) ∧
    (let s := ses 5 {} fun d => d.wr 3 OUT_IMAX.MA 1000
     ((left (.pendingTargetWrite 0 .pcie 0x480 1000#32) s).sesRec 2).pimax = 1000 ∧
     (left (.pendingTargetWrite 0 .pcie 0x480 1001#32) s).rd 0 (ERRINFO.REASON .ses) = RC.RANGE) ∧
    (left (.pendingTargetWrite 0 .pcie 0x490 3#32) (ses 6 {} id)).rd 0 (ERRINFO.REASON .ses) = 0x80 ∧
    (left (.pendingTargetWrite 0 .pcie 0x480 0x1000#32) (ses 6 {} fun d => d.wr 3 OUT_IMAX.MA 0xFFF)).rd 0 (ERRINFO.REASON .ses) = RC.RANGE := by decide +kernel

theorem test_sesStart :
    (let e := left (.sesStart 9 .pcie (sesWord 4 0)) (ses 2 { validated := true } id); e.sesState 2 = 3 ∧ (e.sesRec 2).refreshAt = some 9) ∧
    (left (.sesStart 9 .pcie (sesWord 4 0)) (ses 2 {} id)).rd 0 (ERRINFO.REASON .ses) = 0x82 ∧
    ((left (.sesRefresh 9 .pcie (sesWord 3 0)) (ses 4 { refreshAt := some 1 } id)).sesRec 2).refreshAt = some 9 ∧
    (left (.sesEndReq 9 .pcie (sesWord 5 0)) (ses 4 {} id)).rd 0 (SES_STAT.ENDREQ 2) = 1 ∧
    (left (.sesEndWithdraw 9 .pcie (sesWord 6 0)) (ses 4 {} fun d => d.wr 0 (SES_STAT.ENDREQ 2) 1)).rd 0 (SES_STAT.ENDREQ 2) = 0 := by decide +kernel

theorem wit_SessionsEnd :
    (let w := Dev.arrive 0 .pcie (ses 4 {} id).dev
     w.reached .pcie .ses 0 0x444 ∧ (∀ op ∈ [7, 8, 9], w.passes .ses 0 0x444 (sesWord op 0) = true) ∧ (sesWord 7 0).toNat / 2 ^ 16 % 64 = 2 ∧
     w.sesState 2 = 4) ∧
    (Dev.arrive 0 .pcie (ses 5 {} fun d => d.wr 3 OUT_RUNSTAT.STATE 6).dev).ptState 3 = 6 ∧
    (let w := Dev.arrive 0 .pcie (ses 7 {} id).dev; w.sesState 2 = 7 ∧ w.connected 3 = false) ∧
    (let s := ses 1 {} id; let d := Dev.at (s.dev.rd 0 SES_CFG.LINKWAIT_S * ticksPerS) s.dev
     d.sesState 2 = 1 ∧ (d.sesRec 2).waitAt + d.rd 0 SES_CFG.LINKWAIT_S * ticksPerS = d.now) ∧
    (let s := ses 2 {} fun d => d.wr 0 SES_CFG.AUTHWAIT_S 60; let d := Dev.at (60 * ticksPerS) s.dev
     d.sesState 2 = 2 ∧ d.rd 0 SES_CFG.AUTHWAIT_S ≠ 0 ∧ (d.sesRec 2).waitAt + d.rd 0 SES_CFG.AUTHWAIT_S * ticksPerS = d.now) ∧
    (let s := ses 4 { refreshAt := some 0 } id; let tmo := s.dev.rd 0 SES_CFG.TMO_MS * ms; let d := Dev.at (2 * tmo) s.dev
     (d.sesRec 2).refreshAt = some 0 ∧ 0 + d.rd 0 SES_CFG.TMO_MS * ticksPerMs ≤ d.now ∧ d.on 0 (SES_STAT.HOLD 2) = false ∧
     0 + 2 * d.rd 0 SES_CFG.TMO_MS * ticksPerMs = d.now ∧ (Dev.at 0 s.dev).now < 0 + d.rd 0 SES_CFG.TMO_MS * ticksPerMs) := by
  unfold Dev.reached; decide +kernel

theorem test_sesEnd :
    (left (.sesStop 0 .pcie (sesWord 7 0)) (ses 4 {} id)).rd 0 (SES_STAT.CAUSE 2) = 0x0A ∧
    (left (.sesVehopen 0 .pcie (sesWord 8 0)) (ses 5 {} fun d => d.wr 3 OUT_RUNSTAT.STATE 6)).ptState 3 = 7 ∧
    (left (.sesRelease 0 .pcie (sesWord 9 0)) (ses 7 {} id)).sesState 2 = 0 ∧
    (left (.linkwaitTimeout (1000000 * ticksPerS) 2) (ses 1 {} id)).rd 0 (SES_STAT.CAUSE 2) = 0x0C ∧
    (left (.authwaitTimeout (60 * ticksPerS) 2) (ses 2 {} fun d => d.wr 0 SES_CFG.AUTHWAIT_S 60)).rd 0 (SES_STAT.CAUSE 2) = 0x0D ∧
    (left (.refreshHold (1000 * ticksPerS) 2) (ses 4 { refreshAt := some 0 } id)).rd 0 (SES_STAT.HOLD 2) = 1 ∧
    (left (.refreshTmo (1000 * ticksPerS) 2) (ses 4 { refreshAt := some 0 } id)).rd 0 (SES_STAT.CAUSE 2) = 0x0B := by decide +kernel

theorem wit_PilotIdAndCe :
    (let d := Dev.at 0 (ses 4 {} fun d => d.wr 3 (PCTRL.EN .out) 1).dev
     d.vehOn 3 = true ∧ d.rd 0 (VCM_CP.DRIVE 3) ≠ d.driveOf 3 ∧ d.driveOf 3 = 1 ∧ d.rd 0 (VCM_CP.DRIVE 3) ≠ 2 ∧ d.rd 0 (VCM_PT_A.PSRC 3) = 0) ∧
    (Dev.at 0 (ses 4 {} id).dev).driveOf 3 = 2 ∧ (Dev.at 0 (booted id).dev).vehOn 3 = false ∧
    (let s := ses 4 {} fun d => (d.wr 0 (VCM_CP.CP 3) 2).modVeh 3 fun _ => { cand := 0, badAt := some 0 }
     let d := Dev.at (s.dev.rd 0 VCM_CPFILT.FILT_MS * ms) s.dev; let f := Dev.at (s.dev.rd 0 VCM_CPFILT.INV_MS * ms) s.dev; let x := d.veh 3
     x.cand < 7 ∧ x.cand ≠ d.rd 0 (VCM_CP.CP 3) ∧ x.candAt + d.rd 0 VCM_CPFILT.FILT_MS * ticksPerMs = d.now ∧
     x.badAt = some 0 ∧ x.badRaised = false ∧ 0 + f.rd 0 VCM_CPFILT.INV_MS * ticksPerMs = f.now) ∧
    (let d := Dev.at 0 (ses 4 {} fun d => d.wr 3 OUT_CFG.TYPE 0).dev
     d.vehOn 3 = true ∧ d.rd 3 OUT_CFG.TYPE = 0 ∧ d.rd 0 (VCM_PT_A.PSRC 3) = 0 ∧ d.idClass 100000 ≠ d.idClass (-1) ∧ (d.veh 3).ceRaised = false ∧
     0 < d.rd 0 VCM_CPFILT.FILT_MS ∧ 0 < d.rd 0 VCM_CE.CE_MS ∧
     (∃ mv ∈ [(0 : Int), 100000], decide (d.rd 0 (VCM_CP.CE 3) % 2 = 1) ≠ decide (10 * (d.rd 0 VCM_CE.CE_TH : Int) ≤ mv)) ∧
     (∃ mv ∈ [(0 : Int), 100000], decide (d.rd 0 (VCM_CP.CE 3) % 2 = 1) = decide (10 * (d.rd 0 VCM_CE.CE_TH : Int) ≤ mv))) := by decide +kernel

theorem test_pilot :
    (left (.pilotDriveChange 0 3) (ses 4 {} fun d => d.wr 3 (PCTRL.EN .out) 1)).rd 0 (VCM_CP.DRIVE 3) = 1 ∧
    ((left (.pilotSample 0 3 9000 9000) (ses 4 {} id)).veh 3).cand = 1 ∧
    (let s := ses 4 {} fun d => (d.wr 0 (VCM_CP.CP 3) 2).modVeh 3 fun _ => { cand := 0, badAt := some 0 }
     let e := left (.pilotStateAccept (1000 * ms) 3) s; e.rd 0 (VCM_CP.CP 3) = 0 ∧ e.rd 0 (SES_STAT.CAUSE 2) = 7 ∧
     (left (.pilotFault (10000 * ms) 3) s).rd 0 (SES_STAT.CAUSE 2) = 5) ∧
    (let s := ses 4 {} fun d => ((d.wr 3 OUT_CFG.TYPE 0).wr 0 (VCM_CP.ID 3) 1).modVeh 3 fun x => { x with idCand := 0, idAt := 0 }
     let e := left (.idStateAccept (1000 * ms) 3 100000) s; e.rd 0 (VCM_CP.ID 3) = 0 ∧ e.rd 0 (SES_STAT.CAUSE 2) = 7 ∧
     (left (.idStateAccept 1 3 100000) s).rd 0 (VCM_CP.ID 3) = 1) ∧
    (let s := ses 4 {} fun d => ((d.wr 3 OUT_CFG.TYPE 0).wr 0 (VCM_CP.CE 3) 1).modVeh 3 fun x => { x with ceBadAt := some 0 }
     (left (.ceFault (1000 * ms) 3 0) s).rd 0 (SES_STAT.CAUSE 2) = 6 ∧ (left (.ceFault 1 3 0) s).rd 0 (SES_STAT.CAUSE 2) = 0) := by decide +kernel

/-- An Ethernet frame to every station. -/
def ethFrame : List Byte := List.replicate 6 255#8 ++ List.replicate 8 1#8

/-- An issued TX_VEH of 14 bytes at 0x100 for point 3. -/
def txOp : Op := { cls := 1, kind := OK.TX_VEH, args := [3#8, 0#8, 14#8, 0#8, 0#8, 0#8, 0#8, 0#8, 0#8, 1#8], phase := .issued, slot := 5 }

theorem wit_VehicleLinksAndFrames :
    (let d := Dev.at 0 (ses 1 {} id).dev
     d.vehOn 3 = true ∧ d.rd 0 (VCM_PT_B.LTYPE 3) = 1 ∧ d.linkUp 3 = false ∧ d.liveSes 3 = some 2 ∧ d.sesState 2 = 1) ∧
    (let d := Dev.at 0 (ses 3 {} fun d => (d.wrBit 0 VCM_LINK.UP 3 true).wr 0 VCM_RX.NSLOT 8).dev
     d.linkUp 3 = true ∧ d.sesState 2 = 3 ∧ d.macPass 3 ethFrame = true ∧ 14 ≤ ethFrame.length ∧ d.vcm.rxUsed < d.rd 0 VCM_RX.NSLOT ∧
     d.macPass 3 (List.replicate 14 0#8) = decide (d.macOf 3 = 0)) ∧
    (Dev.at 0 (ses 3 {} fun d => { d.wr 0 VCM_RX.NSLOT 1 with vcm := { d.vcm with rxUsed := 1 } }).dev).vcm.rxUsed = 1 ∧
    (let d := Dev.at 0 (ses 3 {} fun d => { (d.wr 0 (VCM_PT_A.EN 3) 1).wrBit 0 VCM_LINK.UP 3 true with ope := { d.ope with flight := [txOp] } }).dev
     d.opAt 5 = some txOp ∧ txOp.arg 8 1 = 3 ∧ txOp.arg 10 2 = 14 ∧ txOp.arg 16 4 = 256 ∧ d.domOn .vcm = true ∧ d.on 0 (VCM_PT_A.EN 3) = true ∧
     d.linkUp 3 = true) := by decide +kernel

theorem wit_VehicleLinksAndFrames_tunnel :
    let f := frame3 0x50 14 128 26 ([0#8, 0#8, 6#8, 0#8] ++ ethFrame)
    let d := Dev.at 0 (live2 fun d => (((((d.wr 0 (VCM_PT_A.EN 3) 1).wr 0 (VCM_PT_B.LTYPE 3) 3).wr 0 (VCM_PT_B.PORT 3) 2).wr 0 (VCM_PT_B.NODE 3) 3).wr 0
      (VCM_PT_B.IDX 3) 6).wr 0 VCM_RX.NSLOT 8).dev
    let bs := (f.drop 8).take (leAt f 2 1)
    takesAny d 2 0x50 f = true ∧ leAt f 3 1 = 128 ∧ d.tunPoint (d.homePort 2) (framePos f) (leAt f 6 1) = some 3 ∧ d.vehOn 3 = true ∧
    14 ≤ bs.length ∧ d.macPass 3 bs = true ∧ d.vcm.rxUsed < d.rd 0 VCM_RX.NSLOT := by
  decide +kernel

theorem test_vehicleFrames :
    (left (.vehLinkChange 0 3 true) (ses 1 {} id)).sesState 2 = 2 ∧
    (left (.vehLinkChange 0 3 false) (ses 3 {} fun d => d.wrBit 0 VCM_LINK.UP 3 true)).sesState 2 = 1 ∧
    (left (.vehFrameRx 0 3 ethFrame false) (ses 1 {} id)).rd 0 VCM_RXDROP.COUNT = 1 ∧
    (let u := after (.vehFrameRx 0 3 ethFrame true) (ses 1 {} fun d => (d.wr 0 VCM_RX.NSLOT 8).wr 0 VCM_RX.BASE 1)
     u.sramByte 4096 = 14#8 ∧ u.sramByte 4098 = 3#8 ∧ u.sramByte 4112 = 255#8 ∧ u.dev.vcm.rxUsed = 1) ∧
    (let f := frame3 0x50 14 128 26 ([0#8, 0#8, 6#8, 0#8] ++ ethFrame)
     let s := live2 fun d => ((((((d.wr 0 (VCM_PT_A.EN 3) 1).wr 0 (VCM_PT_B.LTYPE 3) 3).wr 0 (VCM_PT_B.PORT 3) 2).wr 0 (VCM_PT_B.NODE 3) 3).wr 0
       (VCM_PT_B.IDX 3) 6).wr 0 VCM_RX.NSLOT 8).wr 0 VCM_RX.BASE 1
     (after (.tunRx 0 2 f) s).sramByte 4112 = 255#8) ∧
    (let s := ses 3 {} fun d => { d.wrBit 0 VCM_LINK.UP 3 true with ope := { d.ope with flight := [txOp] } }
     let e := left (.txVeh 0 5) s; e.sent = [.veh 3 (List.replicate 14 0#8 ++ ethFcs (List.replicate 14 0#8))] ∧ (e.opAt 5).map (·.status) = some 0) := by decide +kernel

/-- Point 3 on Green PHY coupling 1, with a live session; and changed. -/
def gp (f : Dev → Dev) : State := ses 1 {} fun d => f (((d.wr 0 (VCM_PT_B.LTYPE 3) 2).wr 0 (VCM_PT_B.IDX 3) 1).wrBit 0 PLC_CFG.GPEN 1 true)

theorem wit_SlacRuns :
    (let d := Dev.at 0 (gp id).dev; d.gpSes 1 = some 2 ∧ d.gpPoint 1 = some 3 ∧ d.liveSes 3 ≠ none ∧ d.gpSes 0 = none) ∧
    (let d := Dev.at 0 (gp fun d => (d.wr 0 (VCM_SLAC.STATE 1) 1).setSlac 1 { run := 7, mac := 9 }).dev
     (d.slacRec 1).run = 7 ∧ d.rd 0 (VCM_SLAC.STATE 1) = 1 ∧ d.slacFresh 1 = true) ∧
    (let d := Dev.at 0 (gp fun d => ((d.wr 0 (VCM_SLAC.STATE 1) 3).wrBit 0 VCM_LINK.UP 3 true)).dev
     d.gpPoint 1 = some 3 ∧ d.gpMatched 3 = true ∧ d.linkUp 3 = true) ∧
    (let d := Dev.at 0 (gp fun d => ((((((((d.wr 0 (VCM_PT_A.EN 4) 1).wr 0 (VCM_PT_B.LTYPE 4) 2).wr 0 (VCM_PT_B.IDX 4) 2).wrBit 0 PLC_CFG.GPEN 2 true).wr 0
        (SES_STAT.STATE 5) 1).wr 0 (SES_STAT.POINT 5) 4).wr 0 (VCM_SLAC.STATE 1) 1).wr 0 (VCM_SLAC.STATE 2) 1 |>.setSlac 1 { run := 7 }).setSlac 2 { run := 7 }).dev
     (∀ x ∈ [1, 2], d.gpSes x ≠ none ∧ (d.slacRec x).run = 7 ∧ d.rd 0 (VCM_SLAC.STATE x) = 1 ∧ d.slacFresh x = true) ∧ 0 < d.rd 0 VCM_SLAC.MARGIN) := by decide +kernel

theorem test_slac :
    (let e := left (.slacParmReq 0 1 7 9) (gp id); e.rd 0 (VCM_SLAC.STATE 1) = 1 ∧ e.sent = [.slac 1 1 7 []]) ∧
    (left (.slacSounding 0 7 [(1, [30])]) (gp fun d => (d.wr 0 (VCM_SLAC.STATE 1) 1).setSlac 1 { run := 7, mac := 9 })).rd 0 (VCM_SLAC.STATE 1) = 2 ∧
    (let e := left (.gpMgmtMsgRx 0 1 .leave) (gp fun d => (d.wr 0 (VCM_SLAC.STATE 1) 3).wrBit 0 VCM_LINK.UP 3 true); e.rd 0 (VCM_SLAC.STATE 1) = 0 ∧ e.linkUp 3 = false) := by
  decide +kernel

/-! ### Yarn line -/

/-- Yarn line on; peer 4, enabled under identity 99, UP; the working state changed. -/
def yarn (f : Yarn → Yarn) (g : Dev → Dev) : State := booted fun d =>
  let d := (((d.wr 0 PLC_CFG.YEN 1).wr 0 (PLC_PEER_HI.EN 4) 1).wr 0 (PLC_PEER_LO.ID 4) 99).wr 0 (PLC_NBR_A.STATE 4) 2
  g { d with yarn := f d.yarn }

theorem wit_ZeroCrossAndBeaconPeriods :
    (let d := Dev.at (20 * ms) (yarn (fun y => { y with zc := some 0, zcGood := 7 }) fun d => d.wr 0 PLC_ZC.DELAY_US 0).dev
     let z := d.now - d.rd 0 PLC_ZC.DELAY_US * ticksPerUs
     d.domOn .plc = true ∧ zcInRange (z - 0) = true ∧ zcInRange (30 * ms) = false ∧ d.rd 0 PLC_STAT.ZCVALID = 0 ∧ d.yarn.zcGood < 8) ∧
    (let d := Dev.at (30 * ms) (yarn (fun y => { y with zc := some 0, zcGood := 8 }) fun d => d.wr 0 PLC_STAT.ZCVALID 1).dev
     d.rd 0 PLC_STAT.ZCVALID = 1 ∧ 0 + 30 * ticksPerMs = d.now) ∧
    (Dev.at 0 (yarn (fun y => { y with zc := some 0, zcGood := 8 }) id).dev).yarn.zcGood = 8 ∧
    (let s := yarn id id; let d := Dev.at (80 * ms) s.dev; d.beaconDue = true ∧ d.peerUp 4 = true ∧ d.rd 0 (PLC_NBR_A.HOPS 4) = 0 ∧
     (Dev.at (80 * ms - 1) s.dev).beaconDue = false) := by decide +kernel

theorem test_zeroCross :
    (let s := yarn (fun y => { y with zc := some 0, zcGood := 7 }) fun d => (d.wr 0 PLC_ZC.DELAY_US 0).wr 0 PLC_ZC.FILT_US 10
     let e := left (.zcEdge (20 * ms) 10) s; e.yarn.zcGood = 8 ∧ e.rd 0 PLC_ZCSTAT.PERIOD_US = 20000 ∧
     (left (.zcEdge (20 * ms) 9) s).yarn.zcGood = 7 ∧ (left (.zcEdge (30 * ms) 10) s).yarn.zcGood = 0) ∧
    (left (.zcLost (30 * ms)) (yarn (fun y => { y with zc := some 0, zcGood := 8 }) fun d => d.wr 0 PLC_STAT.ZCVALID 1)).rd 0 PLC_STAT.ZCVALID = 0 ∧
    (left (.zcOk 0) (yarn (fun y => { y with zc := some 0, zcGood := 8 }) id)).rd 0 PLC_STAT.ZCVALID = 1 ∧
    (let e := left (.yarnBeaconPeriod (80 * ms)) (yarn id id)
     e.rd 0 PLC_BPCNT.COUNT = 1 ∧ e.rd 0 (PLC_NBR_A.HOPS 4) = 1 ∧ e.yarn.bpAt = some (80 * ms)) := by decide +kernel

/-- Twenty bytes for peer 4, of the operation in slot 5. -/
def someTx : YTx := { peer := 4, cls := 1, data := List.replicate 20 7#8, owner := some 5 }

/-- The frame of it that is in the air, SEQ 3, first attempt. -/
def onAir : YTx := { someTx with tries := 1, piece := 20, seq := some 3 }

/-- An issued TX_YARN of 20 bytes at 0x100 for peer 4, class 1. -/
def yarnOp : Op := { cls := 1, kind := OK.TX_YARN, args := [4#8, 1#8, 20#8, 0#8, 0#8, 0#8, 0#8, 0#8, 0#8, 1#8], phase := .issued, slot := 5 }

theorem wit_YarnFramesAreSentAndRepeated :
    (let d := Dev.at 0 (yarn id fun d => { d with ope := { d.ope with flight := [yarnOp] } }).dev
     d.opAt 5 = some yarnOp ∧ yarnOp.arg 8 1 = 4 ∧ yarnOp.arg 9 1 = 1 ∧ yarnOp.arg 10 2 = 20 ∧ d.domOn .plc = true ∧ d.yarnOn = true ∧
     d.peerUp 4 = true ∧ d.peerUp 5 = false) ∧
    (let s := yarn (fun y => { y with q := [someTx], bpAt := some 0 }) id; let d := Dev.at (18 * ms) s.dev
     d.yarnReady someTx = true ∧ (Dev.at (17 * ms) s.dev).yarnReady someTx = false ∧ someTx.keep = false ∧ d.yarnOn = true ∧ d.plySilent = false ∧ d.yarn.air = none ∧ d.yarnPick = some someTx ∧
     d.mayStart (yarnSyms (min 20 (d.yarnPiece (d.yarnModeOf someTx).2.2)) (d.yarnModeOf someTx).2.2) = true ∧
     (Dev.at (17 * ms - 1) s.dev).mayStart (yarnSyms (min 20 (d.yarnPiece (d.yarnModeOf someTx).2.2)) (d.yarnModeOf someTx).2.2) = false) ∧
    (let s := yarn (fun y => { y with air := some onAir }) id; let d := Dev.at (200 * ticksPerUs) s.dev
     d.yarn.air = some onAir ∧ d.yarnOn = true ∧ onAir.seq = some 3 ∧ d.nextHop 4 = 4 ∧ onAir.data.length ≤ onAir.piece ∧
     d.yarn.airEnd + 200 * ticksPerUs = d.now ∧ onAir.tries ≤ d.rd 0 PLC_MAC.RETRY) ∧
    (Dev.at 0 (yarn (fun y => { y with air := some { onAir with tries := 255 } }) id).dev).rd 0 PLC_MAC.RETRY < 255 := by decide +kernel

theorem test_yarnSending :
    (let e := left (.txYarn 0 5) (yarn id fun d => { d with ope := { d.ope with flight := [yarnOp] } })
     e.yarn.q.map (·.data) = [List.replicate 20 0#8] ∧ e.yarn.q.map (fun x => (x.peer, x.cls, x.owner)) = [(4, 1, some 5)]) ∧
    (let e := left (.yarnTxStart (18 * ms)) (yarn (fun y => { y with q := [someTx], bpAt := some 0 }) id)
     e.rd 0 PLC_TXFRM.COUNT = 1 ∧ e.yarn.q = [] ∧ e.yarn.air.map (·.tries) = some 1) ∧
    (let s := yarn (fun y => { y with air := some onAir }) fun d => { d with ope := { d.ope with flight := [{ yarnOp with phase := .acting }] } }
     let e := left (.yarnSackRx 0 4 3 1) s; e.yarn.air = none ∧ (e.opAt 5).map (·.status) = some 0 ∧
     (left (.yarnSackRx 0 4 3 4) s).yarn.q.length = 1 ∧ (left (.yarnSackRx 0 4 3 2) s).yarn.q.map (·.keep) = [true] ∧ (left (.yarnSackRx 0 4 2 1) s).yarn.air = some onAir ∧
     (left (.yarnSackTimeout (200 * ticksPerUs)) s).yarn.q.length = 1) ∧
    (let s := yarn (fun y => { y with q := [{ onAir with hold := some 5 }] }) id
     (left (.yarnRetransmit ⟨4, none⟩) s).yarn.q.map (·.hold) = [some 5] ∧ (left (.yarnRetransmit ⟨5, none⟩) s).yarn.q.map (·.hold) = [none]) := by decide +kernel

/-- A frame of peer 4 to the device, SEQ 6. -/
def someFc : YarnFc := { dst := 64, src := 4, odst := 64, osrc := 4, cls := 1, mode := 1, tmi := 0, nsym := 1, seq := 6, hop := 0 }

/-- A posted RX_YARN for any peer, room for so many bytes at 0x100. -/
def rxOp (n : Nat) (ph : OpPhase) : Op :=
  { cls := 1, kind := OK.RX_YARN, args := [255#8, 0#8, BitVec.ofNat 8 n, 0#8, 0#8, 0#8, 0#8, 0#8, 0#8, 1#8], phase := ph, slot := 5 }

theorem wit_YarnPeersAndReception :
    (Dev.at 0 (booted id).dev).yarnOn = false ∧
    (let d := Dev.at 0 (yarn id id).dev; d.yarnOn = true ∧ d.peerOf 98 = none ∧ d.peerOf 99 = some 4 ∧ d.plySilent = false ∧
     someFc.hop ≤ d.rd 0 PLC_CFG.MAXHOP ∧ (d.ypeer 4).lastSeq ≠ someFc.seq + 1 ∧ d.rxPosted 4 = none ∧ (d.ypeer 4).held.length < 16 ∧
     d.heldFor 255 = none ∧ d.erased someFc [10] = [0] ∧ d.erased someFc [9] = [] ∧ d.erasuresOk someFc [0] = false ∧
     d.erasuresOk someFc [] = true ∧ crcOk ([1#8, 2#8] ++ leBytes 4 0x3f89f52) = true ∧ crcOk ([1#8, 2#8] ++ leBytes 4 0) = false) ∧
    (let d := Dev.at 0 (yarn id fun d => d.wr 0 PLC_BPCNT.COUNT (d.rd 0 PLC_ROUTE.LOST_BP)).dev
     d.peerUp 4 = true ∧ d.rd 0 PLC_ROUTE.LOST_BP = (d.rd 0 PLC_BPCNT.COUNT + 2 ^ 32 - (d.ypeer 4).heard) % 2 ^ 32) ∧
    (let d := Dev.at 0 (yarn id fun d => { d with ope := { d.ope with flight := [rxOp 2 .acting] } }).dev
     d.rxPosted 4 = some (rxOp 2 .acting) ∧ (rxOp 2 .acting).arg 10 2 = 2) ∧
    (let d := Dev.at 0 (yarn id fun d => d.modPeer 4 fun x => { x with held := List.replicate 16 (0, [1#8]) }).dev
     16 ≤ (d.ypeer 4).held.length ∧ d.heldFor 255 = some (4, [1#8])) := by decide +kernel

theorem test_yarnReception :
    (left (.stationBeaconRx 0 99 7 true 0 []) (yarn id fun d => d.wr 0 (PLC_NBR_A.STATE 4) 0)).peerUp 4 = true ∧
    (left (.stationBeaconRx 0 99 7 false 0 []) (yarn id id)).rd 0 PLC_AUTHERR.COUNT = 1 ∧
    (left (.peerLost 0 4) (yarn id fun d => d.wr 0 PLC_BPCNT.COUNT (d.rd 0 PLC_ROUTE.LOST_BP))).rd 0 (PLC_NBR_A.STATE 4) = 3 ∧
    (let u := after (.yarnFrameRx 0 99 someFc true true [] [] none [1#8, 2#8] 0x3f89f52#32) (yarn id fun d => { d with ope := { d.ope with flight := [rxOp 2 .acting] } })
     u.sramByte 257 = 2#8 ∧ (u.dev.opAt 5).map (·.status) = some 0 ∧ u.dev.rd 0 PLC_RXFRM.COUNT = 1) ∧
    (let s := yarn id fun d => { d.modPeer 4 fun x => { x with held := [(0, [1#8])] } with ope := { d.ope with flight := [rxOp 2 .issued] } }
     let u := after (.rxYarn 0 5) s; u.sramByte 256 = 1#8 ∧ (u.dev.ypeer 4).held = []) := by decide +kernel

/-! ### Metrology and the legal island -/

/-- Within a row, the island runs and books, its PLL locked, tariff 1; channels 0 and 1 carry 1 V and 1 A of full scale. -/
def island (f : Lgl → Lgl) (g : Dev → Dev) : State := inRow 1 fun d =>
  let d := (d.wr 0 LGL_STAT.READY 1).modPll 2 fun x => { x with state := 3 }
  g { d with lgl := f { d.lgl with book := true, init := true, par := [(7 * 256, 1000000), (7 * 256 + 1, 1000000)] } }

theorem wit_MetrologySamplesAreBooked :
    (let d := Dev.at 0 (island id id).dev; let x := d.mtrPt 0
     d.lglUp = true ∧ d.mpUsed 0 = true ∧ d.lgl.book = true ∧ d.pllLocked 2 = true ∧ x.skip = 0 ∧ x.lockSeen = (d.pll 2).lockAt ∧
     d.mpChans 0 = [0, 1] ∧ (d.mtrCh 0).lost = false ∧ (d.mtrCh 1).lost = false ∧ d.lgl.tariff = 1 ∧ d.mpUsed 35 = true ∧
     (d.mtrPt 35).lockSeen = (d.pll 2).lockAt ∧ d.par MP.ROLE 0 ≠ 0 ∧ d.par MP.ROLE 95 = 0) ∧
    isOvr (95 * 2 ^ 31 / 100) = false ∧ isOvr (95 * 2 ^ 31 / 100 + 1) = true ∧
    (let d := Dev.at (100 * ms) (island (fun l => { l with chs := [(0, { lost := true })] }) id).dev
     (d.mtrCh 0).lost = true ∧ (d.mtrCh 0).lostAt + 100 * ticksPerMs = d.now ∧ 0 ∈ d.mpChans 0) ∧
    ((Dev.at 0 (island (fun l => { l with pts := [(0, { revN := 3 }), (1, { revN := 2 })] }) id).dev).mtrPt 0).revN = 3 := by
  decide +kernel

theorem test_metrology :
    (let e := left (.metrologySample 0 0 [(2 ^ 30, 2 ^ 30), (2 ^ 30, 2 ^ 30)] []) (island id id)
     (e.mtrPt 0).n = 1 ∧ 0 < (e.mtrPt 0).sp ∧ 0 < (e.ereg 0 0 0).v ∧ e.ereg 0 0 1 = e.ereg 0 0 0 ∧ e.ereg 0 2 0 = e.ereg 0 0 0 ∧
     e.ereg 0 1 0 = {}) ∧
    (let e := left (.metrologySample 0 0 [(2 ^ 30, 2 ^ 30), (-2 ^ 30, -2 ^ 30)] []) (island id id)
     0 < (e.ereg 0 1 0).v ∧ e.ereg 0 0 0 = {}) ∧
    (let e := left (.modChannelLost 5 0) (island id id); (e.mtrCh 0).lost = true ∧ (e.tmp 3).count = 1) ∧
    (let s := island (fun l => { l with chs := [(0, { lost := true })] }) id
     ((left (.modChannelRecover (100 * ms) 0) s).mtrCh 0).lost = false ∧ ((left (.modChannelRecover (100 * ms - 1) 0) s).mtrCh 0).lost = true ∧
     ((left (.metrologySample 0 0 [(2 ^ 30, 2 ^ 30), (2 ^ 30, 2 ^ 30)] []) s).mtrPt 0).inv = 1) ∧
    (left (.modrevDetect 0 0) (island (fun l => { l with pts := [(0, { revN := 3 })] }) id)).rd 0 (TMP_COUNT.COUNT 4) = 1 := by
  decide +kernel

/-- An open receipt of loop 9, generation 4. -/
def someRcpt : Rcpt := { loop := 9, gen := 4, start := 0, inv0 := 0, imp0 := {}, exp0 := {}, trf0 := [] }

theorem wit_LegalTimeAndReceipts :
    (let d := Dev.at 0 (island id id).dev
     d.lglUp = true ∧ d.lglPfail = false ∧ d.lgl.book = true ∧ d.lgl.halted = false ∧ d.lgl.rtc.step = none ∧ 2 ^ 20 ≤ d.lglFree ∧
     (let w := d.rowCatch; w.lglPfail = false ∧ w.lgl.book = true ∧ w.lgl.halted = false ∧ w.lgl.rtc.step = none ∧ 2 ^ 20 ≤ w.lglFree) ∧
     d.lgl.rtc.osc = true ∧ d.lgl.merged = none ∧ d.ope.pfail = false ∧ d.domOn .ope = true ∧ d.rcpt 3 = none ∧ d.rd 0 PLY_CFG.MODE = 0) ∧
    (let d := Dev.at 0 (island (fun l => { l with rtc := { l.rtc with sec := 899, slew := 1 }, tot := { l.tot with ivOpen := true } }) id).dev
     let w := d.rowCatch
     (w.lgl.rtc.sec + 1) % w.intLen = 0 ∧ w.lgl.tot.ivOpen = true ∧ w.lgl.tot.ivAt ≠ (w.lgl.rtc.sec + 1) * 2 ^ 32 ∧ w.lgl.rtc.step = none ∧
     w.lgl.parNext = none ∧ w.lgl.merged = none ∧ d.lgl.rtc.slew ≠ 0) ∧
    (let d := Dev.at (1000000 * ticksPerMs) (island (fun l => { l with rtc := { l.rtc with slew := 1 } }) id).dev
     d.lgl.rtc.slew ≠ 0 ∧ d.slewLeft = 0) ∧
    (let d := Dev.at (86400 * ticksPerS) (island (fun l => { l with rtc := { l.rtc with step := some 2 } }) id).dev
     d.lgl.romAt + 86400 * ticksPerS = d.now ∧ d.lgl.rtc.step = some 2 ∧ d.lgl.rtc.stepDefer = false) ∧
    (let d := Dev.at 0 (island id fun d => d.wr 0 LGL_STAT.PFAIL 1).dev; d.lglPfail = true) ∧
    (let d := Dev.at 0 (island (fun l => { l with copy := { l.copy with pfail := true } }) fun d => d.wr 0 LGL_STAT.READY 0).dev
     d.lglUp = false ∧ d.pllLocked 2 = true ∧ d.lgl.init = true ∧ d.lgl.copy.pfail = true) ∧
    (let d := Dev.at 0 (island (fun l => { l with tot := { l.tot with rcpts := [(3, some someRcpt)] } }) id).dev
     d.rcpt 3 = some someRcpt) := by decide +kernel

theorem test_legalTime :
    (let e := left (.oscStop 0) (island (fun l => { l with rtc := { l.rtc with valid := true } }) id)
     e.lgl.rtc.valid = false ∧ (e.tmp 6).count = 1) ∧
    (left (.crystalReturn 0) (island (fun l => { l with rtc := { l.rtc with osc := false } }) id)).lgl.rtc.osc = true ∧
    (left (.slewComplete (1000000 * ticksPerMs)) (island (fun l => { l with rtc := { l.rtc with slew := 1 } }) id)).lgl.rtc.slew = 0 ∧
    (left (.tamperCover 0) (island id id)).rd 0 (TMP_COUNT.COUNT 2) = 1 ∧
    (let e := left (.romCheck (86400 * ticksPerS) false) (island id id); e.lgl.halted = true ∧ e.rd 0 LGL_STAT.ROMOK = 0) ∧
    (let e := left (.pfailReturn 0) (island id fun d => { (d.wr 0 LGL_STAT.PFAIL 1) with ope := { d.ope with pfail := true } })
     e.lgl.resume = true ∧ e.ope.pfail = false) ∧
    ((left (.markerStartRx 0 9 4 3) (island id id)).rcpt 3).map (fun r => (r.loop, r.gen)) = some (9, 4) ∧
    (left (.markerEndRx 0 9 4 3) (island id id)).rd 0 LGL_MKRLOST.COUNT = 1 := by decide +kernel

/-- A request in the mailbox: its words, REQLEN and a role. -/
def request (len role : Nat) (ws : List (Nat × Nat)) (f : Lgl → Lgl) : State := island f fun d =>
  ws.foldl (fun d x => d.wr 0 (LGL_REQ.DATA x.1) x.2)
    (((d.wr 0 LGL_MBSTAT.STATE 1).wr 0 LGL_MBCMD.REQLEN len).wr 0 LGL_STAT.ROLE role)

/-- GET of SERIAL, attribute 2, at most 8 bytes. -/
def getSerial : State := request 24 0 [(0, 0x00000201), (1, 0xFF000160), (5, 8)] id

/-- SET of parameter 11 (ISTART), instance 0, to a value, by MAU. -/
def setIstart (v : Nat) : State := request 28 3 [(0, 0x00000202), (1, 0xFF0B315E), (6, v)] id

theorem wit_MailboxRequests_get :
    (let d := Dev.at 0 getSerial.dev; let r := d.request0
     d.asks 1 ∧ r.obj = some .serial ∧ r.u 1 1 = 2 ∧ mayRead .serial d.role = true ∧ d.objValue .serial (r.u 8 8) = .ok (fixLen 8 d.serial) ∧
     r.u 16 4 = 0 ∧ r.u 20 2 = 8) ∧
    (let d := Dev.at 0 (request 24 0 [(0, 0x00000201), (1, 0xFF0B315E)] id).dev
     d.asks 1 ∧ d.request0.obj = some (.param 11) ∧ mayRead (.param 11) d.role = false) ∧
    (Dev.at 0 (request 24 0 [(0, 1)] id).dev).request0.obj = none ∧
    (let d := Dev.at 0 (request 24 0 [(0, 0x00000201), (1, 0xFF000160), (4, 9)] id).dev; (fixLen 8 d.serial).length < d.request0.u 16 4) ∧
    (Dev.at 0 (request 24 0 [(5, 2 ^ 16)] id).dev).rd 0 LGL_MBSTAT.STATE = 1 := by unfold Dev.asks; decide +kernel

theorem wit_MailboxRequests_set :
    (let d := Dev.at 0 (setIstart 100000).dev; let r := d.request0
     d.asks 2 ∧ r.u 1 1 = 2 ∧ r.obj = some (.param 11) ∧ d.role = 3 ∧ mayWrite (.param 11) 3 d.lgl.sealed = true ∧ r.data.length = 4 ∧
     r.u 16 4 = 0 ∧ 0 < parCount 11 ∧ parValue 11 r.data = (parRange 11).2) ∧
    (parRange 11).2 < parValue 11 (Dev.at 0 (setIstart 100001).dev).request0.data ∧
    (let d := Dev.at 0 (request 32 2 [(0, 0x00000202), (1, 0xFF000001), (7, 5)] fun l => { l with rtc := { l.rtc with valid := true } }).dev
     d.asks 2 ∧ d.request0.obj = some .clock ∧ d.request0.u 1 1 = 2 ∧ d.request0.data.length = 8 ∧ d.role = 2 ∧
     ((leNat d.request0.data : Int) - d.rtcRebase.rtcNow).natAbs = (d.par MP.JUMP_LIM).toNat * 2 ^ 32) ∧
    (let d := Dev.at 0 (request 24 3 [(0, 3)] fun l => { l with stage := [(11 * 256, some 5)] }).dev
     d.asks 3 ∧ d.role = 3 ∧ d.lgl.stage ≠ [] ∧ d.lgl.parNext = none ∧ parSetOk (overPar d.lgl.par d.lgl.stage) = false) ∧
    (Dev.at 0 (request 24 3 [(0, 4)] id).dev).asks 4 := by unfold Dev.asks; decide +kernel

/-- A parameter set in which every channel in use has its full scale. -/
def goodPar : AMap Int := (List.range 96).map fun c => (7 * 256 + c, 1000)

theorem wit_MailboxRequests_roles :
    parSetOk (overPar goodPar [(11 * 256, some 5)]) = true ∧
    (let d := Dev.at 0 (request 25 0 [(0, 0x10), (6, 4)] id).dev
     d.asks 0x10 ∧ d.lgl.lockEnd ≤ d.now ∧ d.request0.data ≠ [] ∧ leAt d.request0.data 0 1 = 4) ∧
    (let d := Dev.at 5 (request 120 0 [(0, 0x11)] fun l => { l with chal := some ([], 2, 0), lockEnd := 6 }).dev
     d.asks 0x11 ∧ d.lgl.chal = some ([], 2, 0) ∧ d.now < 30 * ticksPerS ∧ d.request0.data.length = 96 ∧ d.now < d.lgl.lockEnd) ∧
    (let d := Dev.at 4 (request 25 0 [(0, 0x11)] fun l => { l with chal := some ([], 2, 0), fails := [3, 2, 1, 0] }).dev
     d.asks 0x11 ∧ d.request0.data.length ≠ 96 ∧ d.mbFails.length = 4 ∧ d.lgl.lockAt = none) ∧
    (Dev.at 0 (request 24 0 [(0, 0x12)] id).dev).asks 0x12 ∧
    (let d := Dev.at 0 (request 24 2 [(0, 0x20), (2, 3)] fun l => { l with seq := 3 }).dev
     d.asks 0x20 ∧ d.role = 2 ∧ d.request0.u 8 8 = d.lgl.seq ∧ d.rd64 0 LGL_REC_ACK_LO.SEQ LGL_REC_ACK_HI.SEQ < 3) ∧
    (let d := Dev.at 0 (request 24 3 [(0, 0x21)] id).dev; d.asks 0x21 ∧ d.role = 3 ∧ d.lgl.merged = none ∧ 2 ^ 20 ≤ d.lglFree) := by
  unfold Dev.asks; decide +kernel

theorem wit_MailboxRequests_times :
    (let d := Dev.at (300 * ticksPerS) (request 24 2 [] fun l => { l with chal := some ([], 2, 270 * ticksPerS), lockEnd := 300 * ticksPerS }).dev
     270 * ticksPerS + 30 * ticksPerS = d.now ∧ d.lgl.lockEnd ≠ 0 ∧ d.lgl.lockEnd = d.now ∧ d.role ≠ 0 ∧
     d.lgl.roleAt + 300 * ticksPerS = d.now) ∧
    (let d := Dev.at 0 ((request 24 3 [(0, 2)] id).dev.wr 0 LGL_STAT.PFAIL 1)
     d.lglUp = true ∧ d.rd 0 LGL_MBSTAT.STATE = 1 ∧ leAt d.mbReq 22 2 = 0 ∧ d.lgl.halted = false ∧ d.lglPfail = true ∧ leAt d.mbReq 0 1 = 2) := by
  decide +kernel

theorem test_mailbox :
    (let e := left (.lglSet 0) (setIstart 100000)
     e.rd 0 LGL_MBSTAT.STATUS = 0 ∧ e.lgl.stage.get (fun _ => none) (11 * 256) = some 100000 ∧ e.lgl.par = (setIstart 0).dev.lgl.par) ∧
    (left (.lglSet 0) (setIstart 100001)).rd 0 LGL_MBSTAT.STATUS = 4 ∧
    (left (.lglSeal 0) (request 24 0 [(0, 3)] id)).rd 0 LGL_MBSTAT.STATUS = 3 ∧
    (left (.lglDiscard 0) (request 24 3 [(0, 4)] fun l => { l with stage := [(11 * 256, some 5)] })).lgl.stage = [] ∧
    (let e := left (.lglAuth 4) (request 25 0 [(0, 0x11)] fun l => { l with chal := some ([], 2, 0), fails := [3, 2, 1, 0] })
     e.rd 0 LGL_MBSTAT.STATUS = 7 ∧ (e.tmp 10).count = 1 ∧ e.lgl.lockEnd = 4 + 60 * ticksPerS) ∧
    (let e := left (.lglAck 0) (request 24 2 [(0, 0x20), (2, 3)] fun l => { l with seq := 3 })
     e.rd 0 LGL_REC_ACK_LO.SEQ = 3) ∧
    (left (.lglLogout 0) (request 24 2 [(0, 0x12)] id)).role = 0 ∧
    (left (.lglRoleIdleTimeout (300 * ticksPerS)) (request 24 2 [] id)).role = 0 ∧
    (left (.lglRoleIdleTimeout (300 * ticksPerS - 1)) (request 24 2 [] id)).role = 2 := by decide +kernel

/-! ### Safety -/

/-- The island runs; function 0, of point 0, enabled and in a state; pair 0 of point 0 enabled, no point under trip. -/
def safe (st : Nat) (f : Saf → Saf) (g : Dev → Dev) : State := booted fun d =>
  let d := ((((d.wr 0 SAF_STAT.READY 1).wr 0 (SAF_IN_A.EN 0) 1).wr 0 (SAF_IN_MASK.PTS 0) 1).wr 0 (SAF_INST.STATE 0) st).wr 0 (SAF_PTPAIR.PAIR 0) 0
  let d := (d.wr 0 SAF_PAIREN.EN 1).wr 0 SAF_PTTRIP.PTS 0
  g { d with saf := f d.saf }

/-- Both channels of function 0 read no demand (B read inverted or not is CHMODE's). -/
def quiet (x : Saf) : Saf := { x with level := [(0, true), (1, true)] }

theorem wit_SafetyFunctionsAndReset :
    (let d := Dev.at (7 * ms) (safe 3 id id).dev
     d.domOn .safe = true ∧ d.safRuns = true ∧ d.saf.evalIx ≤ d.safIx ∧ d.ope.quiesce = none ∧ d.on 0 (SAF_IN_A.EN 0) = true ∧
     (d.fnLevels 0).anyDemand 0 = true ∧ d.fnIgnored 0 = false ∧ d.rd 0 (SAF_INST.STATE 0) = 3) ∧
    (let d := Dev.at 0 (safe 2 quiet fun d => d.wr 0 (SAF_IN_A.AUTO 0) 1).dev
     d.rd 0 (SAF_INST.STATE 0) = 2 ∧ d.on 0 (SAF_IN_A.AUTO 0) = true ∧ d.on 0 (SAF_INST.DISCF 0) = false ∧ (d.fnLevels 0).anyDemand 0 = false) ∧
    (let s := safe 3 quiet fun d => (d.wr 0 (SAF_INST.DISCRUN 0) 1).wr 0 (SAF_IN_A.DISC_MS 0) 10
     (Dev.at (10 * ms) s.dev).safIx = 10 ∧ ((Dev.at (10 * ms) s.dev).safFn 0).e0 + s.dev.rd 0 (SAF_IN_A.DISC_MS 0) = 10 ∧
     (Dev.at (10 * ms - 1) s.dev).safIx = 9) ∧
    (let d := Dev.at 0 (safe 2 (fun x => { quiet x with evalIx := 1, rst := { ended := some (100, false) } }) fun d => d.wr 1 (SFC_STAT.STATE 5) 3).dev
     d.safRuns = true ∧ d.saf.evalIx = d.safIx + 1 ∧ d.on 0 SAF_RST.JAM = false ∧ d.saf.rst.ended = some (100, false)) ∧
    (let d := Dev.at (5001 * ms) (safe 2 (fun x => { x with rst := { aAt := some 0 } }) id).dev; d.saf.rst.aAt = some 0 ∧ 5000 < d.safIx - 0) ∧
    (let d := Dev.at (1000 * ms) (safe 2 (fun x => { x with rst := { idleAt := some 0 } }) fun d => d.wr 0 SAF_RST.JAM 1).dev
     d.on 0 SAF_RST.JAM = true ∧ d.safIx - 0 = 1000) ∧
    (safe 2 id id).dev.on 0 SAF_STAT.FAIL = false := by decide +kernel

theorem test_safety :
    (let e := left (.safeEvaluation 0) (safe 3 id id); e.rd 0 (SAF_INST.STATE 0) = 2 ∧ e.tripActs 0 = true ∧ e.rd 0 SAF_TRIPCNT.COUNT = 1) ∧
    (let e := left (.safeEvaluation 0) (safe 3 quiet id); e.rd 0 (SAF_INST.STATE 0) = 3 ∧ e.pairOn 0 = true ∧ e.pairOn 1 = false) ∧
    (left (.safeEvaluation 0) (safe 2 quiet fun d => d.wr 0 (SAF_IN_A.AUTO 0) 1)).rd 0 (SAF_INST.STATE 0) = 3 ∧
    (let s := safe 3 quiet fun d => (d.wr 0 (SAF_INST.DISCRUN 0) 1).wr 0 (SAF_IN_A.DISC_MS 0) 10
     (left (.discFault (10 * ms) 0) s).rd 0 (SAF_INST.DISCF 0) = 1 ∧ (left (.discFault (10 * ms - 1) 0) s).rd 0 (SAF_INST.DISCF 0) = 0) ∧
    (let s (n : Nat) := safe 2 (fun x => { quiet x with evalIx := 1, rst := { ended := some (n, false) } }) id
     (left (.safeResetPulseEnd 0 0) (s 100)).rd 0 (SAF_INST.STATE 0) = 3 ∧ (left (.safeResetPulseEnd 0 0) (s 5000)).rd 0 SAF_RSTCNT.COUNT = 1 ∧
     (left (.safeResetPulseEnd 0 0) (s 99)).rd 0 (SAF_INST.STATE 0) = 2 ∧ (left (.safeResetPulseEnd 0 0) (s 5001)).rd 0 (SAF_INST.STATE 0) = 2) ∧
    (left (.rstJam (5001 * ms)) (safe 2 (fun x => { x with rst := { aAt := some 0 } }) id)).rd 0 SAF_RST.JAM = 1 ∧
    (left (.rstJam (5000 * ms)) (safe 2 (fun x => { x with rst := { aAt := some 0 } }) id)).rd 0 SAF_RST.JAM = 0 ∧
    (left (.islandFail 0) (safe 2 id id)).rd 0 SAF_STAT.FAIL = 1 := by decide +kernel

theorem wit_OutputPairsDropAndFault :
    (let d := Dev.at (8 * ms) (safe 2 (fun x => { x with pairs := [(0, { tripAt := some 0, mis := 2, code := 3 })] }) fun d => d.wr 0 SAF_STAT.PAIRON 1).dev
     (d.safPair 0).tripAt = some 0 ∧ d.pairOn 0 = true ∧ 0 + 8 * ticksPerMs = d.now ∧ 2 = (d.safPair 0).mis ∧
     d.rd 0 (SAF_PAIRST.STATE 0) ≠ 2 ∧ (d.safPair 1).tripAt = none ∧ d.pairOn 1 = false) ∧
    (let d := Dev.at 0 (safe 2 id id).dev; d.safRuns = true ∧ d.bit 0 SAF_PAIREN.EN 0 = true ∧ d.bit 0 SAF_PAIREN.EN 1 = false ∧
     (d.safPair 0).testAt = none ∧ testCode (d.pairOn 0) true false = 0 ∧ testCode (d.pairOn 0) true true = 4) := by decide +kernel

theorem test_pairs :
    (let s := safe 2 (fun x => { x with pairs := [(0, { tripAt := some 0, mis := 2, code := 3 })] }) fun d => d.wr 0 SAF_STAT.PAIRON 1
     (left (.pairDropTimeout (8 * ms) 0) s).pairOn 0 = false ∧ (left (.pairDropTimeout (8 * ms - 1) 0) s).pairOn 0 = true ∧
     (let e := left (.pairFault 0 0) s; e.rd 0 (SAF_PAIRST.STATE 0) = 2 ∧ e.rd 0 (SAF_PAIRST.FCODE 0) = 3 ∧ e.tripActs 0 = true)) ∧
    ((left (.pairReadback 0 1 0) (safe 2 id id)).safPair 0).code = 1 ∧ ((left (.pairReadback 0 0 1) (safe 2 id id)).safPair 0).code = 0 ∧
    (let e := left (.pairTest 0 0 true false 2) (safe 2 id id); e.rd 0 (SAF_PAIRST.FCODE 0) = 5 ∧ e.rd 0 (SAF_PAIRST.FCODE 1) = 5) ∧
    (left (.pairTest 0 0 true false 0) (safe 2 id id)).rd 0 (SAF_PAIRST.STATE 0) ≠ 2 := by decide +kernel

/-- A safety-layer frame of 16 bytes under identity 77: SEQ, WDX 100 ms, one bit set. -/
def sfcBytes (seq : Nat) : List Byte :=
  let b := leBytes 2 seq ++ leBytes 2 100 ++ [0#8, 0#8] ++ leBytes 4 1 ++ [0#8, 0#8]
  b ++ leBytes 4 (sfcCrc 77 (b ++ leBytes 4 0))

/-- It in a Skein frame of position 3. -/
def sfcSkn (seq : Nat) : List Byte := frame3 0x40 16 0 24 (sfcBytes seq)

/-- Connection 5, identity 77, WDX 100 ms, on a transport, in a state. -/
def safeCon (trans st : Nat) (x : SfcCon) (f : Dev → Dev) : State := live2 fun d =>
  let d := ((((d.wr 0 (SFC_CON_A.EN 5) 1).wr 0 (SFC_CON_A.TRANS 5) trans).wr 0 (SFC_CON_ID.ID 5) 77).wr 0 (SFC_CON_B.WDX_MS 5) 100).wr 0 (SFC_STAT.STATE 5) st
  let d := if trans = 0 then (d.wr 0 (SFC_CON_A.PORT 5) 2).wr 0 (SFC_CON_A.NODE 5) 3 else d
  f (d.modCon 5 fun _ => x)

theorem wit_SafetyLayerConnections_rx :
    (let d := Dev.at 0 (safeCon 0 1 {} id).dev; let g := slice (sfcSkn 7) 4 (leAt (sfcSkn 7) 2 1)
     takesAny d 2 0x40 (sfcSkn 7) = true ∧ d.domOn .safe = true ∧ d.sfcSkein (d.homePort 2) (framePos (sfcSkn 7)) = [5] ∧
     d.rd 0 (SFC_STAT.STATE 5) = 1 ∧ g.length = d.sfcLen 5 ∧ d.sfcCrcOk 5 g = true ∧ leAt g 2 2 = 100 ∧ (d.sfcCon 5).base = false) ∧
    (let d := Dev.arrive 0 .pcie (safeCon 2 1 {} id).dev
     d.reached .pcie .sfc 0 0x648 ∧ d.passes .sfc 0 0x648 5#32 = true ∧ d.passes .sfc 0 0x648 4#32 = true ∧
     d.rd 0 (SFC_CON_A.TRANS 5) = 2 ∧ d.rd 0 (SFC_CON_A.TRANS 4) ≠ 2 ∧ d.domOn .safe = true) := by
  unfold Dev.reached; decide +kernel

theorem wit_SafetyLayerConnections_times :
    (let d := Dev.at (100 * ms) (safeCon 0 3 { base := true } id).dev
     d.rd 0 (SFC_STAT.STATE 5) = 3 ∧ (d.sfcCon 5).base = true ∧ (d.sfcCon 5).wdAt + d.rd 0 (SFC_CON_B.WDX_MS 5) * ticksPerMs = d.now) ∧
    (let d := Dev.at (200 * ms) (safeCon 0 3 { base := true, wdAt := 101 * ms } id).dev
     (d.sfcCon 5).readyAt + 2 * (d.rd 0 (SFC_CON_B.WDX_MS 5) * ticksPerMs) = d.now ∧
     d.now < (d.sfcCon 5).wdAt + d.rd 0 (SFC_CON_B.WDX_MS 5) * ticksPerMs) ∧
    ((safeCon 0 2 { crcAt := [ticksPerS, 1, 0] } id).dev.sfcCon 5).crcAt = [0 + ticksPerS, 1, 0] ∧
    ((safeCon 0 2 { crcAt := [ticksPerS + 1, 1, 0] } id).dev.sfcCon 5).crcAt = [0 + ticksPerS + 1, 1, 0] ∧
    (let d := Dev.at 0 (safeCon 0 1 {} id).dev; d.sfcDue 5 = true ∧ d.nodeUp 2 3 = true ∧ d.plySilent = false ∧ d.rd 2 SKN_CFG.TOPO = 0) ∧
    (let d := Dev.at 0 (safeCon 1 1 {} fun d => (((d.wr 0 (SFC_CON_A.PEER 5) 4).wr 0 PLC_CFG.YEN 1).wr 0 (PLC_PEER_HI.EN 4) 1).wr 0 (PLC_NBR_A.STATE 4) 2).dev
     d.sfcDue 5 = true ∧ d.yarnOn = true ∧ d.peerUp 4 = true ∧ d.rd 0 (SFC_CON_A.PEER 5) = 4) ∧
    (Dev.at 0 (safeCon 2 1 {} id).dev).sfcDue 5 = true ∧ (Dev.at 0 (safeCon 2 1 {} id).dev).sfcDue 6 = false := by decide +kernel

theorem test_safetyLayer :
    (let e := left (.sfcFrameRx 0 2 (sfcSkn 7)) (safeCon 0 1 {} id); (e.sfcCon 5).base = true ∧ e.rd 0 (SFC_STAT.LASTSEQ 5) = 7) ∧
    (let e := left (.sfcFrameRx 0 2 (sfcSkn 7)) (safeCon 0 1 { base := true, count := 1 } fun d => d.wr 0 (SFC_STAT.LASTSEQ 5) 3)
     e.rd 0 (SFC_STAT.STATE 5) = 2 ∧ e.rd 0 (SFC_RX.BITS 5) = 1) ∧
    (left (.sfcFrameRx 0 2 (sfcSkn 7)) (safeCon 0 1 { base := true, count := 1 } fun d => d.wr 0 (SFC_STAT.LASTSEQ 5) 2)).rd 0 SFC_SEQDISC.COUNT = 1 ∧
    (left (.sfcFrameRx 0 2 (sfcSkn 7)) (safeCon 0 1 {} fun d => d.wr 0 (SFC_CON_ID.ID 5) 78)).rd 0 SFC_CRCERR.COUNT = 1 ∧
    (left (.sfcWatchdog (100 * ms) 5) (safeCon 0 2 { base := true } id)).rd 0 (SFC_STAT.FCAUSE 5) = 1 ∧
    (left (.sfcWatchdog (100 * ms - 1) 5) (safeCon 0 2 { base := true } id)).rd 0 (SFC_STAT.STATE 5) = 2 ∧
    (left (.sfcCrcRate 0 5) (safeCon 0 2 { crcAt := [ticksPerS, 1, 0] } id)).rd 0 (SFC_STAT.FCAUSE 5) = 2 ∧
    (left (.sfcReady (200 * ms) 5) (safeCon 0 3 { base := true, wdAt := 101 * ms } id)).rd 0 (SFC_STAT.READY 5) = 1 ∧
    (left (.sfcTx 0 5) (safeCon 0 1 {} id)).sent.length = 1 ∧
    (let u := after (.sfcTx 0 5) (safeCon 2 1 {} id); u.dev.rd 0 SFC_HOUTPEND_LO.PEND = 32 ∧ u.sramByte (128 * 5 + 2) = 100#8) := by
  decide +kernel

/-! ### Operations and the fault recorder -/

/-- The submission ring of 8 entries is on; one descriptor waits. -/
def ringed (desc : List Byte) (f : Dev → Dev) : State :=
  let s := booted fun d => f (((d.wr 0 OPE_CTL.SQ_EN 1).wr 0 OPE_SQ_SIZE.SIZE 8).wr 0 OPE_SQ_TAIL.IDX 1)
  { s with mem := { s.mem with sram := s.mem.sram.setBytes 0 desc } }

/-- A CAL_RUN of target 0, index 0, tag 9; and one with a reserved byte set. -/
def calDesc : List Byte := [5#8, 0x50#8, 0#8, 0#8, 9#8] ++ List.replicate 27 0#8
def badDesc : List Byte := [5#8, 0x50#8, 0#8, 1#8, 9#8] ++ List.replicate 27 0#8

/-- The operation engine's working state changed. -/
def Dev.opeOf (d : Dev) (f : OpEng → OpEng) : Dev := { d with ope := f d.ope }

theorem wit_OperationsIssueAndComplete_issue :
    (let w := Dev.arrive 0 .pcie (ringed [] id).dev
     w.reached .pcie .ope 0 0x444 ∧ w.passes .ope 0 0x444 7#32 = true ∧ w.passes .ope 0 0x444 0#32 = true ∧ w.rd 0 OPE_SQ_SIZE.SIZE = 8 ∧
     w.rd 0 OPE_SQ_TAIL.IDX = 1 ∧ w.sqWaiting = 1) ∧
    (Dev.at 0 (booted fun d => d.opeOf fun o => { o with pfail := true }).dev).issueStopped = true ∧
    (let d := Dev.at 0 (booted fun d => d.opeOf fun o => { o with safeQ := [someOp OK.CONT_OPEN .queued], intQ := [someOp OK.NODE_ARM .queued] }).dev
     d.issueStopped = false ∧ d.ope.safeQ = [someOp OK.CONT_OPEN .queued] ∧ (d.opAt (safeSlot OK.CONT_OPEN 9)).isSome = false ∧
     d.opWaits (someOp OK.CONT_OPEN .queued) = false ∧ d.jnlRoom = true ∧ d.freeSlot = some 0 ∧ d.opWaits (someOp OK.NODE_ARM .queued) = false) ∧
    (let s := ringed calDesc id; let d := Dev.at 0 s.dev
     d.issueStopped = false ∧ d.ope.safeQ = [] ∧ d.ope.intQ = [] ∧ d.sqHead s.mem.sram = some calDesc ∧ d.descTake calDesc = true ∧
     opSafe (descOp calDesc).kind = false ∧ d.freeSlot = some 0 ∧ d.jnlRoom = true ∧ d.cqCredits ≠ 0 ∧ d.pauseOver (descOp calDesc) = true ∧
     d.opWaits (descOp calDesc) = false) ∧
    (let s := ringed badDesc id; let d := Dev.at 0 s.dev; d.sqHead s.mem.sram = some badDesc ∧ d.descTake badDesc = false ∧ d.cqCredits ≠ 0) := by
  unfold Dev.reached; decide +kernel

/-- Every general slot busy. -/
def fullPool : List Op := (List.range 264).map fun k => { someOp OK.NODE_ARM .acting with slot := k }

theorem wit_OperationsIssueAndComplete_full :
    (let s := booted fun d => d.opeOf fun o => { o with flight := fullPool, intQ := [someOp OK.NODE_ARM .queued] }; let d := Dev.at 0 s.dev
     d.freeSlot = none ∧ d.jnlRoom = true ∧ d.sqHead s.mem.sram = none ∧ d.ope.safeQ = []) ∧
    (let c : CqEntry := { tag := 0, cls := 0, replayed := false, compensated := false, status := 0, jnlIndex := 0, time := 0 }
     let s := ringed calDesc fun d => { d with host := { d.host with cq := List.replicate 1024 c } }
     let d := Dev.at 0 s.dev; d.cqCredits = 0 ∧ d.jnlRoom = true ∧ d.sqHead s.mem.sram = some calDesc) := by decide +kernel

theorem wit_OperationsIssueAndComplete_done :
    (let d := Dev.at 0 (booted fun d => d.opeOf fun o => { o with flight := [{ someOp OK.CAL_RUN .finished with host := true }] }).dev
     d.opAt 5 = some { someOp OK.CAL_RUN .finished with host := true } ∧ d.opAt 6 = none) ∧
    (let d := Dev.at 0 (booted fun d => ((d.wr 0 JNL_TAIL.IDX 64).wr 0 JNL_CFG.RELOC 600).opeOf fun o =>
        { o with flight := [{ someOp OK.NODE_ARM .acting with recIdx := 64 }], jnl := [(64, some { kind := 1, seq := 1, time := 0 })], used := 65472 - 599 }).dev
     d.jnlLive 64 = true ∧ d.jrec (d.rd 0 JNL_TAIL.IDX) = some { kind := 1, seq := 1, time := 0 } ∧ d.ope.used ≠ 0 ∧
     d.jnlFree < d.rd 0 JNL_CFG.RELOC) := by decide +kernel

theorem test_issue :
    (left (.sqTailWrite 0 .pcie 7#32) (ringed [] id)).rd 0 OPE_SQ_TAIL.IDX = 7 ∧
    (left (.sqTailWrite 0 .pcie 0#32) (ringed [] id)).rd 0 (ERRINFO.REASON .ope) = RC.RANGE ∧
    (let e := left (.operationIssue 0) (booted fun d => d.opeOf fun o => { o with safeQ := [someOp OK.CONT_OPEN .queued], intQ := [someOp OK.NODE_ARM .queued] })
     e.ope.flight.map (·.slot) = [264 + 9] ∧ e.ope.intQ.length = 1 ∧ e.rd 0 OPE_ISSUED.COUNT = 1) ∧
    (let e := left (.operationIssue 0) (ringed calDesc id)
     e.ope.flight.map (fun o => (o.slot, o.kind, o.tag)) = [(0, OK.CAL_RUN, 9)] ∧ e.rd 0 OPE_SQ_HEAD.IDX = 1) ∧
    (let e := left (.invalidDescriptor 0) (ringed badDesc id); e.rd 0 OPE_INVALID.COUNT = 1 ∧ e.ope.flight = []) := by decide +kernel

theorem test_complete :
    (let e := left (.operationComplete 0 5) (booted fun d => d.opeOf fun o => { o with flight := [{ someOp OK.CAL_RUN .finished with host := true }] })
     e.ope.flight = [] ∧ e.rd 0 OPE_COMPLETED.COUNT = 1 ∧ (e.host.cq ++ e.host.cqHeld).length = 1) ∧
    (let e := left (.journalRelocate 0) (booted fun d => ((d.wr 0 JNL_TAIL.IDX 64).wr 0 JNL_CFG.RELOC 600).opeOf fun o =>
        { o with flight := [{ someOp OK.NODE_ARM .acting with recIdx := 64 }], jnl := [(64, some { kind := 1, seq := 1, time := 0 })], used := 65472 - 599 })
     e.rd 0 JNL_RELOCS.COUNT = 1 ∧ e.ope.flight.map (·.recIdx) = [State.reset.dev.rd 0 JNL_HEAD.IDX]) := by decide +kernel

/-- An issued operation of a kind in slot 5 with its argument bytes. -/
def argOp (kind : Nat) (args : List Byte) : Op := { someOp kind .issued with args := opArgs args }

/-- It in flight beside a live port 2, four bytes at 0x100 of the shared buffers. -/
def acting (o : Op) (f : Dev → Dev) : State :=
  let s := live2 fun d => f (d.opeOf fun x => { x with flight := [o] })
  { s with mem := { s.mem with sram := s.mem.sram.setBytes 0x100 [1#8, 2#8, 3#8, 4#8] } }

/-- NVM_WRITE of those four bytes to byte 0x20 of the general partition; NVM_READ of partition 0 into them. -/
def nvmWr : Op := argOp OK.NVM_WRITE [1#8, 0#8, 4#8, 0#8, 0x20#8, 0#8, 0#8, 0#8, 0#8, 1#8]
def nvmRd : Op := argOp OK.NVM_READ [0#8, 0#8, 4#8, 0#8, 0x20#8, 0#8, 0#8, 0#8, 0#8, 1#8]

/-- CAP_READ of entries of region 0 under CAPID 7 into 0x100. -/
def capRd (first n : Nat) : Op := argOp OK.CAP_READ (leBytes 4 0 ++ leBytes 4 first ++ leBytes 4 0x100 ++ leBytes 4 n ++ leBytes 4 7)

/-- Region 0 frozen with one unit of 64 KiB: 2,048 entries. -/
def frozen (d : Dev) : Dev :=
  (((d.wr 0 (FRC_R_A.FROZEN 0) 1).wr 0 (FRC_S_C.RAW 0) 1).wr 0 FRC_CAPID.ID 7).wr 0 (FRC_R_B.FIRST 0) 2047

theorem wit_NodeMemoryAndCaptureOperations :
    (let o := argOp OK.IO_OUT [2#8, 3#8, 1#8, 0#8, 9#8]; let d := Dev.at 0 (acting o id).dev
     d.opAt 5 = some o ∧ o.phase = .issued ∧ o.arg 8 1 = 2 ∧ d.nodeUp 2 3 = true ∧ d.nodeUp 2 4 = false) ∧
    (let d := Dev.at 0 (acting (argOp OK.NODE_RD [11#8, 7#8, 0x10#8]) id).dev; d.nodeUp 11 7 = false ∧ d.opAt 5 = some (argOp OK.NODE_RD [11#8, 7#8, 0x10#8])) ∧
    ((Dev.at 0 (acting nvmWr id).dev).domOn .mem = true ∧ (Dev.at 0 (acting nvmWr id).dev).opAt 5 = some nvmWr ∧ nvmWr.arg 10 2 = 4 ∧
     (Dev.at 0 (acting nvmRd id).dev).opAt 5 = some nvmRd ∧ nvmRd.arg 12 4 = 0x20) ∧
    (let d := Dev.at 0 (acting (capRd 2047 1) frozen).dev; let o := capRd 2047 1
     d.opAt 5 = some o ∧ d.domOn .frc = true ∧ o.arg 9 1 < 4 ∧ o.arg 20 4 = 1 ∧ o.arg 12 4 + 1 = d.frcDepth 0 ∧ d.on 0 (FRC_R_A.FROZEN 0) = true ∧
     o.arg 24 4 = d.rd 0 FRC_CAPID.ID) ∧
    (let w := Dev.arrive 0 .pcie (booted fun d => d.wr 0 FRC_CFG.SRCEN 0).dev
     w.reached .pcie .frc 0 0x440 ∧ w.passes .frc 0 0x440 1#32 = true ∧ w.passes .frc 0 0x440 2#32 = true ∧ w.passes .frc 0 0x440 4#32 = true ∧
     w.frcMaster = true ∧ w.rd 0 FRC_STAT.STATE = 0 ∧ w.capReading = false ∧ w.bit 0 FRC_CFG.SRCEN 0 = false) ∧
    (let w := Dev.arrive 0 .pcie (booted fun d => (d.wr 0 FRC_CFG.SRCEN 1).wr 0 PLY_CFG.MODE 2).dev
     w.frcMaster = false ∧ w.bit 0 FRC_CFG.SRCEN 0 = true ∧ w.reached .pcie .frc 0 0x440) := by
  unfold Dev.reached; decide +kernel

theorem test_nodeAndMemoryOps :
    (let e := left (.ioOut 0 5) (acting (argOp OK.IO_OUT [2#8, 3#8, 1#8, 0#8, 9#8]) id)
     e.skn.reqs.map (fun r => (r.op, r.index, r.value)) = [(0, 1, 9)]) ∧
    (left (.nodeRd 0 5) (acting (argOp OK.NODE_RD [11#8, 7#8, 0x10#8]) id)).rd 11 SKN_IOFAIL.COUNT = 1 ∧
    (left (.nodeWr 0 5) (acting (argOp OK.NODE_WR [2#8, 3#8, 0x10#8, 0#8, 255#8, 255#8, 255#8, 255#8]) id)).skn.reqs.map (·.value) = [-1] ∧
    (left (.nodeArm 0 5) (acting (argOp OK.NODE_ARM [2#8, 3#8]) id)).skn.reqs.map (·.index) = [2] ∧
    ((left (.calRun 0 5) (acting (argOp OK.CAL_RUN [0#8, 0#8]) id)).opAt 5).map (·.status) = some 0 ∧
    (after (.nvmWrite 0 5) (acting nvmWr id)).mramByte 0x800022 = 3#8 ∧
    (let s := acting nvmRd id; (after (.nvmRead 0 5) s).sramByte 0x102 = s.mramByte 0x22) ∧
    (let u := after (.capRead 0 5) (acting (capRd 2047 1) frozen); (u.dev.opAt 5).map (·.status) = some 0) ∧
    ((left (.capRead 0 5) (acting (capRd 2047 2) frozen)).opAt 5).map (·.status) = some 1 ∧
    ((left (.capRead 0 5) (acting (capRd 2047 1) fun d => (frozen d).wr 0 FRC_CAPID.ID 8)).opAt 5).map (·.status) = some 2 := by decide +kernel

theorem test_recorder :
    (let e := left (.frcArm 0 .pcie 1#32) (booted id); e.rd 0 FRC_STAT.STATE = 1 ∧ e.rd 0 FRC_CAPID.ID = 1) ∧
    (left (.frcArm 0 .pcie 1#32) (booted fun d => d.wr 0 FRC_STAT.STATE 2)).rd 0 (ERRINFO.REASON .frc) = 0x81 ∧
    (left (.frcDisarm 0 .pcie 4#32) (booted fun d => d.wr 0 FRC_STAT.STATE 1)).rd 0 FRC_STAT.STATE = 0 ∧
    (left (.frcFire 0 .pcie 2#32) (booted fun d => d.wr 0 FRC_CFG.SRCEN 1)).rd 0 FRC_IGNCNT.COUNT = 1 := by decide +kernel

/-! ### Keys. What an algorithm answers is free: no test rests on it. -/

/-- An issued crypto operation: FUNC, KEYREF, AUX; its input at 0x100, its output at 0x1000. -/
def cryOp (func ref aux len room : Nat) : Op :=
  argOp OK.CRY_OP (b1 func ++ b1 ref ++ b1 aux ++ b1 0 ++ leBytes 4 0x100 ++ leBytes 4 len ++ leBytes 4 0x1000 ++ leBytes 4 room)

/-- It in flight over its input; the keys changed. -/
def crying (func ref aux : Nat) (x : List Byte) (room : Nat) (k : Key → Key) (f : Dev → Dev) : State :=
  let s := booted fun d => f ({ d with key := k d.key }.opeOf fun e => { e with flight := [cryOp func ref aux x.length room] })
  { s with mem := { s.mem with sram := s.mem.sram.setBytes 0x100 x } }

/-- Context 7 holds a key of a TYPE with its attributes, usable in every lifecycle state. -/
def ctx7 (typ attr : Nat) (d : Dev) : Dev := d.setCtx 7 typ attr 0xFF 0x3F (List.replicate (keyLen typ) 1#8)

/-- A crypto operation may run with its input as given. -/
def cryGoes (s : State) (func ref aux : Nat) (x : List Byte) (room : Nat) : Bool :=
  let d := Dev.at 0 s.dev; let o := cryOp func ref aux x.length room
  d.opAt 5 = some o && (o.kind = OK.CRY_OP && (o.phase = .issued && (o.func = func && (d.cryWaits s.mem.sram o = false &&
    (d.domOn .cry && d.key.lc ≠ 4 && o.cryInput s.mem.sram = x && o.keyref = ref && o.arg 24 4 = room)))))

/-- It says what the statements ask. -/
theorem cryReady_of_goes {s : State} {func ref aux room : Nat} {x : List Byte} (h : cryGoes s func ref aux x room = true) :
    (Dev.at 0 s.dev).cryReady s.mem.sram 5 (cryOp func ref aux x.length room) func := by
  unfold cryGoes at h
  simp only [Bool.and_eq_true, decide_eq_true_eq] at h
  exact ⟨h.1, h.2.1, h.2.2.1, h.2.2.2.1, h.2.2.2.2.1⟩

/-- What is answered, and the status of a refusal. -/
def good {α : Type} (x : Except Nat α) : Option α := match x with | .ok a => some a | .error _ => none
def bad {α : Type} (x : Except Nat α) : Nat := match x with | .error c => c | .ok _ => 0

/-- Bytes of zero. -/
def zeros (n : Nat) : List Byte := List.replicate n 0#8

theorem wit_CryptoFunctions_keys :
    (let s := crying 1 7 0 (zeros 32) 68 id (ctx7 1 1)
     cryGoes s 1 7 0 (zeros 32) 68 ∧ good ((Dev.at 0 s.dev).withAttr ((Dev.at 0 s.dev).refUse 7) KA.SIGN) = some ⟨1, 1, 31, List.replicate 32 1#8⟩) ∧
    (let s := crying 1 8 0 (zeros 32) 68 id (ctx7 1 1); bad ((Dev.at 0 s.dev).withAttr ((Dev.at 0 s.dev).refUse 8) KA.SIGN) = 0x20) ∧
    (let s := crying 2 7 0 (zeros 96) 0 id (ctx7 3 2)
     cryGoes s 2 7 0 (zeros 96) 0 ∧ keyLen 3 - 1 = 64 ∧ good ((Dev.at 0 s.dev).withAttr ((Dev.at 0 s.dev).refUse 7) KA.VERIFY) = some ⟨3, 2, 31, List.replicate 65 1#8⟩) ∧
    (let s := crying 3 7 0 (zeros 65) 36 id (ctx7 1 4)
     cryGoes s 3 7 0 (zeros 65) 36 ∧ good ((Dev.at 0 s.dev).withAttr ((Dev.at 0 s.dev).refUse 7) KA.ECDH) = some ⟨1, 4, 31, List.replicate 32 1#8⟩) ∧
    (let s := crying 8 7 0 [] 52 id (ctx7 6 32)
     cryGoes s 8 7 0 [] 52 ∧ good ((Dev.at 0 s.dev).withAttr ((Dev.at 0 s.dev).refUse 7) KA.MAC) = some ⟨6, 32, 31, List.replicate 48 1#8⟩) ∧
    (let s := crying 9 7 0 (zeros 14) 20 id (ctx7 5 0xC0)
     cryGoes s 9 7 0 (zeros 14) 20 ∧ leAt (zeros 14) 12 2 = 0 ∧ good ((Dev.at 0 s.dev).withAttr ((Dev.at 0 s.dev).refUse 7) KA.ENC) = some ⟨5, 0xC0, 31, List.replicate 32 1#8⟩) ∧
    (let s := crying 10 7 0 (zeros 30) 4 id (ctx7 5 0xC0)
     cryGoes s 10 7 0 (zeros 30) 4 ∧ good ((Dev.at 0 s.dev).withAttr ((Dev.at 0 s.dev).refUse 7) KA.DEC) = some ⟨5, 0xC0, 31, List.replicate 32 1#8⟩) ∧
    cryGoes (crying 11 0xFF 1 [] 52 id id) 11 0xFF 1 [] 52 ∧ cryGoes (crying 12 0xFF 0 [] 4 id id) 12 0xFF 0 [] 4 := by
  decide +kernel

theorem wit_CryptoFunctions_contexts :
    (let s := crying 4 7 1 (b1 1 ++ b1 0xFF ++ b1 0x3F ++ zeros 5) 4096 id id; let d := Dev.at 0 s.dev
     cryGoes s 4 7 1 (b1 1 ++ b1 0xFF ++ b1 0x3F ++ zeros 5) 4096 ∧ d.ctxUsed 7 = false ∧ attrOk 1 1 false = true ∧
     attrOk 1 2 false = false ∧ d.parentStatus 0x3F KA.WRAP = 0 ∧ d.on 0 KEY_TRNG.FAIL = false) ∧
    (let x := [1#8, 1#8, 1#8, 255#8, 63#8] ++ zeros 91; let s := crying 5 7 0 x 0 id id; let d := Dev.at 0 s.dev
     cryGoes s 5 7 0 x 0 ∧ x.length = 96 ∧ leAt x 0 1 = 1 ∧ d.ctxUsed 7 = false ∧ d.blobStatus x = 0) ∧
    (let s := crying 6 7 0 [] 0 id (ctx7 1 1); cryGoes s 6 7 0 [] 0 ∧ (Dev.at 0 s.dev).ctxUsed 7 = true) ∧
    (let x := [1#8, 1#8, 255#8, 0#8] ++ zeros 157; let s := crying 7 65 2 x 0 id id; let d := Dev.at 0 s.dev
     cryGoes s 7 65 2 x 0 ∧ x.length = 129 + keyLen 1 ∧ d.importStatus 65 1 1 = 0 ∧ bad (d.openPackage 2 1 x) = 0x20) ∧
    (let s := crying 6 7 0 [] 0 (fun k => { k with lc := 4 }) id; let d := Dev.at 0 s.dev
     d.cryReady s.mem.sram 5 (cryOp 6 7 0 0 0) 6 ∧ d.domOn .cry = true ∧ d.key.lc = 4) := by
  unfold Dev.cryReady; decide +kernel

/-- The status of the operation in slot 5. -/
def status5 (d : Dev) : Option Nat := (d.opAt 5).map (·.status)

theorem test_crypto :
    status5 (left (.sign 0 5) (crying 1 8 0 (zeros 32) 68 id (ctx7 1 1))) = some 0x20 ∧
    status5 (left (.sign 0 5) (crying 1 7 0 (zeros 33) 68 id (ctx7 1 1))) = some 0x28 ∧
    status5 (left (.mac 0 5) (crying 8 7 0 [] 52 id (ctx7 6 1))) = some 0x21 ∧
    (left (.unload 0 5) (crying 6 7 0 [] 0 id (ctx7 1 1))).ctxUsed 7 = false ∧
    status5 (left (.unload 0 5) (crying 6 7 0 [] 0 (fun k => { k with lc := 4 }) id)) = some 0x22 ∧
    status5 (left (.unload 0 5) (crying 6 7 0 [] 0 id fun d => d.setDomState .cry 2)) = some 8 := by decide +kernel

/-- PROVISIONED, and with the maker's key in slot 0. -/
def prov (k : Key) : Key := { k with lc := 1 }
def prov0 (k : Key) : Key := { k with lc := 1, slots := [(0, { state := 1, typ := 4, attr := 2, lcmask := 255, role := 1 })] }

/-- The input of a SLOT_STORE of a public key: VERIFY, every lifecycle state, no role, root. -/
def storeIn : List Byte := b1 2 ++ b1 0xFF ++ b1 0 ++ b1 0x3F ++ zeros 65

theorem wit_KeysAndImages_slots :
    (let s := crying 0x10 0xFF 3 storeIn 0 prov id; let d := Dev.at 0 s.dev
     cryGoes s 0x10 0xFF 3 storeIn 0 ∧ d.slotOps = true ∧ d.slotTokLen = 0 ∧ good (d.storeKey 0xFF (storeIn.drop 4)) = some (3, zeros 65) ∧
     (d.kslot 3).state ≠ 1 ∧ storeOk 3 3 2 0 0x3F = true ∧ storeOk 0 3 2 0 0x3F = false ∧ d.slotTok 3 [] = true) ∧
    (let s := crying 0x11 0xFF 0 [] 0 prov0 id; let d := Dev.at 0 s.dev
     cryGoes s 0x11 0xFF 0 [] 0 ∧ d.slotOps = true ∧ d.slotTokLen = 0 ∧ d.slotTok 0 [] = true ∧ d.family 0 = [0] ∧ d.slotsInUse [0] = false) ∧
    (Dev.at 0 (crying 0x11 0xFF 0 [] 0 prov0 fun d => (d.wr 0 PLC_CFG.YEN 1).wr 0 PLC_CFG.NKSLOT 0).dev).slotsInUse [0] = true ∧
    (let s := crying 0x12 0xFF 0 (b1 1 ++ b1 2 ++ zeros 158) 0 prov0 id; let d := Dev.at 0 s.dev
     cryGoes s 0x12 0xFF 0 (b1 1 ++ b1 2 ++ zeros 158) 0 ∧ d.lcMay 2 = true ∧ d.lcMay 3 = false ∧ d.debug = false ∧ d.tokenOk 1 2 (zeros 160) = false) ∧
    (let s := crying 0x12 0xFF 0 [] 0 (fun k => { k with lc := 3 }) id; cryGoes s 0x12 0xFF 0 [] 0 ∧ (Dev.at 0 s.dev).key.lc = 3) ∧
    (let s := crying 0x13 0xFF 0 (zeros 160) 0 (fun k => { k with gen := 63 }) id; cryGoes s 0x13 0xFF 0 (zeros 160) 0 ∧ (Dev.at 0 s.dev).key.gen = 63) ∧
    cryGoes (crying 0x14 0xFF 0 [] 0 prov id) 0x14 0xFF 0 [] 0 ∧ (Dev.at 0 (crying 0x14 0xFF 0 [] 0 prov id).dev).key.lc = 1 := by
  decide +kernel

theorem wit_KeysAndImages_images :
    (let x := leBytes 4 0x7FFFFE ++ [1#8, 2#8]; let s := crying 0x18 0xFF 0 x 0 (fun k => { k with bank := [(0, 1)] }) id; let d := Dev.at 0 s.dev
     cryGoes s 0x18 0xFF 0 x 0 ∧ d.bankFree 0 = some 1 ∧ bankBase 1 ≤ leAt x 0 4 ∧ leAt x 0 4 + 2 = bankBase 1 + bankLen 1) ∧
    (let s := crying 0x19 0xFF 0 [] 0 (fun k => { k with bank := [(0, 1)] }) id; let d := Dev.at 0 s.dev
     cryGoes s 0x19 0xFF 0 [] 0 ∧ d.bankFree 0 = some 1 ∧ d.imgOk 1 = false) ∧
    (let s := crying 0x1A 0xFF 0 [] 0 (fun k => { k with bank := [(0, 2), (1, 1)], flash := [(8, 255#8), (9, 255#8), (10, 255#8), (11, 255#8)] }) id; let d := Dev.at 0 s.dev
     cryGoes s 0x1A 0xFF 0 [] 0 ∧ d.rd 0 KEY_IMG.BOOTBANK = 0 ∧ d.bank 0 = 2 ∧ d.imgSvn 0 ≤ 63) ∧
    (let d := Dev.at (60 * ticksPerS) (booted fun d => { d.wr 0 KEY_TRNG.FAIL 1 with key := { d.key with failAt := 59 * ticksPerS, chalAt := some 0 } }).dev
     d.on 0 KEY_TRNG.FAIL = true ∧ d.key.failAt + ticksPerS = d.now ∧ d.key.chalAt = some 0 ∧ 0 + 60 * ticksPerS = d.now) ∧
    (let w := Dev.arrive 0 .pcie (booted id).dev
     w.reached .pcie .key 0 0x44C ∧ w.passes .key 0 0x44C 1#32 = true ∧ w.key.lc ≠ 4 ∧ w.on 0 KEY_TRNG.FAIL = false) ∧
    (let d := Dev.at 0 (booted id).dev; d.sys.held = false ∧ d.on 0 KEY_LC.DBGEN = false) := by
  unfold Dev.reached; decide +kernel

theorem test_keys :
    (let e := left (.slotStore 0 5) (crying 0x10 0xFF 3 storeIn 0 prov id); status5 e = some 0 ∧ (e.kslot 3).typ = 3 ∧ (e.kslot 3).state = 1) ∧
    (let e := left (.slotStore 0 5) (crying 0x10 0xFF 0 storeIn 0 prov id); status5 e = some 0x21) ∧
    (let e := left (.slotInvalidate 0 5) (crying 0x11 0xFF 0 [] 0 prov0 id); (e.kslot 0).state = 2 ∧ status5 e = some 0) ∧
    (let e := left (.lcAdvance 0 5) (crying 0x12 0xFF 0 [] 0 (fun k => { k with lc := 3 }) id); e.rd 0 KEY_LC.STATE = 4 ∧ e.key.lc = 4) ∧
    status5 (left (.lcAdvance 0 5) (crying 0x12 0xFF 0 (b1 1 ++ b1 3 ++ zeros 158) 0 prov0 id)) = some 0x22 ∧
    status5 (left (.genAdvance 0 5) (crying 0x13 0xFF 0 (zeros 160) 0 (fun k => { k with gen := 63 }) id)) = some 0x29 ∧
    (left (.debugArm 0 5) (crying 0x14 0xFF 0 [] 0 prov id)).rd 0 KEY_LC.DBGARM = 1 := by decide +kernel

theorem test_images :
    (let x := leBytes 4 0x7FFFFE ++ [1#8, 2#8]; let e := left (.imgWrite 0 5) (crying 0x18 0xFF 0 x 0 (fun k => { k with bank := [(0, 1)] }) id)
     e.flash 0x7FFFFE 2 = [1#8, 2#8] ∧ status5 e = some 0) ∧
    (let x := leBytes 4 0x7FFFFF ++ [1#8, 2#8]; status5 (left (.imgWrite 0 5) (crying 0x18 0xFF 0 x 0 (fun k => { k with bank := [(0, 1)] }) id)) = some 1) ∧
    status5 (left (.imgCommit 0 5) (crying 0x19 0xFF 0 [] 0 (fun k => { k with bank := [(0, 1)] }) id)) = some 0x2B ∧
    (let e := left (.imgConfirm 0 5) (crying 0x1A 0xFF 0 [] 0 (fun k => { k with bank := [(0, 2), (1, 1)], flash := [(8, 255#8), (9, 255#8), (10, 255#8), (11, 255#8)] }) id); e.bank 0 = 1 ∧ e.bank 1 = 0) ∧
    (left (.entropyFail 0) (booted id)).rd 0 KEY_TRNG.FAIL = 1 ∧
    (let s := booted fun d => { d.wr 0 KEY_TRNG.FAIL 1 with key := { d.key with failAt := 59 * ticksPerS, chalAt := some 0 } }
     (left (.entropyRestart (60 * ticksPerS)) s).rd 0 KEY_TRNG.FAIL = 0 ∧ (left (.entropyRestart (60 * ticksPerS - 1)) s).rd 0 KEY_TRNG.FAIL = 1 ∧
     (left (.keyChallengeExpiry (60 * ticksPerS)) s).key.chalAt = none) ∧
    (let s := booted fun d => d.wr 0 KEY_LC.DBGEN 1; (left (.regWrite 0 .pcie (.jtag .debugAccess) 0) s).sys.jtag = .debugAccess ∧
     (left (.regWrite 0 .pcie (.jtag .debugAccess) 0) (booted id)).sys.jtag ≠ .debugAccess) := by decide +kernel

/-! ### Reset, power, clocks -/

/-- Cast-on at a step; the record of cast-on and the block changed. -/
def casting (n : Nat) (y : Sys → Sys) (f : Dev → Dev) : State := booted fun d => f { d with sys := y { d.sys with step := n } }

/-- PLL-F and PLL-T locked on a valid reference. -/
def Dev.clocked (d : Dev) : Dev :=
  (((d.wr 0 CLK_STAT.REFOK 1).modPll 0 fun x => { x with state := 3 }).modPll 1 fun x => { x with state := 3 }).wr 0 CLK_STAT.FB 0

theorem wit_CastOnAndReset_requests :
    (let d := Dev.at 0 (booted fun d => d.wr 0 RST_CFG.RSTN_EN 1).dev
     d.on 0 RST_CFG.RSTN_EN = true ∧ d.on 0 SYS_STAT.BOOTED = true ∧ d.domOn .core = true ∧ d.sys.held = false ∧ d.ope.quiesce = none ∧
     d.sys.pend = none ∧ d.rd 0 PWR_ENTRY.PHASE = 0 ∧ d.on 0 SYS_STAT.RELEASED = true) ∧
    (let w := Dev.arrive 0 .pcie (booted id).dev
     w.reached .pcie .rst 0 0x440 ∧ w.passes .rst 0 0x440 0x2B0F#32 = true ∧ w.passes .rst 0 0x440 0x2B0E#32 = true ∧
     w.reached .pcie .sys 0 0x50 ∧ w.passes .sys 0 0x50 1#32 = true ∧ w.sysBlock ≠ 0 ∧ w.ope.quiesce = none) ∧
    (let w := Dev.arrive 0 .mgmt (booted id).dev; w.reached .mgmt .rst 0 0x440 ∧ w.passes .rst 0 0x440 0x2B0F#32 = true) ∧
    (let d := Dev.at (2 * ms) (booted fun d => d.opeOf fun o => { o with quiesce := some 0 }).dev; d.ope.quiesce = some 0 ∧ 0 + 2 * ticksPerMs = d.now) ∧
    (railC .vddL = false ∧ railC .vdda = true ∧ railL .vdda = false ∧ railC .vio = true ∧ railL .vio = true) ∧
    (let d := Dev.at 0 (casting 1 (fun y => { y with held := true, lheld := true }) id).dev
     d.sys.held = true ∧ d.sys.lheld = true ∧ d.sys.cls = .por) := by
  unfold Dev.reached; decide +kernel

theorem wit_CastOnAndReset_steps :
    (let d := Dev.at 0 (casting 1 id Dev.clocked).dev; d.castGoes = true ∧ d.sys.step = 1 ∧ (d.pllLocked 0 && d.pllLocked 1) = true) ∧
    (let d := Dev.at 0 (casting 2 id id).dev; d.castGoes = true ∧ d.key.lc = 0 ∧ d.key.root = none) ∧
    (let d := Dev.at 0 (casting 2 id fun d => { d with key := { d.key with lc := 4 } }).dev; d.castGoes = true ∧ d.key.lc = 4) ∧
    (let d := Dev.at 0 (casting 4 id id).dev; d.castGoes = true ∧ (d.pickBank 0).1 = none) ∧
    (let d := Dev.at 0 (casting 5 id id).dev; d.castGoes = true ∧ (d.pickBank 1).1 = none) ∧
    (let d := Dev.at (2000 * ms) (casting 5 id fun d => d.wr 0 SYS_STAT.BOOTED 0).dev
     d.castGoes = true ∧ d.on 0 SYS_STAT.BOOTED = false ∧ d.sys.loadAt + 2000 * ticksPerMs = d.now) ∧
    (Dev.at 0 (casting 6 id id).dev).castGoes = true ∧
    (let d := Dev.at 0 (casting 8 (fun y => { y with replayed := true }) fun d =>
        ((((d.clocked.wr 0 SYS_STAT.CONFIGURED 1).wr 0 LGL_STAT.READY 1).wr 0 LGL_STAT.ROMOK 1).wr 0 SAF_STAT.READY 1)
          |> fun (d : Dev) => { d with key := { d.key with lc := 2 } }).dev
     d.castGoes = true ∧ d.sysBlock = 0 ∧ (Dev.at 0 (casting 8 id id).dev).sysBlock ≠ 0) := by decide +kernel

theorem test_castOn :
    (let e := left (.sysResetRequest 0 .pcie 0x2B0F#32) (booted id); e.sys.step = 1 ∧ e.sys.cls = .sys ∧ e.sys.cause = 2) ∧
    (left (.sysResetRequest 0 .pcie 0x2B0E#32) (booted id)).rd 0 (ERRINFO.REASON .rst) = RC.BAD_KEY ∧
    (left (.castOnAdvance 0 0 []) (casting 1 id Dev.clocked)).sys.step = 2 ∧ (left (.castOnAdvance 0 0 []) (casting 1 id id)).sys.step = 1 ∧
    (left (.castOnAdvance 0 3 []) (casting 2 id id)).rd 0 SYS_STAT.STOP = 1 ∧ (left (.castOnAdvance 0 2 []) (casting 2 id id)).key.lc = 1 ∧
    (left (.castOnAdvance 0 0 []) (casting 4 id id)).rd 0 SYS_STAT.STOP = 3 ∧
    (left (.sysRelease 0 .pcie 1#32) (booted id)).rd 0 (ERRINFO.REASON .sys) = 0x81 ∧
    (left (.rstnRelease 0) (casting 1 (fun y => { y with rstn := true }) id)).sys.rstn = false ∧
    (let e := left (.powerOnResetRelease 7 .c) (casting 1 (fun y => { y with held := true }) id); e.now = 0 ∧ e.sys.held = false) := by
  decide +kernel

/-- A power entry at an abort point that lowers CORE-independent domain 16 (FRC) to OFF; the controller changed. -/
def entering (ap : Nat) (w : Pwr → Pwr) (f : Dev → Dev) : State := booted fun d =>
  f { ((d.wr 0 PWR_ENTRY.PHASE 1).wr 0 PWR_ENTRY.LASTAP ap) with pwr := w { d.pwr with lower := [(16, 2)] } }

theorem wit_PowerEntryWakeAndShutdown_sources :
    (let d := Dev.at 0 (booted fun d => ((d.wr 0 AON_WAKEEN.SAFE 1).wr 0 AON_SAFEWAKE.FN 1).setDomState .safe 2).dev
     d.on 0 AON_WAKEEN.SAFE = true ∧ d.bit 0 AON_SAFEWAKE.FN 0 = true ∧ d.srcLow 3 [2] = true ∧ d.die.shutAt = none) ∧
    (let d := Dev.at 0 (booted fun d => ((d.wr 0 AON_WAKEEN.SKN 1).wr 11 SKN_CFG.WAKE 2).setDomState (sknDom 11) 1).dev
     d.on 0 AON_WAKEEN.SKN = true ∧ d.domState (sknDom 11) = 1 ∧ d.rd 11 SKN_CFG.WAKE = 2) ∧
    (let d := Dev.at 0 (booted fun d => ((d.wr 0 HIF_MGMT.WAKE_EN 1).wr 0 HIF_MGMT.ADDR 0x21).setDomState .core 2).dev
     d.on 0 HIF_MGMT.WAKE_EN = true ∧ d.domOn .core = false ∧ d.rd 0 HIF_MGMT.ADDR = 0x21) ∧
    (let d := Dev.at 0 (booted fun d => (d.wr 0 AON_WAKEEN.PCIE 1).setDomState .hif 2).dev
     d.on 0 AON_WAKEEN.PCIE = true ∧ d.domOn .hif = false) := by decide +kernel

theorem wit_PowerEntryWakeAndShutdown_entry :
    (let d := Dev.at 0 (entering 0 id id).dev
     d.rd 0 PWR_ENTRY.PHASE = 1 ∧ d.die.shutAt = none ∧ d.pwr.lower = [(16, 2)] ∧ d.pwrPending = false ∧ d.stepDone 0 = true) ∧
    (let d := Dev.at 0 (entering 5 id id).dev; d.rd 0 PWR_ENTRY.LASTAP = 5 ∧ d.pwrPending = false) ∧
    (let d := Dev.at 0 (entering 4 (fun w => { w with pend := 4, pendAt := 3, apAt := 3 }) id).dev
     d.pwrPending = true ∧ d.pwr.pendAt ≤ d.pwr.apAt ∧ d.rd 0 PWR_ENTRY.LASTAP = 4) ∧
    (let d := Dev.at 0 (entering 4 (fun w => { w with pend := 4, pendAt := 4, apAt := 3 }) id).dev
     d.pwrPending = true ∧ d.pwr.apAt < d.pwr.pendAt ∧ d.stepDone 4 = true) ∧
    (let s := entering 0 id id; let d := Dev.at (s.dev.rd 0 PWR_CFG.QTMO_MS * ms) s.dev
     d.pwr.startAt + d.rd 0 PWR_CFG.QTMO_MS * ticksPerMs = d.now ∧ d.rd 0 PWR_ENTRY.PHASE = 1 ∧ d.rd 0 PWR_ENTRY.LASTAP = 0) ∧
    (let d := Dev.at 0 (booted fun d => { (d.clocked.wr 0 PWR_ENTRY.PHASE 2).setDomState .core 2 with pwr := { d.pwr with up := [4] } }).dev
     d.rd 0 PWR_ENTRY.PHASE = 2 ∧ d.pwr.up = [4] ∧ d.domState .core = 2 ∧ (d.pllLocked 0 && d.pllLocked 1) = true) ∧
    (let d := Dev.at 0 (booted fun d => { (d.clocked.wr 0 PWR_ENTRY.PHASE 2).setDomState .core 1 with pwr := { d.pwr with up := [4] } }).dev
     d.rd 0 PWR_ENTRY.PHASE = 2 ∧ d.domState .core = 1 ∧ d.sys.pend = none ∧ 15 < 2 ^ 4 ∧ 16 ≤ 16 % 2 ^ 24) := by decide +kernel

theorem wit_PowerEntryWakeAndShutdown_die :
    (let d := Dev.at (10 * ms) (booted fun d => { d with die := { d.die with shutAt := some 0 } }).dev
     d.die.shutAt = some 0 ∧ d.die.off = false ∧ 0 + 10 * ticksPerMs = d.now) ∧
    (let s := booted fun d => { d with die := { d.die with shutAt := some 0, off := true, coolAt := some 0 } }
     let d := Dev.at (s.dev.rd 0 DTM_SD.REL_S * ticksPerS) s.dev
     d.die.coolAt = some 0 ∧ d.die.off = true ∧ 0 + d.rd 0 DTM_SD.REL_S * ticksPerS = d.now) ∧
    (Dev.at 0 (booted id).dev).die.shutAt = none := by decide +kernel

theorem test_power :
    (let e := left (.pcieWake 0) (booted fun d => (d.wr 0 AON_WAKEEN.PCIE 1).setDomState .hif 2)
     e.rd 0 AON_WAKECAUSE.SRC = 16 ∧ e.rd 0 PWR_ENTRY.PHASE = 2 ∧ e.pwr.up = [17]) ∧
    (left (.sknWakeDetect 0 11 true) (booted fun d => ((d.wr 0 AON_WAKEEN.SKN 1).wr 11 SKN_CFG.WAKE 2).setDomState (sknDom 11) 1)).rd 0
      AON_WAKECAUSE.PORTS = 2 ^ 11 ∧
    (let e := left (.pwrEntryAdvance 0) (entering 0 id id); e.rd 0 PWR_ENTRY.LASTAP = 1 ∧ e.domState .frc = 3) ∧
    (let e := left (.pwrEntryAdvance 0) (entering 5 id id); e.domState .frc = 2 ∧ e.rd 0 PWR_ENTRY.RESULT = 1) ∧
    (let e := left (.pwrEntryAdvance 0) (entering 4 (fun w => { w with pend := 4, pendAt := 3, apAt := 3 }) id)
     e.rd 0 AON_WAKEABORT.AP = 4 ∧ e.rd 0 PWR_ENTRY.RESULT = 2) ∧
    (left (.pwrQtmo (1000000 * ms)) (entering 0 id id)).rd 0 PWR_ENTRY.RESULT = 3 ∧
    (let e := left (.dieShutdownTrip 0 3) (booted id); e.die.shutAt = some 0 ∧ e.die.sensor = 3) ∧
    (let e := left (.dieShutdownDomainsOff (10 * ms)) (booted fun d => { d with die := { d.die with shutAt := some 0 } })
     e.domState .core = 2 ∧ e.domState .mem = 0 ∧ (e.pll 0).state = 0) := by decide +kernel

theorem wit_ClocksAndPlls :
    (let d := Dev.at 0 (booted Dev.clocked).dev; d.on 0 CLK_STAT.REFOK = true ∧ d.pllLocked 0 = true ∧ d.pllLocked 1 = true) ∧
    (Dev.at 0 (booted fun d => d.wr 0 CLK_STAT.REFOK 0).dev).on 0 CLK_STAT.REFOK = false ∧
    (let d := Dev.at 0 (booted fun d => (d.modPll 0 fun x => { x with state := 1, fails := 3 }).modPll 2 fun x => { x with state := 2 }).dev
     (d.pll 0).state = 1 ∧ (d.pll 0).fails = 3 ∧ (d.pll 2).state = 2) ∧
    (let d := Dev.at (100 * ticksPerUs) (booted fun d => d.clocked.wr 0 CLK_CKOSTAT.GATED 1).dev
     d.bit 0 CLK_CKOSTAT.GATED 0 = true ∧ d.ckoSource 0 = true ∧ d.ckoLockAt 0 + 100 * ticksPerUs = d.now) := by decide +kernel

theorem test_clocks :
    (let e := left (.refclkLost 9) (booted Dev.clocked); e.rd 0 CLK_LOSSCNT.COUNT = 1 ∧ e.rd 0 CLK_LASTLOSS.CAUSE = 1 ∧ e.rd 0 CLK_STAT.FB = 1) ∧
    (let e := left (.pllUnlock 9 .t) (booted Dev.clocked); (e.pll 1).state = 1 ∧ e.rd 0 CLK_LASTLOSS.CAUSE = 3) ∧
    (let s (n : Nat) := booted fun d => d.modPll 0 fun x => { x with state := 1, fails := n }
     ((left (.bandSearchComplete 0 .f 64) (s 2)).pll 0).state = 1 ∧ ((left (.bandSearchComplete 0 .f 64) (s 3)).pll 0).state = 5 ∧
     ((left (.bandSearchComplete 0 .f 63) (s 3)).pll 0).band = 63) ∧
    ((left (.pllLock 5 .m) (booted fun d => d.modPll 2 fun x => { x with state := 2 })).pll 2).lockAt = 5 ∧
    ((left (.refclkValid 0) (booted fun d => d.wr 0 CLK_STAT.REFOK 0)).pll 0).state = 1 ∧
    (let s := booted fun d => d.clocked.wr 0 CLK_CKOSTAT.GATED 1
     (left (.clockOutputRestart (100 * ticksPerUs) 0) s).rd 0 CLK_CKOSTAT.RUN = 1 ∧
     (left (.clockOutputRestart (100 * ticksPerUs - 1) 0) s).rd 0 CLK_CKOSTAT.GATED = 1) := by decide +kernel

/-! ### Ply -/

/-- A unit of a pair: its mode and its state, the pair standing; its record and the block changed. -/
def paired (mode st : Nat) (x : Ply → Ply) (f : Dev → Dev) : State := booted fun d =>
  f { (((d.wr 0 PLY_CFG.MODE mode).wr 0 PLY_STAT.STATE st).wr 0 PLY_STAT.PAIRED 1) with ply := x d.ply }

theorem wit_PlyLinksFramesAndMetering_rx :
    (Dev.at 0 (booted id).dev).plyUp = false ∧
    (let d := Dev.at 0 (paired 2 5 id id).dev
     d.plyUp = true ∧ (∀ k ∈ [0x11, 0x20, 0x21, 0x22, 0x23, 0x24, 3, 0x10, 0x30, 0x31, 0x40], d.plyHears k 9) ∧ d.domOn .frc = true) ∧
    (let d := Dev.at 0 (paired 2 5 (fun x => { x with lost := true, last := [(0x21, 10)] }) id).dev
     d.ply.lost = true ∧ plyNewer (d.ply.last.get (fun _ => 0) 0x21) 9 = false ∧ plyNewer (d.ply.last.get (fun _ => 0) 0x21) 10 = true ∧
     plyNewer (d.ply.last.get (fun _ => 0) 1) 0 = true) ∧
    (let d := Dev.at 0 (paired 2 5 id fun d => d.wr 0 PLY_STAT.PAIRED 0).dev; d.plyFresh 0x21 9 ∧ d.on 0 PLY_STAT.PAIRED = false) ∧
    (let d := Dev.at 0 (paired 2 5 id fun d => (d.wr 0 PLY_CFG.ROLE 1).wr 0 PLY_PAIRID.ID 7).dev
     d.rd 0 PLY_PAIRID.ID = 7 ∧ 0 + d.rd 0 PLY_CFG.ROLE = 1 ∧ d.plyMaster = false ∧ d.ply.stepped = false) ∧
    (let d := Dev.at 0 (paired 2 4 id id).dev; d.plyMaster = true) := by
  unfold Dev.plyHears Dev.plyFresh; decide +kernel

/-- A paired unit within a row, its alarm due, FRC in RET and mapped to the clock's wake. -/
def alarming : State := inRow 1 fun d =>
  let d := ((((d.wr 0 PLY_CFG.MODE 2).wr 0 PLY_STAT.STATE 5).wr 0 PLY_STAT.PAIRED 1).setDomState .frc 1).wr 0 (PWR_WAKEMAP.DOMS 2) (2 ^ 16)
  ((d.wr 0 LGL_STAT.READY 1).wr 0 RTC_ALMCTL.EN 1).wr 0 AON_WAKEEN.RTC 1

theorem test_alarm : let e := left (.lToCSecondFeed 0) alarming
    e.rd 0 RTC_ALMCTL.EN = 0 ∧ e.bit 0 AON_WAKECAUSE.SRC 2 = true ∧ e.pwr.up = [16] := by decide +kernel

theorem wit_PlyLinksFramesAndMetering_tx :
    (let d := Dev.at (100 * ticksPerUs) (paired 2 5 (fun x => { x with hbTx := some 0 }) id).dev
     d.plyUp = true ∧ d.domOn .ply = true ∧ d.ply.hbTx = some 0 ∧ 0 + 100 * ticksPerUs = d.now ∧ d.ply.helloTx = none ∧ d.ply.timeTx = none) ∧
    (let d := Dev.at 0 (paired 2 5 (fun x => { x with bad := [(3, 60)] }) id).dev; d.ply.bad.get (fun _ => 0) 3 = 60 ∧ d.xchkBit 3 = false) ∧
    (let d := Dev.at 0 (paired 2 5 id fun d => d.opeOf fun e => { e with flight := [argOp OK.MARK_START [9#8, 4#8, 3#8]] }).dev
     d.opAt 5 = some (argOp OK.MARK_START [9#8, 4#8, 3#8]) ∧ d.par MP.HOME 3 = 0 ∧ d.opAt 6 = none) ∧
    (let d := Dev.at ms (paired 2 5 (fun x => { x with rxAt := some 0 }) id).dev; d.plyUp = true ∧ d.ply.lost = false ∧ d.plySilentFor = true ∧ d.ringSeen = false ∧
     d.on 0 PLY_STAT.SELFCHK_FAIL = false) ∧
    (let w := (Dev.at 0 alarming.dev).rowCatch
     (Dev.at 0 alarming.dev).lglUp = true ∧ w.on 0 RTC_ALMCTL.EN = true ∧ w.rd 0 RTC_ALARM.SEC ≤ w.lgl.rtc.sec % 2 ^ 32 ∧
     w.on 0 AON_WAKEEN.RTC = true ∧ w.srcLow 2 [] = true ∧ w.die.shutAt = none ∧ w.rd 0 PLY_CFG.MODE = 2 ∧ w.on 0 PLY_STAT.PAIRED = true ∧
     w.plyUp = true ∧ w.domOn .ply = true) := by decide +kernel

theorem test_plyFrames :
    (left (.plyFrameRx 0 1 false 9 (.take 0 1)) (paired 2 5 id id)).rd 1 PLY_CRCERR.COUNT = 1 ∧
    (let e := left (.helloRx 0 0 9 7 5 2 0 0 3) (paired 2 5 id fun d => ((d.wr 0 PLY_CFG.ROLE 1).wr 0 PLY_PAIRID.ID 7).wr 0 PLY_STAT.PAIRED 0)
     e.rd 0 PLY_STAT.PAIRED = 1 ∧ e.rd 0 PLY_PARTNER.SERIAL = 5 ∧ e.ply.pcrc = 3) ∧
    (left (.helloRx 0 0 9 8 5 2 0 0 3) (paired 2 5 id fun d => (d.wr 0 PLY_CFG.ROLE 1).wr 0 PLY_PAIRID.ID 7)).rd 0 PLY_STAT.PAIRED = 0 ∧
    (let e := left (.timeRx 1000 0 9 990 900 1010 77 0) (paired 2 5 id id); e.now = 1050 ∧ e.ply.stepped = true) ∧
    (left (.markRx 0 0 9 true 1 2 3) (paired 2 5 id id)).sent.length = 1 ∧
    (left (.trigRx 0 0 9 0 1 0 55) (paired 2 5 id id)).rd 0 FRC_CAPID.ID = 55 ∧
    (left (.xchkDiff 0 3) (paired 2 5 (fun x => { x with bad := [(3, 60)] }) id)).xchkBit 3 = true ∧
    (left (.blockLockGained 4 1) (paired 2 5 id id)).rd 1 PLY_LINK.BLOCKLOCK = 1 ∧
    (left (.heartbeatSend (100 * ticksPerUs)) (paired 2 5 (fun x => { x with hbTx := some 0 }) id)).sent.length = 1 ∧
    (left (.heartbeatSend (100 * ticksPerUs - 1)) (paired 2 5 (fun x => { x with hbTx := some 0 }) id)).sent = [] ∧
    (let e := left (.plyLoss ms) (paired 2 5 (fun x => { x with rxAt := some 0 }) id); e.plySt = 4 ∧ e.rd 0 PLY_LASTSW.CAUSE = 1 ∧ e.ply.lost = true) := by decide +kernel

theorem wit_PlyPairControl_join :
    (let d := Dev.at 0 (paired 1 2 (fun x => { x with waiting := true }) fun d => d.wr 0 ALC_ROWCNT.ROWS 12).dev
     d.plyHears 0x10 9 ∧ d.domOn .ply = true ∧ d.ply.waiting = true ∧ d.rd 0 ALC_ROWCNT.ROWS = 12) ∧
    (let d := Dev.at (200 * ticksPerUs) (paired 1 2 (fun x => { x with waiting := true }) id).dev
     d.plyUp = true ∧ d.ply.waiting = true ∧ d.alc.rowAt + 200 * ticksPerUs = d.now) ∧
    (let d := Dev.at 0 (paired 1 2 (fun x => { x with snapIn := some (0, {}), joint := true }) fun d => d.wr 0 PLY_CFG.ROLE 1).dev
     d.plyHears 0x11 9 ∧ d.plyA = false ∧ d.ply.snapIn = some (d.alc.snap.row, {}) ∧ d.ply.joint = true ∧ d.alc.snap.row + 1 = 1) ∧
    (let d := Dev.at 0 (paired 1 2 (fun x => { x with lateN := 8 }) id).dev; d.plyUp = true ∧ 8 = d.ply.lateN ∧ d.plySt ≠ 3) := by
  unfold Dev.plyHears Dev.plyFresh; decide +kernel

theorem wit_PlyPairControl_guard :
    (let d := Dev.at 0 (paired 2 5 id fun d => (d.wr 0 PLY_STAT.ALIGNED 1).wr 0 PLY_STAT.MIRROR_OK 1).dev
     d.plyHears 0x20 9 ∧ d.plyHears 0x21 9 ∧ d.plySt = 5 ∧ d.plyElig = true ∧ d.publishDiffers 5 [] [] [] = true ∧
     pageOf (pageIx .out 3) = some (.out, 3) ∧ plyOwn .out = false ∧ hasStaged .out 3 = true) ∧
    (let d := Dev.at 0 (paired 2 5 id fun d => d.wr 2 SKN_CFG.TOPO 2).dev; d.plyHears 0x22 9 ∧ d.rd 2 SKN_CFG.TOPO = 2) ∧
    (let d := Dev.at 0 (paired 2 4 id id).dev; d.plyHears 0x23 9 ∧ d.plyActive = true ∧ d.ply.chkAt = none) ∧
    (let d := Dev.at (3 * ms) (paired 2 5 (fun x => { x with chkAt := some 0, chkOwn := some true }) fun d => d.wr 0 PLY_MISROWS.RUN 3).dev
     d.ply.chkAt = some 0 ∧ d.ply.chkOwn = some true ∧ d.chkMutual = true ∧ d.ply.chkPeer = none ∧ 0 + 3 * ticksPerMs = d.now) ∧
    (let d := Dev.at 0 (paired 2 5 id fun d => d.wr 0 PLY_MISROWS.RUN 3).dev
     d.plyUp = true ∧ d.on 0 PLY_STAT.PAIRED = true ∧ d.ply.chkAt = none ∧ 3 = d.rd 0 PLY_MISROWS.RUN) ∧
    (let d := Dev.at 0 (paired 2 5 (fun x => { x with chkAt := some 0 }) id).dev; d.ply.chkAt.isSome = true ∧ d.ply.chkOwn = none ∧ d.chkMutual = false) ∧
    (let d := Dev.at (2 * ticksPerS) (paired 2 5 id id).dev; d.ply.signAt + 2 * ticksPerS = d.now) := by
  unfold Dev.plyHears Dev.plyFresh; decide +kernel

theorem wit_PlyPairControl_return :
    (let d := Dev.at 0 (paired 2 4 id fun d => (d.wr 2 SKN_CFG.TOPO 2).wr 0 PLY_CFG.PREF 1).dev
     d.rd 2 SKN_CFG.TOPO = 2 ∧ d.sknOn 2 = true ∧ d.plyActive = true ∧ d.plyPref = false ∧ d.ply.pstate ≠ 5) ∧
    (let s := paired 2 5 (fun x => { x with holdAt := some 0 }) fun d => (d.wr 0 PLY_STAT.ALIGNED 1).wr 0 PLY_STAT.MIRROR_OK 1
     let d := Dev.at (s.dev.rd 0 PLY_GUARD.HOLDOFF_S * ticksPerS) s.dev
     d.plyUp = true ∧ d.plyElig = true ∧ d.ply.ret = none ∧ d.ply.holdAt = some 0 ∧ 0 + d.rd 0 PLY_GUARD.HOLDOFF_S * ticksPerS = d.now) ∧
    (let d := Dev.at 0 (paired 2 4 id id).dev; d.plyHears 0x24 9 ∧ d.plyActive = true ∧ d.rd 0 PLY_CFG.MODE = 2) ∧
    (let w := Dev.arrive 0 .pcie (paired 2 4 (fun x => { x with pstate := 5 }) fun d => d.wr 0 PLY_STAT.ALIGNED 1).dev
     w.reached .pcie .ply 0 0x45C ∧ w.passes .ply 0 0x45C 0x80000001#32 = true ∧ w.passes .ply 0 0x45C 1#32 = true ∧ w.plyActive = true ∧
     w.on 0 PLY_STAT.ALIGNED = true ∧ w.ply.pstate = 5 ∧ w.ply.chkPeer ≠ some false ∧ w.ply.ret = none ∧ w.domOn .ply = true) := by
  unfold Dev.plyHears Dev.plyFresh Dev.reached; decide +kernel

theorem test_plyPair :
    (left (.split 0) (paired 1 2 (fun x => { x with lateN := 8 }) id)).plySt = 3 ∧
    (let e := left (.mirrorRx 0 0 9 (.safety [])) (paired 2 5 id id); e.ply.mirSaf = [] ∧ e.plySt = 5) ∧
    (let e := left (.publishRx 0 0 9 5 [] [] [] []) (paired 2 5 id fun d => (d.wr 0 PLY_STAT.ALIGNED 1).wr 0 PLY_STAT.MIRROR_OK 1)
     e.rd 0 PLY_MISROWS.TOTAL = 1 ∧ e.ply.prow = 5) ∧
    (left (.sknfwdRx 0 0 9 2 [0#8, 7#8]) (paired 2 5 id fun d => d.wr 2 SKN_CFG.TOPO 2)).sent = [.skein 2 0 [0#8, 7#8]] ∧
    (left (.checkRx 0 0 9 none) (paired 2 4 id id)).ply.chkAt = some 0 ∧
    (let s := paired 2 5 (fun x => { x with chkAt := some 0, chkOwn := some true }) fun d => d.wr 0 PLY_MISROWS.RUN 3
     (left (.selfCheckTimeout (3 * ms)) s).plySt = 4 ∧ (left (.selfCheckTimeout (3 * ms - 1)) s).plySt = 5) ∧
    (left (.selfCheckDone 0 false) (paired 2 5 (fun x => { x with chkAt := some 0 }) id)).rd 0 PLY_STAT.SELFCHK_FAIL = 1 ∧
    (left (.solo (2 * ticksPerS)) (paired 2 5 id id)).plySt = 6 ∧ (left (.solo (2 * ticksPerS - 1)) (paired 2 5 id id)).plySt = 5 ∧
    (left (.ringFrameRx 0 2) (paired 2 4 id fun d => (d.wr 2 SKN_CFG.TOPO 2).wr 0 PLY_CFG.PREF 1)).plySt = 5 ∧
    (left (.takeRx 0 0 9 7 1) (paired 2 4 id id)).plySt = 5 ∧
    (left (.plySwitch 0 .pcie 0x80000001#32) (paired 2 4 (fun x => { x with pstate := 5 }) fun d => d.wr 0 PLY_STAT.ALIGNED 1)).ply.ret =
      some (2, 0, 4) := by decide +kernel

end Sys2Proof.Machine
end

section
/-!
The SPEC window is read-only (R53). Every offset from 0xC00 on of an ALC or STR page is window, whether a register stands
there or not, so the page refuses the write before it looks at the value, at a lock or at a role.
-/

namespace Sys2Proof.Machine

/-- REG_WRITE is a host write. -/
theorem exec_regWrite (t : Nat) (p : Port) (a : HostAddr) (v : Word) (s : State) :
    exec (.regWrite t p a v) s = onHost t p a v s := rfl

theorem slotAt_eq_spec (b : Tag) (n off : Nat) (hb : b = .alc ∨ b = .str) (hlo : 0xC00 ≤ off) :
    slotAt b n off = .spec := by
  have hheader : ¬off < 0x30 := by omega
  unfold slotAt
  rw [if_neg hheader]
  cases famAt b n off with
  | none => simp [hlo, hb]
  | some r => simp only [if_pos hlo]

theorem pageWrite_of_slotAt_spec (d : Dev) (sram : AMap Byte) (p : Port) (b : Tag) (n off : Nat) (v : Word)
    (h : slotAt b n off = .spec) : d.pageWrite sram p b n off v = d.reject b n off RC.SPEC := by
  unfold Dev.pageWrite
  rw [h]

/-- Settles O7: a write that reaches its page is the page's write, the slot at its offset is the SPEC window, and the
rejection recorded there changes ERRINFO alone. -/
theorem specWindowWritesAreRejected : Obligations.SpecWindowWritesAreRejected := by
  intro t p b n off v s d hb hlo hhi hreached
  refine ⟨d.reject b n off RC.SPEC, ?_, rejected_reject d b n off RC.SPEC hhi (by decide)⟩
  rw [exec_regWrite, onHost_reached t p b n off v s hhi hreached,
    pageWrite_of_slotAt_spec _ _ _ _ _ _ _ (slotAt_eq_spec b n off hb hlo)]

end Sys2Proof.Machine
end

section
/-!
STR_IMAX against the phases (R91). The check is one of the commit's, so the commit has a first failing reason and is
refused. At rest the strand's checks answer RANGE, PAIR or CAPACITY, and RANGE stands first of these in the order of R438.
-/

namespace Sys2Proof.Machine

/-! ### The reasons of a list of checks -/

theorem mem_failIf (b : Bool) (code c : Nat) : c ∈ failIf b code ↔ b = true ∧ c = code := by
  cases b <;> simp

theorem exists_firstReason_of_mem {cs : List Nat} {c : Nat} (h : c ∈ cs) : ∃ r ∈ cs, firstReason cs = some r := by
  cases cs with
  | nil => exact absurd h List.not_mem_nil
  | cons a cs => exact firstReason_cons a cs

/-- The recorded reason stands first in the order of R438. -/
theorem reasonRank_le_of_firstReason {cs : List Nat} {r : Nat} (h : firstReason cs = some r) :
    ∀ c ∈ cs, reasonRank r ≤ reasonRank c := by
  induction cs generalizing r with
  | nil => exact fun _ hc => absurd hc List.not_mem_nil
  | cons a cs ih =>
    cases hcs : firstReason cs with
    | none =>
      obtain rfl : a = r := by simpa [firstReason, hcs] using h
      refine List.forall_mem_cons.2 ⟨le_rfl, fun c hc => ?_⟩
      obtain ⟨x, -, hx⟩ := exists_firstReason_of_mem hc
      simp [hcs] at hx
    | some r' =>
      have hle := ih hcs
      by_cases hra : reasonRank a ≤ reasonRank r'
      · obtain rfl : a = r := by simpa [firstReason, hcs, hra] using h
        exact List.forall_mem_cons.2 ⟨le_rfl, fun c hc => hra.trans (hle c hc)⟩
      · obtain rfl : r' = r := by simpa [firstReason, hcs, hra] using h
        exact List.forall_mem_cons.2 ⟨(Nat.lt_of_not_le hra).le, hle⟩

/-- A failing check's code is the one recorded when every other code that fails comes after it in R438. -/
theorem firstReason_eq_of_forall_lt {cs : List Nat} {c : Nat} (hc : c ∈ cs)
    (hlt : ∀ x ∈ cs, x = c ∨ reasonRank c < reasonRank x) : firstReason cs = some c := by
  obtain ⟨r, hr, hfirst⟩ := exists_firstReason_of_mem hc
  have hle : reasonRank r ≤ reasonRank c := reasonRank_le_of_firstReason hfirst c hc
  rcases hlt r hr with rfl | h
  · exact hfirst
  · omega

/-! ### A refused commit (R50) -/

/-- A page as its refused commit leaves it. -/
def Dev.commitRefused (d : Dev) (t : Tag) (n r : Nat) : Dev :=
  (d.wr n (STAGE_STAT.STATE t) 3).wr n (STAGE_STAT.REASON t) r

theorem commit_of_firstReason (d : Dev) (t : Tag) (n r : Nat)
    (h : firstReason (commitReasons t n d (d.stagedActive t n)) = some r) : d.commit t n = d.commitRefused t n r := by
  simp only [Dev.commit, h, Dev.commitRefused]

theorem rd_state_commitRefused (d : Dev) (t : Tag) (n r : Nat) : (d.commitRefused t n r).rd n (STAGE_STAT.STATE t) = 3 := by
  have hS : (STAGE_STAT.STATE t).ok = true := rfl
  rw [Dev.commitRefused, Dev.rd_wr_apart _ _ _ _ _ _ (by rfl) hS rfl, Dev.rd_wr_same _ _ _ _ hS]
  rfl

theorem rd_reason_commitRefused (d : Dev) (t : Tag) (n r : Nat) (hr : r < 256) :
    (d.commitRefused t n r).rd n (STAGE_STAT.REASON t) = r := by
  rw [Dev.commitRefused, Dev.rd_wr_same _ _ _ _ (by rfl)]
  exact Nat.mod_eq_of_lt hr

theorem sameRegs_commitRefused (d : Dev) (t : Tag) (n r : Nat) :
    SameRegs (fun a => a = pageIx t n * 4096 + 0x24) d (d.commitRefused t n r) :=
  sameRegs_trans (sameRegs_wr d n (STAGE_STAT.STATE t) 3 (decide_eq_true rfl))
    (sameRegs_wr _ n (STAGE_STAT.REASON t) r (decide_eq_true rfl))

theorem regsOnly_commitRefused (d : Dev) (t : Tag) (n r : Nat) : RegsOnly d (d.commitRefused t n r) :=
  (regsOnly_wr d _ _ _).trans (regsOnly_wr _ _ _ _)

/-- STAGE_COMMIT_APPLY at the boundary of a pending commit is that commit. -/
theorem exec_stageCommitApply_due (t : Nat) (b : Tag) (n : Nat) (s : State) (hn : n < b.count)
    (hpending : (Dev.at t s.dev).rd n (STAGE_STAT.STATE b) = 2) (hup : (Dev.at t s.dev).pageUp b n = true)
    (hdue : (Dev.at t s.dev).commitDue b n = true) :
    exec (.stageCommitApply t b n) s = .next { s with dev := (Dev.at t s.dev).commit b n } := by
  have heffect : stageCommitApplyEffect b n (Dev.at t s.dev) = (Dev.at t s.dev).commit b n := by
    rw [stageCommitApplyEffect, if_pos]
    simp only [hn, hpending, hup, hdue, decide_true, Bool.and_true]
  calc exec (.stageCommitApply t b n) s
      = .next { s with dev := stageCommitApplyEffect b n (Dev.at t s.dev) } := rfl
    _ = .next { s with dev := (Dev.at t s.dev).commit b n } := by rw [heffect]

/-! ### The checks of a STR commit -/

theorem range_mem_strReasons_of_imax (n : Nat) (d d' : Dev)
    (h : d'.rd n STR_CFG.NPH * 300000 < d'.rd n STR_IMAX.MA) : RC.RANGE ∈ strReasons n d d' := by
  simp only [strReasons, List.mem_append, mem_failIf, h, decide_true, and_self, or_true, true_or]

/-- ENERGISED and the bank in use (0x80) need a running strand. -/
theorem strReasons_at_rest (n : Nat) (d d' : Dev) (hrest : d.strRunning n = false) :
    ∀ c ∈ strReasons n d d', c = RC.RANGE ∨ c = RC.PAIR ∨ c = RC.CAPACITY := by
  intro c hc
  simp only [strReasons, hrest, Bool.false_and, failIf_false, List.nil_append, List.append_nil, List.mem_append,
    mem_failIf] at hc
  tauto

theorem firstReason_strReasons_at_rest (n : Nat) (d d' : Dev) (hrest : d.strRunning n = false)
    (himax : d'.rd n STR_CFG.NPH * 300000 < d'.rd n STR_IMAX.MA) : firstReason (strReasons n d d') = some RC.RANGE := by
  refine firstReason_eq_of_forall_lt (range_mem_strReasons_of_imax n d d' himax) fun c hc => ?_
  rcases strReasons_at_rest n d d' hrest c hc with rfl | rfl | rfl
  · exact .inl rfl
  · exact .inr (by decide)
  · exact .inr (by decide)

/-- Settles O15: the failing check gives the commit a first reason, so it is refused, and at rest that reason is RANGE. -/
theorem strandCurrentLimitFollowsItsPhases : Obligations.StrandCurrentLimitFollowsItsPhases := by
  intro t n s d d' hpending hup hdue himax
  obtain ⟨r, -, hfirst⟩ := exists_firstReason_of_mem (range_mem_strReasons_of_imax n d d' himax)
  refine ⟨d.commitRefused .str n r, ?_, rd_state_commitRefused d .str n r, fun hrest => ?_,
    sameRegs_commitRefused d .str n r, regsOnly_commitRefused d .str n r⟩
  · rw [exec_stageCommitApply_due t .str n s n.isLt hpending hup hdue, commit_of_firstReason _ .str n r hfirst]
  · obtain rfl : RC.RANGE = r :=
      Option.some.inj ((firstReason_strReasons_at_rest n d d' hrest himax).symm.trans hfirst)
    exact rd_reason_commitRefused d .str n RC.RANGE (by decide)

end Sys2Proof.Machine
end
